-- ==== Sys2Proof/Word.lean ====
section
/-!
DEFINITION. The plain words of the UZATEL 2410 model: bytes, the numbered things of the part
(chains, stacks, terminals), the two sets that the frames carry as bit masks, timers, and the
sparse numbered tables of the table store.
-/

namespace Sys2Proof

/-- One byte of a line, a frame, a text or a stage. -/
abbrev Byte := BitVec 8

/-- Board chains A to D, as the codes 0 to 3 (Table 11-3). -/
abbrev ChainId := Fin 4

/-- Bulletin stacks 0 to 7. -/
abbrev StackId := Fin 8

/-- Dealer terminals: terminal n (1 to 32) is index n − 1. -/
abbrev TermId := Fin 32

/-- A set of change-set names in the layout of the UPDATE name mask (R177, under Table 11-10):
bit 0 SYMBOL, then STATE, LAST, CHANGE, TICK, HIGH, LOW, VOLUME, BID, ASK, STALE, and bit 11 CLEAR. -/
abbrev NameSet := BitVec 12

/-- A set of the 15 alerts in the layout of the alert status word (below Table 11-6). -/
abbrev AlertSet := BitVec 15

/-- A timer on the interval tick (R58): the ticks still to come, or absent while stopped. -/
abbrev Timer := Option Nat

/-- A numbered table of the table store, holding the entries that are not EMPTY in rising order. -/
abbrev Table (α : Type) := List (Nat × α)

end Sys2Proof
end

