-- ==== Sys2Proof/Syntax.lean ====
section
/-!
DEFINITION. The commands of the UZATEL 2410: one constructor for each row of
spec/opcode_table.json. A command is one step of the part, whole and indivisible, but for a LOAD,
which takes effect entry by entry (R167): each LOAD command takes the next of its entries (DESIGN
CHOICE, log entry 29). The steps that apply a frame carry no operand: the frame is the head entry of
the intake queue (R47). The steps that are line or pin events carry what arrives.
-/

namespace Sys2Proof

/-- What one FEED_BYTE_RECEIVED brings: one bit, or eight bits, most significant first (R38). -/
inductive LineUnit where
  | bit (b : Bool)
  | byte (b : Byte)
  deriving DecidableEq, Repr

/-- The rows of spec/opcode_table.json, in the table's order. -/
inductive Instr where
  /-- FEED_FRAME_RECEIVED: the second CRC byte of a feed frame. -/
  | feedFrameReceived (crcLow : Byte)
  /-- SILENCE_TIMER_EXPIRY. -/
  | silenceTimerExpiry
  /-- TRADE: the head of the intake queue is applied as a TRADE. -/
  | trade
  /-- QUOTE. -/
  | quote
  /-- SYMBOL_STATE. -/
  | symbolState
  /-- RECAP. -/
  | recap
  /-- CLOCK. -/
  | clock
  /-- SESSION. -/
  | session
  /-- BULLETIN_PUSH. -/
  | bulletinPush
  /-- BULLETIN_POP. -/
  | bulletinPop
  /-- BULLETIN_CLEAR. -/
  | bulletinClear
  /-- LOAD_PARAM: the next entry of a LOAD at the head of the intake queue (R167). -/
  | loadParam
  /-- LOAD_SYMBOL. -/
  | loadSymbol
  /-- LOAD_SLOT. -/
  | loadSlot
  /-- LOAD_CHAIN. -/
  | loadChain
  /-- LOAD_MODULE. -/
  | loadModule
  /-- LOAD_TERMINAL. -/
  | loadTerminal
  /-- READ. -/
  | read
  /-- REPORT. -/
  | report
  /-- CLEAR_ALERTS. -/
  | clearAlerts
  /-- SET_MASK. -/
  | setMask
  /-- CHAIN_RESET. -/
  | chainReset
  /-- TERMINAL_RESET. -/
  | terminalReset
  /-- TICKER_FLUSH. -/
  | tickerFlush
  /-- RESET_COLD. -/
  | resetCold
  /-- RESET_WARM: `straps` is what the strap pins show when they are sampled. -/
  | resetWarm (straps : BitVec 6)
  /-- POWER_ON. -/
  | powerOn
  /-- RESET_PIN_ASSERT. -/
  | resetPinAssert
  /-- RESET_PIN_RELEASE. -/
  | resetPinRelease
  /-- INIT_END: `straps` and `sense` are what the strap and chain-sense pins show then
  (`true` is present). -/
  | initEnd (straps : BitVec 6) (sense : Vector Bool 4)
  /-- SECOND_PHASE_EXPIRY. -/
  | secondPhaseExpiry
  /-- KEEPALIVE_EXPIRY of one chain. -/
  | keepaliveExpiry (chain : ChainId)
  /-- SHIFT_COMPLETION of one chain: `returned` holds the bits taken from its return data line, in
  the order in which they came. -/
  | shiftCompletion (chain : ChainId) (returned : List Bool)
  /-- SETTLE_COMPLETION of one chain. -/
  | settleCompletion (chain : ChainId)
  /-- CHAIN_SENSE_CHANGE: the level that the sampling finds. -/
  | chainSenseChange (chain : ChainId) (present : Bool)
  /-- PWM_PERIOD_START of one chain. -/
  | pwmPeriodStart (chain : ChainId)
  /-- FLASH_CLOCK_HALF_PERIOD. -/
  | flashClockHalfPeriod
  /-- FLASH_EXPIRY of slot 0 to 255. -/
  | flashExpiry (slot : Nat)
  /-- BULLETIN_DURATION_EXPIRY of the entry `position` places below the top of a stack. -/
  | bulletinDurationExpiry (stack : StackId) (position : Nat)
  /-- STEP of the ticker. -/
  | step
  /-- PRIMARY_FRAME_SENT. -/
  | primaryFrameSent
  /-- TERMINAL_RESPONSE: the character that ends a response, its second CRC byte. -/
  | terminalResponse (crcLow : Byte)
  /-- RESPONSE_TIMEOUT. -/
  | responseTimeout
  /-- PROBE_TIMER_EXPIRY of one terminal. -/
  | probeTimerExpiry (terminal : TermId)
  /-- NIGHT_POLL_GAP_EXPIRY. -/
  | nightPollGapExpiry
  /-- RETURN_TRANSMISSION_START. -/
  | returnTransmissionStart
  /-- RETURN_FRAME_SENT. -/
  | returnFrameSent
  /-- FEED_BYTE_RECEIVED: one bit or one byte of the feed line. -/
  | feedByteReceived (unit : LineUnit)
  /-- TERMINAL_CHARACTER_RECEIVED: one character of the terminal line. -/
  | terminalCharacterReceived (char : Byte)
  /-- REFUSED_MANAGEMENT_FRAME. -/
  | refusedManagementFrame
  deriving DecidableEq, Repr

end Sys2Proof
end

