-- ==== Sys2Proof/Config.lean ====
section
/-!
DEFINITION. What the manual leaves open and the model leaves free: constants with no body, so that
no proof can rest on a value of theirs.
-/

namespace Sys2Proof

/-- A byte the manual does not state. The first argument is the number of the draw
(`State.draws`), the second tells the open bytes of one draw apart. Used for the minute and second
bytes of an absent last trade time in the RECORD table (Table 11-8 fixes the hour byte alone) and for
the two sequence bytes of a REPORT while the expected number is unset (Table 11-6). -/
opaque Config.freeByte : Nat → Nat → Byte

end Sys2Proof
end

