-- ==== Sys2Proof/Machine/Blocks.lean ====
section
/-!
DEFINITION. The types of the state that each block of Table 0-1 keeps. Plain data throughout.
-/

namespace Sys2Proof.Machine

/-! ## Quote records (Table 1-2) -/

/-- A symbol code: four root bytes, then the class byte (R176). -/
structure SymbolCode where
  r0 : Byte
  r1 : Byte
  r2 : Byte
  r3 : Byte
  cls : Byte
  deriving DecidableEq, Repr

/-- A time of day. -/
structure TimeOfDay where
  hour : Nat
  minute : Nat
  second : Nat
  deriving DecidableEq, Repr

/-- Tape class. -/
inductive TapeClass where
  | none
  | a
  | b
  deriving DecidableEq, Repr

/-- Display denominator, 8 or 16. -/
inductive Denom where
  | eighths
  | sixteenths
  deriving DecidableEq, Repr

/-- Trading state of a record. -/
inductive TradingState where
  | notOpen
  | trading
  | halted
  deriving DecidableEq, Repr

/-- Tick, and carry tick. -/
inductive Tick where
  | none
  | up
  | down
  | zeroPlus
  | zeroMinus
  deriving DecidableEq, Repr

/-- The fields of a quote record. Prices are whole price units of 1/256 dollar (R23). -/
structure QuoteRecord where
  symbol : SymbolCode
  tapeClass : TapeClass
  denom : Denom
  prevClose : Nat
  state : TradingState
  last : Option Nat
  tick : Tick
  carryTick : Tick
  netChange : Int
  high : Option Nat
  low : Option Nat
  volume : Nat
  bid : Option Nat
  ask : Option Nat
  lastTime : Option TimeOfDay
  stale : Bool
  watch : Nat
  tapeWhole : Option Nat
  tapeEpoch : BitVec 16
  deriving DecidableEq, Repr

/-! ## Feed receiver and intake queue (chapter 3) -/

/-- Receiver states (Table 3-1). -/
inductive RxState where
  | hunt
  | length
  | body
  | check
  deriving DecidableEq, Repr

/-- The receiver state with the bytes of the frame being received. In HUNT before the first SYNC,
`window` holds the last bits searched; once `aligned` it holds the bits of the byte being taken.
`nbits` counts the bits `window` holds. -/
structure Receiver where
  state : RxState
  aligned : Bool
  window : Byte
  nbits : Nat
  length : Nat
  body : List Byte
  crc : BitVec 16
  crcHigh : Option Byte
  deriving DecidableEq, Repr

/-- Feed state. -/
inductive FeedState where
  | notYet
  | running
  | lost
  deriving DecidableEq, Repr

/-- The feed receiver. `station` is the station address sampled from the straps (R44). -/
structure Feed where
  rx : Receiver
  expected : Option (BitVec 16)
  gapOwed : Bool
  feedState : FeedState
  silence : Timer
  station : BitVec 6
  deriving DecidableEq, Repr

/-- An entry of the intake queue (R47). -/
structure IntakeEntry where
  body : List Byte
  gapBefore : Bool
  deriving DecidableEq, Repr

/-! ## Time base (chapter 4) -/

/-- Session states (Table 4-2). -/
inductive SessionState where
  | closed
  | preOpen
  | openMarket
  | haltedAll
  deriving DecidableEq, Repr

/-- The exchange clock in seconds of day, its set flag, its second phase, and the session. -/
structure TimeBase where
  clock : Nat
  clockSet : Bool
  phaseTicks : Nat
  session : SessionState
  deriving DecidableEq, Repr

/-! ## Board chains (chapter 5) -/

/-- Module kinds (R71). -/
inductive ModuleKind where
  | endOfList
  | char8
  | lamp
  | bypass
  deriving DecidableEq, Repr

/-- A chain entry (R70): cell period in µs, settle time in ms, keepalive in s. -/
structure ChainEntry where
  enabled : Bool
  cellPeriod : Nat
  settle : Nat
  keepalive : Nat
  day : Byte
  night : Byte
  deriving DecidableEq, Repr

/-- Chain states (Table 5-3). -/
inductive ChainState where
  | offline
  | idle
  | shifting
  | settling
  deriving DecidableEq, Repr

/-- The cycle in flight: what was captured at refresh start (R75), and the stages returned. -/
structure Cycle where
  list : List ModuleKind
  cellPeriod : Nat
  settle : Nat
  image : List Byte
  verified : Bool
  returned : List Byte
  deriving DecidableEq, Repr

/-- One board chain controller. `pwmLevel` is the level b of the PWM period in progress (R87);
`latched` is the image of the last latch strobe, which the modules show (R78). -/
structure Chain where
  entry : ChainEntry
  modules : Vector ModuleKind 64
  state : ChainState
  shadow : List Byte
  shadowValid : Bool
  resync : Bool
  faultCount : Nat
  firstMismatch : Option Nat
  senseLevel : Bool
  senseLatch : Bool
  cycle : Option Cycle
  reload : Bool
  resetPending : Bool
  keepaliveTimer : Timer
  settleTimer : Timer
  pwmLevel : Byte
  latched : List Byte
  deriving DecidableEq, Repr

/-- The flash clock output and its half-period timer (R88). -/
structure FlashClock where
  level : Bool
  timer : Timer
  deriving DecidableEq, Repr

/-! ## Slots and bulletin stacks (chapter 6) -/

/-- The fields a QUOTE slot may show (R92). -/
inductive BoardField where
  | symbol
  | last
  | change
  | high
  | low
  | volume
  | bid
  | ask
  deriving DecidableEq, Repr

/-- What a slot that is not EMPTY shows (Table 6-1). -/
inductive SlotKind where
  | quote (record : Nat) (fields : List BoardField) (gap : Nat) (lamp : Option Nat) (flash : Bool)
  | message (width : Nat) (stack : StackId)
  | clock
  | status
  deriving DecidableEq, Repr

/-- A slot that is not EMPTY: its description, its dirty flag and its flash timer. The flash
remaining of R98 is the timer's count, 0 while it is stopped. -/
structure Slot where
  chain : ChainId
  start : Nat
  kind : SlotKind
  dirty : Bool
  flash : Timer
  deriving DecidableEq, Repr

/-- An entry of a bulletin stack (R106). The timer is absent for duration 0. -/
structure BulletinEntry where
  text : List Byte
  timer : Timer
  tapeFlag : Bool
  deriving DecidableEq, Repr

/-! ## Ticker unit (chapter 7) -/

/-- Trade conditions. -/
inductive Condition where
  | regular
  | opening
  | outOfSequence
  deriving DecidableEq, Repr

/-- The items of an offer, and of a PRINT entry (R14, R115). -/
structure Print where
  record : Nat
  symbol : SymbolCode
  price : Nat
  volume : Nat
  time : TimeOfDay
  condition : Condition
  tapeClass : TapeClass
  deriving DecidableEq, Repr

/-- An entry of the ticker queue (R115). -/
inductive TickerEntry where
  | print (p : Print)
  | announce (text : List Byte)
  deriving DecidableEq, Repr

/-- Ticker states (Table 7-1). -/
inductive TickerState where
  | stopped
  | running
  | draining
  deriving DecidableEq, Repr

/-- The ticker unit. `out` is the character of the last step, absent while the output is held blank
with no step strobe (R112). -/
structure Ticker where
  state : TickerState
  queue : List TickerEntry
  level : Nat
  lateMinutes : Nat
  epoch : BitVec 16
  text : List Byte
  cursor : Nat
  separator : Nat
  stepTimer : Timer
  admitted : BitVec 24
  printed : BitVec 24
  merged : BitVec 24
  omitted : BitVec 24
  out : Option Byte
  deriving DecidableEq, Repr

/-! ## Terminal line and watch rows (chapters 8 and 9) -/

/-- Terminal states (Table 8-1). -/
inductive TermState where
  | disabled
  | absent
  | activating
  | active
  | recovery
  deriving DecidableEq, Repr

/-- A watch row: the record it names, or none for EMPTY, with its two sets. -/
structure Row where
  record : Option Nat
  pending : NameSet
  inFlight : NameSet
  deriving DecidableEq, Repr

/-- Request results (below Table 11-10). -/
inductive ResultCode where
  | accepted
  | locked
  | unknown
  | duplicate
  | full
  | emptyRow
  | badRow
  deriving DecidableEq, Repr

/-- The content of a request result slot: the result and the row it carries. -/
structure RequestResult where
  code : ResultCode
  row : Byte
  deriving DecidableEq, Repr

/-- One terminal of the terminal table. The next composition begins at row index `rotation`, which is
row pointer + 1 (R160). -/
structure Terminal where
  enabled : Bool
  lock : Bool
  state : TermState
  nextNumber : BitVec 3
  outstanding : Option (BitVec 3)
  misses : Nat
  probeTimer : Timer
  probeDue : Bool
  resetPending : Bool
  rows : Vector Row 16
  statusPending : Bool
  statusInFlight : Bool
  result : Option RequestResult
  rotation : Fin 16
  deriving DecidableEq, Repr

/-- Primary frames (Table 8-2). -/
inductive PrimaryKind where
  | activate
  | screenInit
  | poll
  | update
  | enquiry
  deriving DecidableEq, Repr

/-- The transaction in flight (R137): the terminal served, the frame sent to it with the line rate
code read at its start (R135), whether it is still being sent, the characters of the response from the
SOH on, the response timeout in ticks read when the timer was started, and the timer. -/
structure Transaction where
  terminal : TermId
  kind : PrimaryKind
  frame : List Byte
  rate : BitVec 16
  sending : Bool
  received : List Byte
  responseTicks : Nat
  timeout : Timer
  deriving DecidableEq, Repr

/-- The terminal line controller. -/
structure TerminalLine where
  terminals : Vector Terminal 32
  pollPointer : TermId
  transaction : Option Transaction
  gap : Timer
  deriving DecidableEq, Repr

/-! ## Management responder (chapter 10) -/

/-- The 15 alerts. -/
inductive Alert where
  | reset
  | feedGap
  | feedLost
  | chainFault (chain : ChainId)
  | chainSense (chain : ChainId)
  | terminalLost
  | tapeLevel
  | tapeOmit
  | replyOverrun
  deriving DecidableEq, Repr

/-- Reset causes. -/
inductive ResetCause where
  | powerOn
  | pin
  | coldCommand
  | warmCommand
  deriving DecidableEq, Repr

/-- An entry of the reply queue (R172): a REPLY with its tag and payload, or the ALERT frame, whose
content is composed at its transmission start. -/
inductive ReturnEntry where
  | reply (tag : BitVec 16) (payload : List Byte)
  | alert
  deriving DecidableEq, Repr

/-- The management responder. `sending` is the frame the return transmitter is sending, from its
SYNC bytes to its CRC, absent while it sends fill. -/
structure Management where
  params : Vector (BitVec 16) 20
  alertStatus : AlertSet
  alertMask : AlertSet
  cause : ResetCause
  replyQueue : List ReturnEntry
  sending : Option (List Byte)
  deriving DecidableEq, Repr

/-- Where the part stands with respect to a cold reset (R174): the reset pin is held, INIT is
running, or the part is in operation. -/
inductive Phase where
  | pinHeld
  | initRunning
  | running
  deriving DecidableEq, Repr

end Sys2Proof.Machine
end

