-- ==== Sys2Proof/Machine/Cold.lean ====
section
/-!
DEFINITION. The cold state of each block, as the reset rules of its chapter give it. Used by
`State.reset` and by the cold resets of `Resets.lean`.
-/

namespace Sys2Proof.Machine

/-- The blank symbol of R1: five blanks. -/
def blankSymbol : SymbolCode := { r0 := 0x20, r1 := 0x20, r2 := 0x20, r3 := 0x20, cls := 0x20 }

/-- The values of an EMPTY record (Table 1-2). -/
def emptyRecord : QuoteRecord :=
  { symbol := blankSymbol, tapeClass := .none, denom := .eighths, prevClose := 0,
    state := .notOpen, last := none, tick := .none, carryTick := .none, netChange := 0,
    high := none, low := none, volume := 0, bid := none, ask := none, lastTime := none,
    stale := false, watch := 0, tapeWhole := none, tapeEpoch := 0 }

/-- HUNT with no bits and no bytes held (R38, R55). -/
def huntReceiver : Receiver :=
  { state := .hunt, aligned := false, window := 0, nbits := 0, length := 0, body := [], crc := 0,
    crcHigh := none }

/-- The feed receiver after a cold reset (R55), with the station address sampled. -/
def coldFeed (station : BitVec 6) : Feed :=
  { rx := huntReceiver, expected := none, gapOwed := false, feedState := .notYet, silence := none,
    station := station }

/-- The time base after a cold reset (R68). -/
def coldTime : TimeBase := { clock := 0, clockSet := false, phaseTicks := 0, session := .closed }

/-- The chain entry that INIT leaves: the clamped values of a cleared entry (R70). -/
def coldChainEntry : ChainEntry :=
  { enabled := false, cellPeriod := 10, settle := 1, keepalive := 1, day := 0, night := 0 }

/-- A chain controller after a cold reset (R71, R89), with the sense level sampled. R89 gives the shadow as
invalid, and no image to it, to the latched stages or to the PWM level of the period in progress: the shadow and
the latched image are empty here, and the level is the cold night brightness, 0 (DESIGN CHOICE, log entry 19). -/
def coldChain (sense : Bool) : Chain :=
  { entry := coldChainEntry, modules := Vector.replicate 64 .endOfList, state := .offline,
    shadow := [], shadowValid := false, resync := false, faultCount := 0,
    firstMismatch := none, senseLevel := sense, senseLatch := false, cycle := none, reload := false,
    resetPending := false, keepaliveTimer := none, settleTimer := none, pwmLevel := 0,
    latched := [] }

/-- The four chain controllers after a cold reset. -/
def coldChains (sense : Vector Bool 4) : Vector Chain 4 := sense.map coldChain

/-- The eight empty bulletin stacks (R111). -/
def coldBulletins : Vector (List BulletinEntry) 8 := Vector.replicate 8 []

/-- The ticker unit after a cold reset (R133). The cursor of an empty text is 0, which the manual does not
state (DESIGN CHOICE, log entry 19). -/
def coldTicker : Ticker :=
  { state := .stopped, queue := [], level := 0, lateMinutes := 0, epoch := 0, text := [],
    cursor := 0, separator := 0, stepTimer := none, admitted := 0, printed := 0, merged := 0,
    omitted := 0, out := none }

/-- An EMPTY row with nothing pending. -/
def coldRow : Row := { record := none, pending := 0, inFlight := 0 }

/-- A terminal after a cold reset (R153, R165). -/
def coldTerminal : Terminal :=
  { enabled := false, lock := false, state := .disabled, nextNumber := 0, outstanding := none,
    misses := 0, probeTimer := none, probeDue := false, resetPending := false,
    rows := Vector.replicate 16 coldRow, statusPending := false, statusInFlight := false,
    result := none, rotation := 0 }

/-- The terminal line controller after a cold reset: the poll pointer is 32, index 31 (R153). -/
def coldLine : TerminalLine :=
  { terminals := Vector.replicate 32 coldTerminal, pollPointer := 31, transaction := none,
    gap := none }

/-- The cold values of the parameter table (Table 10-1). Entry 19 stands for the merged volume cap
and reads FFFFh (R168). -/
def coldParams : Vector (BitVec 16) 20 :=
  #v[0, 0, 0, 0, 0, 30, 5, 60, 40, 60, 180, 300, 600, 30, 100, 3, 100, 10, 500, 0xFFFF]

/-- The management responder in a cold reset, before RESET is set: PARAM cold, nothing queued, no
alert, the mask {RESET} (R174). -/
def coldManagement (cause : ResetCause) : Management :=
  { params := coldParams, alertStatus := 0, alertMask := 1, cause := cause, replyQueue := [],
    sending := none }

end Sys2Proof.Machine
end

