-- ==== Sys2Proof/Machine/State.lean ====
section
/-!
DEFINITION. The state of the UZATEL 2410, the reasons a step can stop, and the state after reset.
-/

namespace Sys2Proof.Machine

/-- Why the part stops with a fault: never. The manual gives every command an effect in every state
(an event that cannot fall leaves the state as it is), and a bad frame is discarded or answered with
a result code. The type has no constructor, so no meaning can end in a fault. -/
inductive Fault where
  deriving DecidableEq, Repr

/-- Why a command has no meaning. -/
inductive Refusal where
  /-- Raised by `exec` alone, for a row of the table that has no meaning yet (safe: the run stops).
  No arm raises it. -/
  | notModelled (mnemonic : String)
  deriving DecidableEq, Repr

/-- Everything the manual gives the part (Table 0-1), and two fields of the model's own: `draws`, the
number of free-value draws made, and `pending`, the commands still waiting, the front first. `load` is
how far the responder is with a LOAD at the head of the intake queue (R167): the number of its entries
applied, absent while no LOAD is under way. -/
structure State where
  phase : Phase
  feed : Feed
  intake : List IntakeEntry
  load : Option Nat
  records : Table QuoteRecord
  directory : List (SymbolCode × Nat)
  time : TimeBase
  chains : Vector Chain 4
  flashClock : FlashClock
  slots : Table Slot
  bulletins : Vector (List BulletinEntry) 8
  ticker : Ticker
  line : TerminalLine
  mgmt : Management
  draws : Nat
  pending : List Instr
  deriving DecidableEq, Repr

/-- The part at the end of the INIT of a power-on reset (R174): every block cold, RESET set and its
ALERT frame queued, the flash clock started (R88). The manual gives the pins no level: the model's
reset samples straps of 0 and four absent chains (DESIGN CHOICE, log entry 1). -/
def State.reset : State :=
  { phase := .running, feed := coldFeed 0, intake := [], load := none,
    records := [], directory := [],
    time := coldTime, chains := coldChains (Vector.replicate 4 false),
    flashClock := { level := false, timer := some 250 }, slots := [], bulletins := coldBulletins,
    ticker := coldTicker, line := coldLine,
    mgmt := { coldManagement .powerOn with alertStatus := 1, replyQueue := [.alert] },
    draws := 0, pending := [] }

end Sys2Proof.Machine
end

