-- ==== Sys2Proof/Machine/Flags.lean ====
section
/-!
DEFINITION. The two kinds of flag sets of the part: change-set names (R12, with the name mask bits of
R177) with the change set of every update, and the alerts with their bits.
-/

namespace Sys2Proof.Machine

/-! ## Names of a change set -/

def nameSymbol : NameSet := 0x001
def nameState : NameSet := 0x002
def nameLast : NameSet := 0x004
def nameChange : NameSet := 0x008
def nameTick : NameSet := 0x010
def nameHigh : NameSet := 0x020
def nameLow : NameSet := 0x040
def nameVolume : NameSet := 0x080
def nameBid : NameSet := 0x100
def nameAsk : NameSet := 0x200
def nameStale : NameSet := 0x400

/-- The further name CLEAR of a pending set (R155). -/
def nameClear : NameSet := 0x800

/-- Every field name, SYMBOL through STALE. -/
def allNames : NameSet := 0x7FF

/-- A name, if its condition holds. -/
def nameIf (condition : Bool) (name : NameSet) : NameSet := if condition then name else 0

/-- Whether two sets share a name. -/
def namesMeet (a b : NameSet) : Bool := a &&& b ≠ 0

/-- The change-set names that alter a board field (Table 2-6). -/
def fieldNames : BoardField → NameSet
  | .symbol => nameSymbol
  | .last => nameLast ||| nameState
  | .change => nameChange ||| nameLast
  | .high => nameHigh
  | .low => nameLow
  | .volume => nameVolume
  | .bid => nameBid
  | .ask => nameAsk

/-- The names of those of STATE, LAST, CHANGE, TICK, HIGH, LOW, VOLUME, BID, ASK whose value differs
between two states of one record. -/
def differingNames (r r' : QuoteRecord) : NameSet :=
  nameIf (r.state != r'.state) nameState ||| nameIf (r.last != r'.last) nameLast
    ||| nameIf (r.netChange != r'.netChange) nameChange ||| nameIf (r.tick != r'.tick) nameTick
    ||| nameIf (r.high != r'.high) nameHigh ||| nameIf (r.low != r'.low) nameLow
    ||| nameIf (r.volume != r'.volume) nameVolume ||| nameIf (r.bid != r'.bid) nameBid
    ||| nameIf (r.ask != r'.ask) nameAsk

/-- Whether a trade of this condition sets the tick and the last price (R13). -/
def setsLast : Condition → Bool
  | .regular => true
  | .opening => true
  | .outOfSequence => false

/-- The change set of a TRADE (R14): what differs, and LAST and TICK in every case for a REGULAR or
OPENING trade. -/
def tradeNames (condition : Condition) (r r' : QuoteRecord) : NameSet :=
  (differingNames r r' &&& (nameVolume ||| nameHigh ||| nameLow ||| nameState))
    ||| nameIf (setsLast condition)
      (nameLast ||| nameTick ||| (differingNames r r' &&& nameChange))

/-- The change set of a QUOTE (R16). -/
def quoteNames (r r' : QuoteRecord) : NameSet := differingNames r r' &&& (nameBid ||| nameAsk)

/-- The change set of a RECAP (R18): what differs, STALE if the mark was cleared, and LAST when the
previous close changed and the record is NOT_OPEN after it. -/
def recapNames (r r' : QuoteRecord) : NameSet :=
  differingNames r r' ||| nameIf (r.stale && !r'.stale) nameStale
    ||| nameIf (r.prevClose != r'.prevClose && r'.state == .notOpen) nameLast

/-- The change set of a static update (R11). -/
def staticNames (r r' : QuoteRecord) : NameSet :=
  nameIf (r.denom != r'.denom)
      (nameLast ||| nameChange ||| nameHigh ||| nameLow ||| nameBid ||| nameAsk)
    ||| (differingNames r r' &&& nameChange)
    ||| nameIf (r.prevClose != r'.prevClose && r'.state == .notOpen) nameLast

/-! ## Alerts -/

/-- The bit of an alert in a status or mask (below Table 11-6). -/
def alertIndex : Alert → Nat
  | .reset => 0
  | .feedGap => 1
  | .feedLost => 2
  | .chainFault c => 3 + c.val
  | .chainSense c => 7 + c.val
  | .terminalLost => 11
  | .tapeLevel => 12
  | .tapeOmit => 13
  | .replyOverrun => 14

/-- The set of one alert. -/
def alertBit (a : Alert) : AlertSet := 1#15 <<< alertIndex a

/-- Whether a set holds an alert. -/
def alertIn (a : Alert) (m : AlertSet) : Bool := m.getLsbD (alertIndex a)

/-- A received mask word: bit 15 names no alert and is ignored (R171). -/
def alertsOfWord (w : BitVec 16) : AlertSet := w.truncate 15

/-- The status or mask as a 16-bit word. -/
def alertsWord (m : AlertSet) : BitVec 16 := m.zeroExtend 16

end Sys2Proof.Machine
end

