-- ==== Sys2Proof/Machine/Ops.lean ====
section
/-!
DEFINITION. The shared operations over the state: field updates, numbered tables, bytes and the CRC,
timers, alerts and the reply queue.
-/

namespace Sys2Proof.Machine

/-! ## Field updates of the state -/

def State.setPhase (s : State) (x : Phase) : State := { s with phase := x }
def State.setFeed (s : State) (x : Feed) : State := { s with feed := x }
def State.setIntake (s : State) (x : List IntakeEntry) : State := { s with intake := x }
def State.setLoad (s : State) (x : Option Nat) : State := { s with load := x }
def State.setRecords (s : State) (x : Table QuoteRecord) : State := { s with records := x }
def State.setDirectory (s : State) (x : List (SymbolCode × Nat)) : State := { s with directory := x }
def State.setTime (s : State) (x : TimeBase) : State := { s with time := x }
def State.setChains (s : State) (x : Vector Chain 4) : State := { s with chains := x }
def State.setFlashClock (s : State) (x : FlashClock) : State := { s with flashClock := x }
def State.setSlots (s : State) (x : Table Slot) : State := { s with slots := x }
def State.setBulletins (s : State) (x : Vector (List BulletinEntry) 8) : State :=
  { s with bulletins := x }
def State.setTicker (s : State) (x : Ticker) : State := { s with ticker := x }
def State.setLine (s : State) (x : TerminalLine) : State := { s with line := x }
def State.setMgmt (s : State) (x : Management) : State := { s with mgmt := x }
def State.setDraws (s : State) (x : Nat) : State := { s with draws := x }
def State.setPending (s : State) (x : List Instr) : State := { s with pending := x }

/-- One chain controller replaced. -/
def State.setChain (s : State) (c : ChainId) (x : Chain) : State := s.setChains (s.chains.set c x)

/-- One terminal replaced. -/
def State.setTerm (s : State) (t : TermId) (x : Terminal) : State :=
  s.setLine { s.line with terminals := s.line.terminals.set t x }

/-- One bulletin stack replaced. -/
def State.setStack (s : State) (k : StackId) (x : List BulletinEntry) : State :=
  s.setBulletins (s.bulletins.set k x)

/-! ## Numbered tables -/

/-- The entry of a table, absent where the table is EMPTY. -/
def tableGet {α : Type} : Table α → Nat → Option α
  | [], _ => none
  | (k, v) :: rest, n => if k = n then some v else tableGet rest n

/-- A table with one entry written, kept in rising order. -/
def tableSet {α : Type} : Table α → Nat → α → Table α
  | [], n, x => [(n, x)]
  | (k, v) :: rest, n, x =>
    if n < k then (n, x) :: (k, v) :: rest
    else if n = k then (n, x) :: rest
    else (k, v) :: tableSet rest n x

/-- A table with one entry made EMPTY. -/
def tableErase {α : Type} (t : Table α) (n : Nat) : Table α := t.filter (fun e => e.1 ≠ n)

/-- The canonical form: numbers strictly rising, and below the table's size. -/
abbrev tableWf {α : Type} (size : Nat) (t : Table α) : Prop :=
  (t.map Prod.fst).Pairwise (· < ·) ∧ ∀ k ∈ t.map Prod.fst, k < size

/-! ## Bytes -/

/-- The byte at an offset of a payload, as a number. -/
def at8 (p : List Byte) (i : Nat) : Nat := (p.getD i 0).toNat

/-- The two-byte number at an offset, high byte first (R176). -/
def at16 (p : List Byte) (i : Nat) : Nat := at8 p i * 256 + at8 p (i + 1)

/-- The four-byte number at an offset, high byte first (R176). -/
def at32 (p : List Byte) (i : Nat) : Nat := at16 p i * 65536 + at16 p (i + 2)

/-- One byte of a number. -/
def byteOf (n : Nat) : Byte := BitVec.ofNat 8 n

/-- Two, three and four bytes of a number, high byte first (R176). -/
def bytes2 (n : Nat) : List Byte := [byteOf (n / 256), byteOf n]
def bytes3 (n : Nat) : List Byte := byteOf (n / 65536) :: bytes2 n
def bytes4 (n : Nat) : List Byte := byteOf (n / 16777216) :: bytes3 n

/-- A flag byte, 00h or 01h. -/
def flagByte (b : Bool) : Byte := if b then 1 else 0

/-! ## The CRC of R40 -/

/-- One bit entered into the CRC register. -/
def crcBit (crc : BitVec 16) (bit : Bool) : BitVec 16 :=
  if (crc.msb ^^ bit) then (crc <<< 1) ^^^ 0x1021 else crc <<< 1

/-- The bits of a byte, most significant first. -/
def bitsOf (b : Byte) : List Bool :=
  [b.getLsbD 7, b.getLsbD 6, b.getLsbD 5, b.getLsbD 4, b.getLsbD 3, b.getLsbD 2, b.getLsbD 1,
    b.getLsbD 0]

/-- The byte that eight bits spell, most significant first. -/
def byteOfBits (bits : List Bool) : Byte :=
  bits.foldl (fun b x => b <<< 1 ||| (if x then 1 else 0)) 0

/-- The stages that a run of bits spells, eight bits a stage, most significant first (R178). A stage
whose bits are not all there has not come. -/
def stagesOf : List Bool → List Byte
  | a :: b :: c :: d :: e :: f :: g :: h :: rest =>
    byteOfBits [a, b, c, d, e, f, g, h] :: stagesOf rest
  | _ => []

/-- One byte entered into the CRC register. -/
def crcByte (crc : BitVec 16) (b : Byte) : BitVec 16 := (bitsOf b).foldl crcBit crc

/-- The CRC of a run of bytes, from the preset FFFFh. -/
def crcOf (bytes : List Byte) : BitVec 16 := bytes.foldl crcByte 0xFFFF

/-- The high and the low byte of a 16-bit word, in sending order. -/
def wordBytes (w : BitVec 16) : List Byte := [w.extractLsb' 8 8, w.extractLsb' 0 8]

/-! ## Timers (R58) -/

/-- A timer started with n ticks. -/
def startTimer (n : Nat) : Timer := some n

/-- A running timer after one interval tick. -/
def countDown (t : Timer) : Timer := t.map (· - 1)

/-- Whether the tick just counted was the timer's last. -/
def timerDue (t : Timer) : Bool := t == some 0

/-- Whether a timer is running; only a running timer expires. -/
def timerRuns (t : Timer) : Bool := t.isSome

/-! ## Parameters (Table 10-1) -/

/-- The value of a parameter. -/
def param (s : State) (i : Fin 20) : Nat := (s.mgmt.params[i]).toNat

/-! ## Alerts and the reply queue (R172, R173) -/

/-- Whether an ALERT frame stands in the reply queue. -/
def alertWaits (q : List ReturnEntry) : Bool := q.contains .alert

/-- The number of REPLY frames in the reply queue. -/
def repliesWaiting (q : List ReturnEntry) : Nat := q.countP (· != .alert)

/-- An ALERT frame queued unless one waits (R173). -/
def queueAlert (m : Management) : Management :=
  if alertWaits m.replyQueue then m else { m with replyQueue := m.replyQueue ++ [.alert] }

/-- An alert set at the responder: sticky, with an ALERT frame when it becomes set and is in the mask
(R173). -/
def alertSet (a : Alert) (m : Management) : Management :=
  if alertIn a m.alertStatus then m
  else
    let m' := { m with alertStatus := m.alertStatus ||| alertBit a }
    if alertIn a m.alertMask then queueAlert m' else m'

/-- An alert set by its owner. -/
def raiseAlert (a : Alert) (s : State) : State := s.setMgmt (alertSet a s.mgmt)

/-- A REPLY queued at the tail, or dropped with REPLY OVERRUN when 4 wait (R172). -/
def queueReply (tag : BitVec 16) (payload : List Byte) (s : State) : State :=
  if repliesWaiting s.mgmt.replyQueue < 4 then
    s.setMgmt { s.mgmt with replyQueue := s.mgmt.replyQueue ++ [.reply tag payload] }
  else raiseAlert .replyOverrun s

end Sys2Proof.Machine
end

