-- ==== Sys2Proof/Machine/Rendering.lean ====
section
/-!
DEFINITION. Price arithmetic and the texts of chapter 2: price fields of frames, rounding to the
display fraction, board field texts, and the parts of a tape print. Texts are lists of codes of the
character code set (Table 11-11).
-/

namespace Sys2Proof.Machine

/-! ## Price fields (R23) -/

/-- A price field as received: failed, absent (FFFFh), or a number of price units. -/
inductive PriceField where
  | failed
  | absent
  | units (p : Nat)
  deriving DecidableEq, Repr

/-- The conversion of a price field: whole part, denominator code, numerator. -/
def priceField (whole code numerator : Nat) : PriceField :=
  if whole = 0xFFFF then .absent
  else if whole ≤ 9999 ∧ 1 ≤ code ∧ code ≤ 8 ∧ numerator < 2 ^ code then
    .units (whole * 256 + numerator * (256 / 2 ^ code))
  else .failed

/-- A price where absence is allowed: the outer option is absent for a failed field. -/
def PriceField.optional : PriceField → Option (Option Nat)
  | .failed => none
  | .absent => some none
  | .units p => some (some p)

/-- A price where absence is not allowed. -/
def PriceField.required : PriceField → Option Nat
  | .failed => none
  | .absent => none
  | .units p => some p

/-! ## Rounding (R24, R25) -/

/-- The display denominator d. -/
def denomValue : Denom → Nat
  | .eighths => 8
  | .sixteenths => 16

/-- s = 256 / d. -/
def denomStep (d : Denom) : Nat := 256 / denomValue d

/-- q of R24: the magnitude in units of 1/d dollar, half rounded away from zero. -/
def roundUnits (d : Denom) (magnitude : Nat) : Nat :=
  (magnitude + denomStep d / 2) / denomStep d

/-- The rounded whole part. -/
def roundWhole (d : Denom) (magnitude : Nat) : Nat := roundUnits d magnitude / denomValue d

/-- The rounded numerator. -/
def roundNumerator (d : Denom) (magnitude : Nat) : Nat := roundUnits d magnitude % denomValue d

/-- Both parts of a fraction halved while the numerator is even and not zero (R25); four halvings
are the most a denominator of 16 allows. -/
def halveFraction : Nat → Nat × Nat → Nat × Nat
  | 0, f => f
  | k + 1, (n, d) => if n ≠ 0 ∧ n % 2 = 0 then halveFraction k (n / 2, d / 2) else (n, d)

/-- The glyph of a rounded numerator over d: its reduced fraction's value in sixteenths (R25). -/
def glyphOf (d : Denom) (numerator : Nat) : Byte :=
  let f := halveFraction 4 (numerator, denomValue d)
  byteOf (f.1 * (16 / f.2))

/-! ## Characters -/

def chBlank : Byte := 0x20
def chPlus : Byte := 0x2B
def chMinus : Byte := 0x2D
def chDot : Byte := 0x2E
def chColon : Byte := 0x3A
def chLess : Byte := 0x3C
def chGreater : Byte := 0x3E
def chSmallS : Byte := 0x73

/-- The character of a decimal digit. -/
def digitChar (n : Nat) : Byte := byteOf (0x30 + n)

/-- Decimal digits with `fuel` digits at most. -/
def digitsFuel : Nat → Nat → List Byte
  | 0, _ => []
  | k + 1, n => if n < 10 then [digitChar n] else digitsFuel k (n / 10) ++ [digitChar (n % 10)]

/-- A number in decimal digits without leading zeros. -/
def digits (n : Nat) : List Byte := digitsFuel (n + 1) n

/-- Two decimal digits with a leading zero. -/
def twoDigits (n : Nat) : List Byte := [digitChar (n / 10 % 10), digitChar (n % 10)]

/-- Right-justified in n cells with blanks to the left. -/
def padLeft (n : Nat) (text : List Byte) : List Byte :=
  List.replicate (n - text.length) chBlank ++ text

/-- Left-justified in n cells with blanks after it, cut to the first n (R103, R105). -/
def padRight (n : Nat) (text : List Byte) : List Byte :=
  text.take n ++ List.replicate (n - text.length) chBlank

def blanks (n : Nat) : List Byte := List.replicate n chBlank

/-- "HALT" -/
def textHalt : List Byte := [0x48, 0x41, 0x4C, 0x54]
/-- "UNCH" -/
def textUnch : List Byte := [0x55, 0x4E, 0x43, 0x48]
/-- "OPD " -/
def textOpd : List Byte := [0x4F, 0x50, 0x44, 0x20]
/-- " SLD" -/
def textSld : List Byte := [0x20, 0x53, 0x4C, 0x44]
/-- "SHS" -/
def textShs : List Byte := [0x53, 0x48, 0x53]
/-- " HALTED" -/
def textHalted : List Byte := [0x20, 0x48, 0x41, 0x4C, 0x54, 0x45, 0x44]
/-- " RESUMED" -/
def textResumed : List Byte := [0x20, 0x52, 0x45, 0x53, 0x55, 0x4D, 0x45, 0x44]
/-- "FEED LOST" -/
def textFeedLost : List Byte := [0x46, 0x45, 0x45, 0x44, 0x20, 0x4C, 0x4F, 0x53, 0x54]
/-- "MARKET " -/
def textMarket : List Byte := [0x4D, 0x41, 0x52, 0x4B, 0x45, 0x54, 0x20]
/-- "MARKET HALTED" -/
def textMarketHalted : List Byte := textMarket ++ [0x48, 0x41, 0x4C, 0x54, 0x45, 0x44]
/-- "MARKET CLOSED" -/
def textMarketClosed : List Byte := textMarket ++ [0x43, 0x4C, 0x4F, 0x53, 0x45, 0x44]
/-- "PRE-OPENING" -/
def textPreOpening : List Byte :=
  [0x50, 0x52, 0x45, 0x2D, 0x4F, 0x50, 0x45, 0x4E, 0x49, 0x4E, 0x47]
/-- "TAPE LATE" -/
def textTapeLate : List Byte := [0x54, 0x41, 0x50, 0x45, 0x20, 0x4C, 0x41, 0x54, 0x45]
/-- " MIN" -/
def textMin : List Byte := [0x20, 0x4D, 0x49, 0x4E]
/-- "TAPE CURRENT" -/
def textTapeCurrent : List Byte :=
  [0x54, 0x41, 0x50, 0x45, 0x20, 0x43, 0x55, 0x52, 0x52, 0x45, 0x4E, 0x54]
/-- "FEED INTERRUPTED" -/
def textFeedInterrupted : List Byte :=
  [0x46, 0x45, 0x45, 0x44, 0x20, 0x49, 0x4E, 0x54, 0x45, 0x52, 0x52, 0x55, 0x50, 0x54, 0x45, 0x44]
/-- "--:--" -/
def textClockUnset : List Byte := [0x2D, 0x2D, 0x3A, 0x2D, 0x2D]

/-- "TAPE LATE n MIN" (R103, R122). -/
def textTapeLateMinutes (n : Nat) : List Byte :=
  textTapeLate ++ [chBlank] ++ digits n ++ textMin

/-! ## Board fields (R26 to R32) -/

/-- The fraction cell: the glyph, or a blank for a numerator of 0 (R25). -/
def fractionCell (d : Denom) (numerator : Nat) : Byte :=
  if numerator = 0 then chBlank else glyphOf d numerator

/-- The glyph (d − 1)/d of a saturated field (R27, R30). -/
def topGlyph (d : Denom) : Byte := glyphOf d (denomValue d - 1)

/-- A price shown in five cells (R26, R27). -/
def priceCells (d : Denom) (price : Nat) : List Byte :=
  let whole := roundWhole d price
  let numerator := roundNumerator d price
  if 9999 < whole then digits 9999 ++ [topGlyph d]
  else if whole = 0 ∧ numerator ≠ 0 then blanks 4 ++ [glyphOf d numerator]
  else padLeft 4 (digits whole) ++ [fractionCell d numerator]

/-- An optional price in five cells; an absent price shows five blanks (R26). -/
def optionalPriceCells (d : Denom) : Option Nat → List Byte
  | none => blanks 5
  | some p => priceCells d p

/-- The LAST field under the overlays of the trading state (R28). -/
def lastCells (r : QuoteRecord) : List Byte :=
  match r.state with
  | .halted => textHalt ++ [chBlank]
  | .notOpen => priceCells r.denom r.prevClose
  | .trading => optionalPriceCells r.denom r.last

/-- The CHANGE field (R29, R30). -/
def changeCells (r : QuoteRecord) : List Byte :=
  let m := r.netChange.natAbs
  let whole := roundWhole r.denom m
  let numerator := roundNumerator r.denom m
  match r.last with
  | none => blanks 5
  | some _ =>
    if roundUnits r.denom m = 0 then textUnch ++ [chBlank]
    else if 999 < whole then
      [if 0 < r.netChange then chGreater else chLess] ++ digits 999 ++ [topGlyph r.denom]
    else
      [if 0 < r.netChange then chPlus else chMinus]
        ++ (if whole = 0 then blanks 3 else padLeft 3 (digits whole))
        ++ [fractionCell r.denom numerator]

/-- The VOLUME field (R31). -/
def volumeCells (volume : Nat) : List Byte :=
  padLeft 6 (digits (min ((volume + 500) / 1000) 999999))

/-- The SYMBOL field (R32). A blank class letter is a blank cell. -/
def symbolCells (c : SymbolCode) : List Byte := [c.r0, c.r1, c.r2, c.r3, c.cls]

/-- The text of one field of a QUOTE slot (R100). -/
def fieldCells (r : QuoteRecord) : BoardField → List Byte
  | .symbol => symbolCells r.symbol
  | .last => lastCells r
  | .change => changeCells r
  | .high => optionalPriceCells r.denom r.high
  | .low => optionalPriceCells r.denom r.low
  | .volume => volumeCells r.volume
  | .bid => optionalPriceCells r.denom r.bid
  | .ask => optionalPriceCells r.denom r.ask

/-- The width of a field in cells (R92). -/
def fieldWidth : BoardField → Nat
  | .volume => 6
  | .symbol => 5
  | .last => 5
  | .change => 5
  | .high => 5
  | .low => 5
  | .bid => 5
  | .ask => 5

/-! ## Tape texts (R35 to R37) -/

/-- The tape form of a symbol code (R35). -/
def tapeSymbol (c : SymbolCode) : List Byte :=
  [c.r0, c.r1, c.r2, c.r3].filter (· ≠ chBlank)
    ++ (if c.cls = chBlank then [] else [chDot, c.cls])

/-- The tape whole of a print: its rounded whole part, at most 9999 (R35, R127). -/
def tapeWholeOf (d : Denom) (price : Nat) : Nat := min (roundWhole d price) 9999

/-- The fraction part of the tape price: the glyph, or nothing (R35). -/
def tapeFraction (d : Denom) (price : Nat) : List Byte :=
  if 9999 < roundWhole d price then [topGlyph d]
  else if roundNumerator d price = 0 then [] else [glyphOf d (roundNumerator d price)]

/-- The tape price with its whole part in full, or replaced by its last digit (R35, R126). A whole part
of 0 with a fraction is the glyph alone in both forms. -/
def tapePrice (d : Denom) (price : Nat) (shortened : Bool) : List Byte :=
  let whole := tapeWholeOf d price
  let fraction := tapeFraction d price
  let shown := if shortened then whole % 10 else whole
  if whole = 0 ∧ fraction ≠ [] then fraction else digits shown ++ fraction

/-- The volume part of a print (R36). -/
def volumePart (v : Nat) : List Byte :=
  if 10000 ≤ v then digits v ++ textShs
  else if v / 100 = 1 then []
  else digits (v / 100) ++ [chSmallS]

/-- The text of a print (R37), with the volume part given (empty where R125 leaves it out) and the
tape price given. -/
def printText (p : Print) (volume price : List Byte) : List Byte :=
  tapeSymbol p.symbol ++ [chBlank]
    ++ (if p.condition = .opening then textOpd else [])
    ++ (if volume = [] then [] else volume ++ [chBlank])
    ++ price
    ++ (if p.condition = .outOfSequence then textSld else [])

end Sys2Proof.Machine
end

