-- ==== Sys2Proof/Machine/Operands.lean ====
section
/-!
DEFINITION. The operand forms: the frames of the feed line with their payloads and table entries, and
the response frames of the terminal line (chapter 11). A payload that its rule calls malformed, an
entry that is refused for its values alone, and a bad response read as none.
-/

namespace Sys2Proof.Machine

/-! ## Items -/

/-- A letter A to Z. -/
def isLetter (b : Byte) : Bool := 0x41 ≤ b.toNat && b.toNat ≤ 0x5A

/-- A letter or a blank. -/
def letterOrBlank (b : Byte) : Bool := isLetter b || b == chBlank

/-- R1: a well-formed symbol code. -/
def symbolWellFormed (c : SymbolCode) : Bool :=
  letterOrBlank c.r0 && letterOrBlank c.r1 && letterOrBlank c.r2 && letterOrBlank c.r3
    && (isLetter c.r0 || !isLetter c.r1) && (isLetter c.r1 || !isLetter c.r2)
    && (isLetter c.r2 || !isLetter c.r3)
    && letterOrBlank c.cls
    && (isLetter c.r0 || isLetter c.r1 || isLetter c.r2 || isLetter c.r3 || c == blankSymbol)

/-- The place of a symbol code in the order of R2: its five bytes as one number, root first. -/
def symbolKey (c : SymbolCode) : Nat :=
  (((c.r0.toNat * 256 + c.r1.toNat) * 256 + c.r2.toNat) * 256 + c.r3.toNat) * 256 + c.cls.toNat

/-- The symbol code at an offset of a payload. -/
def symbolAt (p : List Byte) (i : Nat) : SymbolCode :=
  { r0 := p.getD i 0, r1 := p.getD (i + 1) 0, r2 := p.getD (i + 2) 0, r3 := p.getD (i + 3) 0,
    cls := p.getD (i + 4) 0 }

/-- The symbol code at an offset, if well formed (R1). -/
def goodSymbolAt (p : List Byte) (i : Nat) : Option SymbolCode :=
  if symbolWellFormed (symbolAt p i) then some (symbolAt p i) else none

/-- The price field at an offset (R176). -/
def priceAt (p : List Byte) (i : Nat) : PriceField :=
  priceField (at16 p i) (at8 p (i + 2)) (at8 p (i + 3))

/-- The time at an offset, if in range. -/
def timeAt (p : List Byte) (i : Nat) : Option TimeOfDay :=
  if at8 p i ≤ 23 ∧ at8 p (i + 1) ≤ 59 ∧ at8 p (i + 2) ≤ 59 then
    some { hour := at8 p i, minute := at8 p (i + 1), second := at8 p (i + 2) }
  else none

/-- Codes of Table 11-3. -/
def conditionOfCode : Nat → Option Condition
  | 0 => some .regular
  | 1 => some .opening
  | 2 => some .outOfSequence
  | _ => none

def tradingStateOfCode : Nat → Option TradingState
  | 0 => some .notOpen
  | 1 => some .trading
  | 2 => some .halted
  | _ => none

def tickOfCode : Nat → Option Tick
  | 0 => some .none
  | 1 => some .up
  | 2 => some .down
  | 3 => some .zeroPlus
  | 4 => some .zeroMinus
  | _ => none

def tapeClassOfCode : Nat → Option TapeClass
  | 0 => some .none
  | 1 => some .a
  | 2 => some .b
  | _ => none

def denomOfCode : Nat → Option Denom
  | 8 => some .eighths
  | 16 => some .sixteenths
  | _ => none

def chainOfCode (n : Nat) : Option ChainId := if h : n < 4 then some ⟨n, h⟩ else none

def conditionCode : Condition → Byte
  | .regular => 0
  | .opening => 1
  | .outOfSequence => 2

def tradingStateCode : TradingState → Byte
  | .notOpen => 0
  | .trading => 1
  | .halted => 2

def tickCode : Tick → Byte
  | .none => 0
  | .up => 1
  | .down => 2
  | .zeroPlus => 3
  | .zeroMinus => 4

def tapeClassCode : TapeClass → Byte
  | .none => 0
  | .a => 1
  | .b => 2

def denomCode : Denom → Byte
  | .eighths => 8
  | .sixteenths => 16

def sessionCode : SessionState → Byte
  | .closed => 0
  | .preOpen => 1
  | .openMarket => 2
  | .haltedAll => 3

def feedStateCode : FeedState → Byte
  | .notYet => 0
  | .running => 1
  | .lost => 2

/-- Whether a byte is in the character code set (Table 11-11). -/
def isCharCode (b : Byte) : Bool :=
  let n := b.toNat
  (0x01 ≤ n && n ≤ 0x0F) || n == 0x20 || n == 0x2A || n == 0x2B || n == 0x2D || n == 0x2E
    || (0x30 ≤ n && n ≤ 0x3A) || n == 0x3C || n == 0x3E || (0x41 ≤ n && n ≤ 0x5A) || n == 0x73

/-! ## The body of a feed frame (Table 11-1) -/

def destGroup (body : List Byte) : Byte := body.getD 0 0
def destStation (body : List Byte) : Byte := body.getD 1 0
def frameType (body : List Byte) : Nat := at8 body 2

/-- The SEQ/TAG field. -/
def seqTag (body : List Byte) : BitVec 16 := BitVec.ofNat 16 (at16 body 3)

/-- The payload: what follows the five header bytes. -/
def payload (body : List Byte) : List Byte := body.drop 5

/-! ## Market data payloads (Table 11-2, Table 3-4) -/

structure TradeItems where
  symbol : SymbolCode
  price : Nat
  volume : Nat
  time : TimeOfDay
  condition : Condition
  deriving DecidableEq, Repr

/-- A TRADE payload. -/
def tradeItems (p : List Byte) : Option TradeItems :=
  if p.length = 17 then
    match goodSymbolAt p 0, (priceAt p 5).required, timeAt p 13, conditionOfCode (at8 p 16) with
    | some symbol, some price, some time, some condition =>
      if 1 ≤ at32 p 9 ∧ at32 p 9 ≤ 9999999 then
        some { symbol, price, volume := at32 p 9, time, condition }
      else none
    | _, _, _, _ => none
  else none

structure QuoteItems where
  symbol : SymbolCode
  bid : Option Nat
  ask : Option Nat
  deriving DecidableEq, Repr

/-- A QUOTE payload. -/
def quoteItems (p : List Byte) : Option QuoteItems :=
  if p.length = 13 then
    match goodSymbolAt p 0, (priceAt p 5).optional, (priceAt p 9).optional with
    | some symbol, some bid, some ask => some { symbol, bid, ask }
    | _, _, _ => none
  else none

structure SymbolStateItems where
  symbol : SymbolCode
  halt : Bool
  deriving DecidableEq, Repr

/-- A SYMBOL STATE payload: HALT, or else RESUME. -/
def symbolStateItems (p : List Byte) : Option SymbolStateItems :=
  if p.length = 6 then
    match goodSymbolAt p 0 with
    | some symbol =>
      if at8 p 5 = 1 then some { symbol, halt := true }
      else if at8 p 5 = 2 then some { symbol, halt := false }
      else none
    | none => none
  else none

structure RecapItems where
  symbol : SymbolCode
  state : TradingState
  prevClose : Nat
  last : Option Nat
  tick : Tick
  high : Option Nat
  low : Option Nat
  volume : Nat
  bid : Option Nat
  ask : Option Nat
  deriving DecidableEq, Repr

/-- A RECAP payload. -/
def recapItems (p : List Byte) : Option RecapItems :=
  if p.length = 35 then
    match goodSymbolAt p 0, tradingStateOfCode (at8 p 5), (priceAt p 6).required,
      (priceAt p 10).optional, tickOfCode (at8 p 14) with
    | some symbol, some state, some prevClose, some last, some tick =>
      match (priceAt p 15).optional, (priceAt p 19).optional, (priceAt p 27).optional,
        (priceAt p 31).optional with
      | some high, some low, some bid, some ask =>
        if at32 p 23 ≤ 999999999 then
          some { symbol, state, prevClose, last, tick, high, low, volume := at32 p 23, bid, ask }
        else none
      | _, _, _, _ => none
    | _, _, _, _, _ => none
  else none

/-- A CLOCK payload. -/
def clockItems (p : List Byte) : Option TimeOfDay := if p.length = 3 then timeAt p 0 else none

/-- The codes of a SESSION frame (R62). -/
inductive SessionCode where
  | preOpen
  | openMarket
  | haltAll
  | resumeAll
  | close
  deriving DecidableEq, Repr

/-- A SESSION payload. -/
def sessionItems (p : List Byte) : Option SessionCode :=
  if p.length = 1 then
    match at8 p 0 with
    | 1 => some .preOpen
    | 2 => some .openMarket
    | 3 => some .haltAll
    | 4 => some .resumeAll
    | 5 => some .close
    | _ => none
  else none

structure BulletinItems where
  stack : StackId
  duration : Nat
  tapeFlag : Bool
  text : List Byte
  deriving DecidableEq, Repr

/-- A BULLETIN payload, its action apart: every item is checked whatever the action (R107, R108). -/
def bulletinItems (p : List Byte) : Option BulletinItems :=
  let n := at8 p 5
  let text := p.drop 6
  if h : at8 p 0 < 8 then
    if 6 ≤ p.length ∧ p.length = 6 + n ∧ n ≤ 32 ∧ 1 ≤ at8 p 1 ∧ at8 p 1 ≤ 3 ∧ at16 p 2 ≤ 3600
        ∧ at8 p 4 ≤ 1 ∧ text.all isCharCode then
      some { stack := ⟨at8 p 0, h⟩, duration := at16 p 2, tapeFlag := at8 p 4 == 1, text }
    else none
  else none

/-! ## Which step a frame calls for -/

/-- The steps that apply the head entry of the intake queue. -/
inductive FrameStep where
  | trade
  | quote
  | symbolState
  | recap
  | clock
  | session
  | bulletinPush
  | bulletinPop
  | bulletinClear
  | loadParam
  | loadSymbol
  | loadSlot
  | loadChain
  | loadModule
  | loadTerminal
  | read
  | report
  | clearAlerts
  | setMask
  | chainReset
  | terminalReset
  | tickerFlush
  | resetCold
  | resetWarm
  | refused
  | none
  deriving DecidableEq, Repr

/-- A BULLETIN frame by its action; one whose action names neither POP nor CLEAR is taken by
BULLETIN_PUSH, which discards it if it is malformed (log entry 9). -/
def bulletinStep (p : List Byte) : FrameStep :=
  if at8 p 1 = 2 then .bulletinPop else if at8 p 1 = 3 then .bulletinClear else .bulletinPush

/-- A LOAD by its table; too short for its header, or of no loadable table: refused (R167). -/
def loadStep (p : List Byte) : FrameStep :=
  if p.length < 5 then .refused
  else match at8 p 0 with
    | 1 => .loadParam
    | 2 => .loadSymbol
    | 3 => .loadSlot
    | 4 => .loadChain
    | 5 => .loadModule
    | 6 => .loadTerminal
    | _ => .refused

/-- A READ: refused when too short, or when it names no table (R169). -/
def readStep (p : List Byte) : FrameStep :=
  if 5 ≤ p.length ∧ 1 ≤ at8 p 0 ∧ at8 p 0 ≤ 8 then .read else .refused

/-- A CONTROL by its action (R171). -/
def controlStep (p : List Byte) : FrameStep :=
  if p.length < 1 then .refused
  else match at8 p 0 with
    | 1 => .clearAlerts
    | 2 => .setMask
    | 3 => .chainReset
    | 4 => .terminalReset
    | 5 => .tickerFlush
    | _ => .refused

/-- A RESET by its kind; refused when its payload is not one byte or its kind is unknown (R175). -/
def resetStep (p : List Byte) : FrameStep :=
  if p.length = 1 then
    match at8 p 0 with
    | 1 => .resetCold
    | 2 => .resetWarm
    | _ => .refused
  else .refused

/-- The step a frame calls for, by its TYPE (R45, R50). -/
def frameStep (body : List Byte) : FrameStep :=
  match frameType body with
  | 0x21 => .trade
  | 0x22 => .quote
  | 0x23 => .symbolState
  | 0x24 => .recap
  | 0x25 => .clock
  | 0x26 => .session
  | 0x27 => bulletinStep (payload body)
  | 0x41 => loadStep (payload body)
  | 0x42 => readStep (payload body)
  | 0x43 => .report
  | 0x44 => controlStep (payload body)
  | 0x45 => resetStep (payload body)
  | _ => .none

/-! ## Table entries (Table 11-7) -/

structure SymbolEntry where
  symbol : SymbolCode
  tapeClass : TapeClass
  denom : Denom
  prevClose : Nat
  deriving DecidableEq, Repr

/-- A SYMBOL entry, or none where R7 refuses its items. -/
def symbolEntry (e : List Byte) : Option SymbolEntry :=
  match goodSymbolAt e 0, tapeClassOfCode (at8 e 5), denomOfCode (at8 e 6),
    (priceAt e 7).required with
  | some symbol, some tapeClass, some denom, some prevClose =>
    some { symbol, tapeClass, denom, prevClose }
  | _, _, _, _ => none

def boardFieldOfCode : Nat → Option BoardField
  | 1 => some .symbol
  | 2 => some .last
  | 3 => some .change
  | 4 => some .high
  | 5 => some .low
  | 6 => some .volume
  | 7 => some .bid
  | 8 => some .ask
  | _ => none

def boardFieldCode : BoardField → Byte
  | .symbol => 1
  | .last => 2
  | .change => 3
  | .high => 4
  | .low => 5
  | .volume => 6
  | .bid => 7
  | .ask => 8

/-- The field list of a QUOTE slot entry: the codes before the first 00h (R177). -/
def fieldListAt (e : List Byte) : Option (List BoardField) :=
  (((e.drop 6).take 6).takeWhile (· ≠ 0)).mapM (fun b => boardFieldOfCode b.toNat)

/-- The width of a QUOTE slot's span (R92). -/
def quoteWidth (fields : List BoardField) (gap : Nat) : Nat :=
  (fields.map fieldWidth).sum + gap * (fields.length - 1)

/-- The width of a slot's span (Table 6-1). -/
def spanWidth : SlotKind → Nat
  | .quote _ fields gap _ _ => quoteWidth fields gap
  | .message width _ => width
  | .clock => 5
  | .status => 16

/-- The lamp cell a slot claims. -/
def lampOf : SlotKind → Option Nat
  | .quote _ _ _ lamp _ => lamp
  | .message _ _ => none
  | .clock => none
  | .status => none

/-- The lamp cell item: FFh none, or 0 to 63; the outer option is absent for any other value. -/
def lampItem (n : Nat) : Option (Option Nat) :=
  if n = 0xFF then some none else if n < 64 then some (some n) else none

/-- The kind items of a SLOT entry that is not EMPTY, or none where R93 refuses them. -/
def slotKindAt (e : List Byte) : Option SlotKind :=
  match at8 e 0 with
  | 1 =>
    match fieldListAt e, lampItem (at8 e 13) with
    | some fields, some lamp =>
      if at16 e 4 ≤ 511 ∧ 1 ≤ fields.length ∧ fields.length ≤ 6 ∧ fields.Nodup ∧ at8 e 12 ≤ 3
          ∧ at8 e 14 ≤ 1 then
        some (.quote (at16 e 4) fields (at8 e 12) lamp (at8 e 14 == 1))
      else none
    | _, _ => none
  | 2 =>
    if h : at8 e 5 < 8 then
      if 1 ≤ at8 e 4 ∧ at8 e 4 ≤ 32 then some (.message (at8 e 4) ⟨at8 e 5, h⟩) else none
    else none
  | 3 => some .clock
  | 4 => some .status
  | _ => none

/-- A SLOT entry: refused, EMPTY, or a slot that is dirty with no flash (R93, R94). Claims of other
slots are checked where the slot table is known. -/
inductive SlotEntry where
  | refused
  | empty
  | slot (s : Slot)
  deriving DecidableEq, Repr

def slotEntry (e : List Byte) : SlotEntry :=
  if at8 e 0 = 0 then .empty
  else match slotKindAt e, chainOfCode (at8 e 1) with
    | some kind, some chain =>
      if at16 e 2 ≤ 511 ∧ at16 e 2 + spanWidth kind ≤ 512 then
        .slot { chain, start := at16 e 2, kind, dirty := true, flash := none }
      else .refused
    | _, _ => .refused

/-- A value clamped to a range. -/
def clamp (lo hi n : Nat) : Nat := max lo (min hi n)

/-- A CHAIN entry with its values clamped (R70, R177). -/
def chainEntry (e : List Byte) : ChainEntry :=
  { enabled := at8 e 0 ≠ 0, cellPeriod := clamp 10 1000 (at16 e 1), settle := clamp 1 50 (at8 e 3),
    keepalive := clamp 1 60 (at8 e 4), day := e.getD 5 0, night := e.getD 6 0 }

def moduleOfCode : Nat → Option ModuleKind
  | 0 => some .endOfList
  | 1 => some .char8
  | 2 => some .lamp
  | 3 => some .bypass
  | _ => none

def moduleCode : ModuleKind → Byte
  | .endOfList => 0
  | .char8 => 1
  | .lamp => 2
  | .bypass => 3

/-- A row item: FFFFh none, or a record number; the outer option is absent above 511 (R164). -/
def rowItemOf (n : Nat) : Option (Option Nat) :=
  if n = 0xFFFF then some none else if n ≤ 511 then some (some n) else none

structure TerminalEntry where
  enabled : Bool
  lock : Bool
  rows : List (Option Nat)
  deriving DecidableEq, Repr

/-- A TERMINAL entry, or none where its flags, its record numbers or a repeated record refuse it
(R164). -/
def terminalEntry (e : List Byte) : Option TerminalEntry :=
  match (List.range 16).mapM (fun i => rowItemOf (at16 e (2 + 2 * i))) with
  | some rows =>
    if at8 e 0 ≤ 1 ∧ at8 e 1 ≤ 1 ∧ (rows.filterMap id).Nodup then
      some { enabled := at8 e 0 == 1, lock := at8 e 1 == 1, rows }
    else none
  | none => none

/-! ## Responses of the terminal line (R136, Table 11-9) -/

/-- A request part. -/
inductive Request where
  | add (row : Nat) (symbol : SymbolCode)
  | drop (row : Byte)
  deriving DecidableEq, Repr

/-- A valid response. -/
inductive Response where
  | confirm (terminalType : Byte)
  | ack (number : BitVec 3) (request : Option Request)
  | busy
  | idle (request : Option Request)
  | number (number : BitVec 3)
  deriving DecidableEq, Repr

/-- How a transaction's reception ended. -/
inductive LineOutcome where
  | response (r : Response)
  | badFrame
  | timeout
  deriving DecidableEq, Repr

/-- A frame number, 0 to 7. -/
def frameNumber (b : Byte) : Option (BitVec 3) :=
  if b.toNat ≤ 7 then some (b.truncate 3) else none

/-- A request part or none; the outer option is absent for any other run of bytes. -/
def requestPart (p : List Byte) : Option (Option Request) :=
  if p.length = 0 then some none
  else if p.length = 7 ∧ at8 p 0 = 1 ∧ at8 p 1 ≤ 16 then
    some (some (.add (at8 p 1) (symbolAt p 2)))
  else if p.length = 2 ∧ at8 p 0 = 2 then some (some (.drop (p.getD 1 0)))
  else none

/-- The response that a TYPE and a body spell. -/
def responseOf (type : Nat) (body : List Byte) : Option Response :=
  match type with
  | 0x20 => if body.length = 1 then some (.confirm (body.getD 0 0)) else none
  | 0x21 =>
    if 1 ≤ body.length then
      match frameNumber (body.getD 0 0), requestPart (body.drop 1) with
      | some n, some r => some (.ack n r)
      | _, _ => none
    else none
  | 0x22 => if body.length = 0 then some .busy else none
  | 0x23 => (requestPart body).map .idle
  | 0x24 => if body.length = 1 then (frameNumber (body.getD 0 0)).map .number else none
  | _ => none

/-- The longest LEN of a terminal line frame. -/
def maxTerminalLen : Nat := 120

/-- The outcome of a response received whole: SOH, ADDR, TYPE, LEN, body and two CRC bytes, for the
terminal numbered `number` (R136). -/
def receivedOutcome (number : Nat) (frame : List Byte) : LineOutcome :=
  let len := at8 frame 3
  let covered := (frame.drop 1).take (3 + len)
  if frame.length = len + 6 ∧ len ≤ maxTerminalLen
      ∧ wordBytes (crcOf covered) = frame.drop (4 + len)
      ∧ at8 frame 1 = 0x80 + number then
    match responseOf (at8 frame 2) ((frame.drop 4).take len) with
    | some r => .response r
    | none => .badFrame
  else .badFrame

end Sys2Proof.Machine
end

