-- ==== Sys2Proof/Machine/Boards.lean ====
section
/-!
DEFINITION. The slot composer's rendering and the board chain controllers: the image, the snapshot,
the refresh cycle, the echo check, settling, chain sense, table loads and CHAIN RESET (chapters 5
and 6).
-/

namespace Sys2Proof.Machine

/-! ## Rendering slots at a snapshot (R100 to R105) -/

/-- The fields of a QUOTE slot with gap blank cells between one field and the next (R92). -/
def joinFields (r : QuoteRecord) (gap : Nat) : List BoardField → List Byte
  | [] => []
  | [f] => fieldCells r f
  | f :: g :: rest => fieldCells r f ++ blanks gap ++ joinFields r gap (g :: rest)

/-- The clock text HH:MM of R102. -/
def clockText (t : TimeBase) : List Byte :=
  if t.clockSet then
    twoDigits (t.clock / 3600) ++ [chColon] ++ twoDigits (t.clock / 60 % 60)
  else textClockUnset

/-- The STATUS text (Table 6-3). -/
def statusText (s : State) : List Byte :=
  if s.feed.feedState = .lost then textFeedLost
  else if s.time.session = .haltedAll then textMarketHalted
  else if 1 ≤ s.ticker.level then textTapeLateMinutes s.ticker.lateMinutes
  else if s.time.session = .preOpen then textPreOpening
  else if s.time.session = .closed then textMarketClosed
  else []

/-- The text of a MESSAGE slot: the top of its stack (R105). -/
def messageText (stack : List BulletinEntry) : List Byte :=
  match stack with
  | [] => []
  | top :: _ => top.text

/-- The character cells of a slot's span. -/
def slotCells (s : State) : SlotKind → List Byte
  | .quote record fields gap _ _ =>
    match tableGet s.records record with
    | some r => joinFields r gap fields
    | none => blanks (quoteWidth fields gap)
  | .message width stack => padRight width (messageText s.bulletins[stack])
  | .clock => clockText s.time
  | .status => padRight 16 (statusText s)

/-- Whether a slot's FLASH bit is on: until its flash timer has expired (R98, R99). At the tick that takes
the remaining time to 0 the timer is due and still runs: a snapshot taken before the expiry shows FLASH on,
and the expiry that follows marks the slot dirty again. -/
def flashing (sl : Slot) : Bool := timerRuns sl.flash

/-- The six lamp bits of a QUOTE slot: UP, DOWN, HALT, FLASH, STALE in bits 0 to 4 (Table 6-2, R178). -/
def lampBits (r : QuoteRecord) (flash : Bool) : Byte :=
  (if r.tick = .up ∨ r.tick = .zeroPlus then 0x01 else 0)
    ||| (if r.tick = .down ∨ r.tick = .zeroMinus then 0x02 else 0)
    ||| (if r.state = .halted then 0x04 else 0)
    ||| (if flash then 0x08 else 0)
    ||| (if r.stale then 0x10 else 0)

/-- The lamp cell of a slot: all bits off while the record is EMPTY (R101). -/
def slotLamp (s : State) (sl : Slot) : Byte :=
  match sl.kind with
  | .quote record _ _ _ _ =>
    match tableGet s.records record with
    | some r => lampBits r (flashing sl)
    | none => 0
  | .message _ _ => 0
  | .clock => 0
  | .status => 0

/-- Whether a slot claims a character cell of a chain. -/
def claimsCell (c : ChainId) (cell : Nat) (sl : Slot) : Bool :=
  sl.chain == c && sl.start ≤ cell && cell < sl.start + spanWidth sl.kind

/-- Whether a slot claims a lamp cell of a chain. -/
def claimsLamp (c : ChainId) (cell : Nat) (sl : Slot) : Bool :=
  sl.chain == c && lampOf sl.kind == some cell

/-- A character cell at the snapshot: its slot's character, or a blank (R73). -/
def renderCell (s : State) (c : ChainId) (cell : Nat) : Byte :=
  match s.slots.find? (fun e => claimsCell c cell e.2) with
  | some e => (slotCells s e.2.kind).getD (cell - e.2.start) chBlank
  | none => chBlank

/-- A lamp cell at the snapshot: its slot's bits, or all off (R73). -/
def renderLamp (s : State) (c : ChainId) (cell : Nat) : Byte :=
  match s.slots.find? (fun e => claimsLamp c cell e.2) with
  | some e => slotLamp s e.2
  | none => 0

/-! ## The image (R71 to R73) -/

/-- The list in force: the modules before the first END (R71). -/
def inForce (modules : Vector ModuleKind 64) : List ModuleKind :=
  modules.toList.takeWhile (· ≠ .endOfList)

/-- What one stage of an image shows. -/
inductive StageSource where
  | char (cell : Nat)
  | lamp (cell : Nat)
  | filler
  deriving DecidableEq, Repr

/-- The stages of one module in shift order, for the j-th CHAR8 or the j-th LAMP (R72, R73). -/
def moduleStages (j l : Nat) : ModuleKind → List StageSource
  | .char8 => [.char (8 * j + 7), .char (8 * j + 6), .char (8 * j + 5), .char (8 * j + 4),
      .char (8 * j + 3), .char (8 * j + 2), .char (8 * j + 1), .char (8 * j)]
  | .lamp => [.lamp l]
  | .bypass => [.filler]
  | .endOfList => []

/-- The stages of a list in shift order, from the far end, each with the list index of its module
(R73): `i`, `j` and `l` count the modules, the CHAR8 and the LAMP modules before it. -/
def stageLayout : List ModuleKind → Nat → Nat → Nat → List (Nat × StageSource)
  | [], _, _, _ => []
  | m :: rest, i, j, l =>
    stageLayout rest (i + 1) (if m = .char8 then j + 1 else j) (if m = .lamp then l + 1 else l)
      ++ (moduleStages j l m).map (fun x => (i, x))

/-- One stage rendered. -/
def renderStage (s : State) (c : ChainId) : StageSource → Byte
  | .char cell => renderCell s c cell
  | .lamp cell => renderLamp s c cell
  | .filler => chBlank

/-- The image of a chain composed from a list (R73, R76). -/
def composeImage (s : State) (c : ChainId) (list : List ModuleKind) : List Byte :=
  (stageLayout list 0 0 0).map (fun x => renderStage s c x.2)

/-! ## The echo check and shift completion (R77, R78) -/

/-- The list index of a differing stage, position by position: returned stages against the shadow, or
against the blank filler where the position belongs to a BYPASS. A stage that was not returned
differs. -/
def differingModules : List (Nat × StageSource) → List Byte → List Byte → List Nat
  | [], _, _ => []
  | (k, src) :: rest, shadow, returned =>
    let expected := if src = .filler then some chBlank else shadow.head?
    let tail := differingModules rest shadow.tail returned.tail
    if returned.head? = expected ∧ returned ≠ [] then tail else k :: tail

/-- The lowest of a list of module indexes. -/
def lowestOf : List Nat → Option Nat
  | [] => none
  | k :: rest => some (rest.foldl min k)

/-- The chain after the comparison of a cycle (R78). -/
def echoChecked (ch : Chain) (cy : Cycle) (differing : List Nat) : Chain :=
  if !cy.verified then ch
  else match lowestOf differing with
    | none => { ch with faultCount := 0 }
    | some k => { ch with faultCount := min 3 (ch.faultCount + 1), firstMismatch := some k }

/-- The latch strobed, the shadow replaced, settling started (R78 steps 1 to 4). -/
def latchAndSettle (ch : Chain) (cy : Cycle) (returned : List Byte) : Chain :=
  { ch with
    latched := cy.image, shadow := cy.image, shadowValid := true,
    settleTimer := startTimer cy.settle, state := .settling,
    cycle := some { cy with returned := returned } }

/-- Shift completion of a chain with a cycle being shifted (R78). -/
def shiftComplete (c : ChainId) (returned : List Byte) (s : State) : State :=
  match s.chains[c].state, s.chains[c].cycle with
  | .shifting, some cy =>
    let differing := differingModules (stageLayout cy.list 0 0 0) s.chains[c].shadow returned
    let s' := s.setChain c (latchAndSettle (echoChecked s.chains[c] cy differing) cy returned)
    if cy.verified ∧ differing ≠ [] then raiseAlert (.chainFault c) s' else s'
  | _, _ => s

/-! ## Refresh start (R75, R76) -/

/-- Whether a slot claiming a cell of the chain is dirty. -/
def chainDirty (s : State) (c : ChainId) : Bool := s.slots.any (fun e => e.2.chain == c && e.2.dirty)

/-- The dirty flags of a chain's slots cleared (R76). -/
def clearDirty (c : ChainId) (slots : Table Slot) : Table Slot :=
  slots.map (fun e => if e.2.chain = c then (e.1, { e.2 with dirty := false }) else e)

/-- The cycle captured at refresh start, with its snapshot. -/
def capturedCycle (c : ChainId) (s : State) : Cycle :=
  let ch := s.chains[c]
  { list := inForce ch.modules, cellPeriod := ch.entry.cellPeriod, settle := ch.entry.settle,
    image := composeImage s c (inForce ch.modules), verified := ch.shadowValid, returned := [] }

/-- Refresh start (R75). An image of 0 stages completes at once (R77). -/
def refreshStart (c : ChainId) (s : State) : State :=
  let cy := capturedCycle c s
  let s' := (s.setSlots (clearDirty c s.slots)).setChain c
    { s.chains[c] with
      keepaliveTimer := none, cycle := some cy, resync := false, state := .shifting }
  if cy.image = [] then shiftComplete c [] s' else s'

/-- Whether a start condition other than the keepalive holds for an IDLE chain (R75). -/
def wantsRefresh (s : State) (c : ChainId) : Bool :=
  s.chains[c].state == .idle && (s.chains[c].resync || chainDirty s c)

/-- The start taken at an event that makes a condition hold, or on entering IDLE. -/
def wakeChain (c : ChainId) (s : State) : State := if wantsRefresh s c then refreshStart c s else s

/-- Every chain told of an event at the slot composer. -/
def wakeChains (s : State) : State := wakeChain 3 (wakeChain 2 (wakeChain 1 (wakeChain 0 s)))

/-! ## Moves between OFFLINE and IDLE (R74, R79 to R86) -/

/-- OFFLINE: no cycle, the shadow invalid, both timers stopped (R74). -/
def goOffline (ch : Chain) : Chain :=
  { ch with state := .offline, shadowValid := false, cycle := none, keepaliveTimer := none,
            settleTimer := none }

/-- IDLE out of OFFLINE or at a reset: the shadow invalid, resync pending, the keepalive started. -/
def enterIdle (ch : Chain) : Chain :=
  { ch with state := .idle, shadowValid := false, resync := true, cycle := none,
            settleTimer := none, keepaliveTimer := startTimer (ch.entry.keepalive * 1000) }

/-- A pending reload carried out at settle completion (R79 step 1). -/
def applyReload (ch : Chain) : Chain :=
  if ch.reload then { ch with shadowValid := false, reload := false } else ch

/-- What a chain reset does to the controller's counts and shadow (R86). -/
def applyChainReset (ch : Chain) : Chain :=
  { ch with faultCount := 0, firstMismatch := none, shadowValid := false, resync := true,
            resetPending := false }

/-- A pending chain reset carried out at settle completion (R79 step 2). -/
def applyPendingReset (ch : Chain) : Chain := if ch.resetPending then applyChainReset ch else ch

/-- The end of a cycle that returns to IDLE (R79 step 5). -/
def backToIdle (ch : Chain) : Chain :=
  { ch with state := .idle, cycle := none, settleTimer := none,
            keepaliveTimer := startTimer (ch.entry.keepalive * 1000) }

/-- Settle completion of a SETTLING chain (R79). -/
def settleComplete (c : ChainId) (s : State) : State :=
  let ch := applyPendingReset (applyReload s.chains[c])
  if !ch.entry.enabled then s.setChain c (goOffline ch)
  else if 3 ≤ ch.faultCount then raiseAlert (.chainFault c) (s.setChain c (goOffline ch))
  else wakeChain c (s.setChain c (backToIdle ch))

/-- A change of the sense level (R81 to R83). -/
def senseChange (c : ChainId) (present : Bool) (s : State) : State :=
  let ch := { s.chains[c] with senseLevel := present, senseLatch := true }
  let s' := raiseAlert (.chainSense c) s
  if !present then
    s'.setChain c { goOffline ch with faultCount := 0, reload := false, resetPending := false }
  else if ch.entry.enabled && ch.faultCount < 3 then
    wakeChain c (s'.setChain c (enterIdle ch))
  else s'.setChain c ch

/-- What an accepted CHAIN or MODULE entry does to the chain, by its state (R84). -/
def reloaded (ch : Chain) : Chain :=
  match ch.state with
  | .idle => { ch with shadowValid := false, resync := true }
  | .shifting => { ch with resync := true, reload := true }
  | .settling => { ch with resync := true, reload := true }
  | .offline => { ch with resync := true }

/-- The further effect of a changed enabled flag (R85). -/
def enableChanged (ch : Chain) : Chain :=
  if ch.entry.enabled then
    if ch.state = .offline ∧ ch.senseLevel ∧ ch.faultCount < 3 then enterIdle ch else ch
  else if ch.state = .idle then goOffline ch else ch

/-- A CHAIN entry applied (R70, R84, R85). -/
def applyChainEntry (c : ChainId) (e : ChainEntry) (s : State) : State :=
  let old := s.chains[c]
  let ch := reloaded { old with entry := e }
  wakeChain c (s.setChain c (if old.entry.enabled = e.enabled then ch else enableChanged ch))

/-- A MODULE entry applied (R71, R84). -/
def applyModuleEntry (c : ChainId) (k : Fin 64) (m : ModuleKind) (s : State) : State :=
  wakeChain c (s.setChain c
    (reloaded { s.chains[c] with modules := s.chains[c].modules.set k m }))

/-- CHAIN RESET of a chain with no cycle in flight (R86): it enters or stays in IDLE where it is enabled
and present, and otherwise keeps its state. -/
def chainResetAtRest (c : ChainId) (s : State) : State :=
  let ch := applyChainReset s.chains[c]
  if ch.entry.enabled && ch.senseLevel then wakeChain c (s.setChain c (enterIdle ch))
  else s.setChain c ch

/-- CHAIN RESET at the controller (R86). -/
def chainResetAt (c : ChainId) (s : State) : State :=
  match s.chains[c].state with
  | .shifting => s.setChain c { s.chains[c] with resetPending := true }
  | .settling => s.setChain c { s.chains[c] with resetPending := true }
  | .offline => chainResetAtRest c s
  | .idle => chainResetAtRest c s

/-- A PWM period start: the level taken is the night brightness while CLOSED (R87). -/
def pwmStart (c : ChainId) (s : State) : State :=
  let ch := s.chains[c]
  s.setChain c
    { ch with pwmLevel := if s.time.session = .closed then ch.entry.night else ch.entry.day }

/-- The flash clock's half-period: the output changes and the timer restarts with PARAM 6 (R88). -/
def flashHalfPeriod (s : State) : State :=
  s.setFlashClock { level := !s.flashClock.level, timer := startTimer (param s 6 * 50) }

/-! ## The slot composer's marks (R94 to R99, R102, R104, R106, R110) -/

/-- A slot marked dirty. -/
def dirtied (sl : Slot) : Slot := { sl with dirty := true }

/-- Every slot that a predicate picks changed by `f`, and the chains told. -/
def markSlots (pick : Slot → Bool) (f : Slot → Slot) (s : State) : State :=
  wakeChains (s.setSlots (s.slots.map (fun e => if pick e.2 then (e.1, f e.2) else e)))

/-- Whether a slot is a QUOTE slot naming a record. -/
def quotesRecord (n : Nat) (sl : Slot) : Bool :=
  match sl.kind with
  | .quote record _ _ _ _ => record == n
  | .message _ _ => false
  | .clock => false
  | .status => false

/-- The names a slot depends on (R96). -/
def slotNames (sl : Slot) : NameSet :=
  match sl.kind with
  | .quote _ fields _ lamp _ =>
    (fields.map fieldNames).foldl (· ||| ·) 0
      ||| nameIf lamp.isSome (nameTick ||| nameState ||| nameStale)
  | .message _ _ => 0
  | .clock => 0
  | .status => 0

/-- Whether a slot's flash-enable flag is set. -/
def flashEnabled (sl : Slot) : Bool :=
  match sl.kind with
  | .quote _ _ _ _ flash => flash
  | .message _ _ => false
  | .clock => false
  | .status => false

/-- A QUOTE slot after a change set for its record: marked where its names meet the set (R96), and
its flash started where LAST is in the set (R98). -/
def slotTakes (names : NameSet) (flashPeriod : Nat) (sl : Slot) : Slot :=
  let sl' := if namesMeet (slotNames sl) names then dirtied sl else sl
  if namesMeet names nameLast && flashEnabled sl && flashPeriod ≠ 0 then
    { dirtied sl' with flash := startTimer (flashPeriod * 100) }
  else sl'

/-- A change set handed to the slot composer (R96, R98). -/
def slotsTakeNames (n : Nat) (names : NameSet) (s : State) : State :=
  markSlots (quotesRecord n) (slotTakes names (param s 5)) s

/-- A deletion handed to the slot composer (R97). -/
def slotsTakeDeletion (n : Nat) (s : State) : State :=
  markSlots (quotesRecord n) (fun sl => { dirtied sl with flash := none }) s

/-- Every MESSAGE slot of a stack marked (R106). -/
def markMessages (k : StackId) (s : State) : State :=
  markSlots (fun sl => match sl.kind with
    | .message _ stack => stack == k
    | .quote _ _ _ _ _ => false
    | .clock => false
    | .status => false) dirtied s

/-- Every CLOCK slot marked (R102). -/
def markClocks (s : State) : State := markSlots (fun sl => sl.kind == .clock) dirtied s

/-- Every STATUS slot marked (R104). -/
def markStatus (s : State) : State := markSlots (fun sl => sl.kind == .status) dirtied s

/-- Every slot that is not EMPTY marked (R110). -/
def markAllSlots (s : State) : State := markSlots (fun _ => true) dirtied s

/-- The expiry of a slot's flash timer (R99). -/
def flashExpire (n : Nat) (s : State) : State :=
  match tableGet s.slots n with
  | some sl =>
    if timerRuns sl.flash then
      wakeChains (s.setSlots (tableSet s.slots n { dirtied sl with flash := none }))
    else s
  | none => s

/-- Whether two slots claim a common cell (R93). -/
def claimsCross (a b : Slot) : Bool :=
  a.chain == b.chain
    && ((a.start < b.start + spanWidth b.kind && b.start < a.start + spanWidth a.kind
        && 0 < spanWidth a.kind && 0 < spanWidth b.kind)
      || (lampOf a.kind == lampOf b.kind && (lampOf a.kind).isSome))

/-- Whether a slot would claim a cell that another slot than n claims (R93). -/
def claimTaken (slots : Table Slot) (n : Nat) (sl : Slot) : Bool :=
  slots.any (fun e => e.1 ≠ n && claimsCross e.2 sl)

/-- Resync pending set on the chain that slot n formerly named (R94 step 1). -/
def resyncFormer (n : Nat) (s : State) : State :=
  match tableGet s.slots n with
  | some old => s.setChain old.chain { s.chains[old.chain] with resync := true }
  | none => s

/-- A SLOT entry applied, or none where it is refused (R93, R94). A chain that it finds IDLE starts one refresh for
its resync and its dirty marks together (R75). -/
def applySlotEntry (n : Nat) (e : List Byte) (s : State) : Option State :=
  match slotEntry e with
  | .refused => none
  | .empty => some (wakeChains ((resyncFormer n s).setSlots (tableErase s.slots n)))
  | .slot sl =>
    if claimTaken s.slots n sl then none
    else some (wakeChains ((resyncFormer n s).setSlots (tableSet s.slots n sl)))

/-- The snapshot of the cycle of chain c, taken now (R76). -/
def snapshotNow (c : ChainId) (s : State) : State :=
  (s.setSlots (clearDirty c s.slots)).setChain c
    { s.chains[c] with
      cycle := s.chains[c].cycle.map (fun cy => { cy with image := composeImage s c cy.list }) }

/-- Whether chain c has started a refresh between the state `s` and the state `u` after it. -/
def begunBetween (s u : State) (c : ChainId) : Bool :=
  s.chains[c].state == .idle && u.chains[c].state != .idle

/-- A slot load and a snapshot that come together (R94). A refresh that the gap-before marking of the load's own
frame starts, between `s` and `u`, has cleared resync as it started (R75 step 5); the load is taken before its
snapshot, which composes the new claims, and the resync of the load stays for a second refresh. That the load is
the first of the two is the model's choice (DESIGN CHOICE, log entry 32). -/
def snapshotAfterLoad (s u : State) (c : ChainId) (v : State) : State :=
  if begunBetween s u c then snapshotNow c v else v

/-- A SLOT entry applied in the state `u` by a command that began in the state `s`, with the snapshots that come
together with it. -/
def applySlotTable (s : State) (n : Nat) (e : List Byte) (u : State) : Option State :=
  (applySlotEntry n e u).map (fun v =>
    snapshotAfterLoad s u 3 (snapshotAfterLoad s u 2 (snapshotAfterLoad s u 1 (snapshotAfterLoad s u 0 v))))

end Sys2Proof.Machine
end

