-- ==== Sys2Proof/Machine/Terminals.lean ====
section
/-!
DEFINITION. The watch manager and the terminal line controller: rows and their sets, the composition
of an UPDATE, requests, selection, and the outcomes of transactions (chapters 8 and 9).
-/

namespace Sys2Proof.Machine

/-! ## Rows and sets (R155 to R159) -/

/-- Every terminal changed. -/
def mapTerms (f : Terminal → Terminal) (s : State) : State :=
  s.setLine { s.line with terminals := s.line.terminals.map f }

/-- Every row of a terminal changed. -/
def mapRows (f : Row → Row) (t : Terminal) : Terminal := { t with rows := t.rows.map f }

/-- The status-line pending flag of every ACTIVE terminal set (R150). -/
def statusLinesPending (s : State) : State :=
  mapTerms (fun t => if t.state = .active then { t with statusPending := true } else t) s

/-- A row after a change set for record n (R157). -/
def rowTakesNames (n : Nat) (names : NameSet) (r : Row) : Row :=
  if r.record = some n then { r with pending := r.pending ||| names } else r

/-- A change set handed to the watch manager (R157). -/
def rowsTakeNames (n : Nat) (names : NameSet) (s : State) : State :=
  mapTerms (mapRows (rowTakesNames n names)) s

/-- A row that has become EMPTY: CLEAR pending, nothing in flight (R155). -/
def clearedRow : Row := { record := none, pending := nameClear, inFlight := 0 }

/-- A row that has come to name a record: every field name pending (R155). -/
def namedRow (n : Nat) : Row := { record := some n, pending := allNames, inFlight := 0 }

/-- A deletion handed to the watch manager (R158). -/
def rowsTakeDeletion (n : Nat) (s : State) : State :=
  mapTerms (mapRows (fun r => if r.record = some n then clearedRow else r)) s

/-- A terminal's sets, status-line flags and request result cleared (R148, R151, R152). -/
def clearSets (t : Terminal) : Terminal :=
  { mapRows (fun r => { r with pending := 0, inFlight := 0 }) t with
    statusPending := false, statusInFlight := false, result := none }

/-- A row prepared for a new screen (R159). -/
def activatedRow (r : Row) : Row :=
  { r with pending := if r.record.isSome then allNames else 0, inFlight := 0 }

/-- The activation of a terminal at the watch manager (R159). -/
def activateRows (t : Terminal) : Terminal :=
  { mapRows activatedRow t with statusInFlight := false, statusPending := true, rotation := 0 }

/-- Whether a terminal has something pending (R145). -/
def hasPending (t : Terminal) : Bool :=
  t.rows.toList.any (fun r => r.pending ≠ 0) || t.statusPending || t.result.isSome

/-- The in-flight items of an accepted UPDATE cleared (R161). -/
def settleAccepted (t : Terminal) : Terminal :=
  { mapRows (fun r => { r with inFlight := 0 }) t with statusInFlight := false }

/-- The in-flight items of an UPDATE not accepted returned to pending (R161). -/
def settleRefused (t : Terminal) : Terminal :=
  { mapRows (fun r => { r with pending := r.pending ||| r.inFlight, inFlight := 0 }) t with
    statusPending := t.statusPending || t.statusInFlight, statusInFlight := false }

/-! ## Watch counts (R156) -/

/-- The watch count of a record changed. -/
def changeWatch (f : Nat → Nat) (n : Nat) (s : State) : State :=
  match tableGet s.records n with
  | some r => s.setRecords (tableSet s.records n { r with watch := f r.watch })
  | none => s

/-- The watch count of a named record lowered or raised by one; nothing for an EMPTY row. -/
def lowerWatch (record : Option Nat) (s : State) : State :=
  match record with
  | some n => changeWatch (· - 1) n s
  | none => s

def raiseWatch (record : Option Nat) (s : State) : State :=
  match record with
  | some n => changeWatch (· + 1) n s
  | none => s

/-- A row made to hold another item, with the watch counts (R155, R156, R164). -/
def changeRow (t : TermId) (i : Fin 16) (item : Option Nat) (s : State) : State :=
  let term := s.line.terminals[t]
  let old := term.rows[i].record
  let row := match item with
    | some n => namedRow n
    | none => clearedRow
  raiseWatch item (lowerWatch old (s.setTerm t { term with rows := term.rows.set i row }))

/-! ## Composing an UPDATE (R160, R34, Table 11-10) -/

/-- The values of a row item, in name mask bit order (R177). -/
def rowValues (r : QuoteRecord) (names : NameSet) : List Byte :=
  part nameSymbol (symbolCells r.symbol) ++ part nameState [tradingStateCode r.state]
    ++ part nameLast (optionalPriceCells r.denom r.last) ++ part nameChange (changeCells r)
    ++ part nameTick [tickCode r.tick] ++ part nameHigh (optionalPriceCells r.denom r.high)
    ++ part nameLow (optionalPriceCells r.denom r.low) ++ part nameVolume (volumeCells r.volume)
    ++ part nameBid (optionalPriceCells r.denom r.bid)
    ++ part nameAsk (optionalPriceCells r.denom r.ask) ++ part nameStale [flagByte r.stale]
where
  /-- The value of one name, if the item carries it. -/
  part (name : NameSet) (value : List Byte) : List Byte :=
    if namesMeet names name then value else []

/-- A row item: 03h, the row number, the name mask, the values of a named row. -/
def rowItem (s : State) (i : Fin 16) (r : Row) : List Byte :=
  [0x03, byteOf (i.val + 1)] ++ bytes2 r.pending.toNat
    ++ (match r.record with
      | some n => rowValues ((tableGet s.records n).getD emptyRecord) r.pending
      | none => [])

/-- A status-line item (R160, Table 11-10). -/
def statusItem (s : State) : List Byte :=
  [0x01, sessionCode s.time.session, feedStateCode s.feed.feedState, byteOf s.ticker.level]
    ++ bytes2 s.ticker.lateMinutes
    ++ (if s.time.clockSet then [byteOf (s.time.clock / 3600), byteOf (s.time.clock / 60 % 60)]
      else [0xFF, 0xFF])

/-- The codes of request results. -/
def resultCode : ResultCode → Byte
  | .accepted => 0
  | .locked => 1
  | .unknown => 2
  | .duplicate => 3
  | .full => 4
  | .emptyRow => 5
  | .badRow => 6

/-- A composition in progress: the rows, the body so far, the rows taken, the row index at which the
next composition begins, and whether a row found no room. -/
structure Composition where
  rows : Vector Row 16
  body : List Byte
  taken : Nat
  rotation : Fin 16
  full : Bool

/-- One row examined (R160 step 3). -/
def composeRow (s : State) (c : Composition) (i : Fin 16) : Composition :=
  let r := c.rows[i]
  if c.full || 4 ≤ c.taken || r.pending == 0 then c
  else
    let item := rowItem s i r
    if maxTerminalLen < c.body.length + item.length then { c with full := true }
    else
      { rows := c.rows.set i { r with pending := 0, inFlight := r.pending },
        body := c.body ++ item, taken := c.taken + 1, rotation := i + 1, full := false }

/-- The rows in the order they are examined: from row pointer + 1, wrapping from 16 to 1. -/
def rowOrder (rotation : Fin 16) : List (Fin 16) := (List.finRange 16).map (fun k => rotation + k)

/-- The items of an UPDATE to a terminal before its rows: the frame number, the status line and the
request result (R160 steps 1 and 2). -/
def updateHead (s : State) (t : Terminal) : List Byte :=
  [t.nextNumber.zeroExtend 8] ++ (if t.statusPending then statusItem s else [])
    ++ (match t.result with
      | some r => [0x02, resultCode r.code, r.row]
      | none => [])

/-- The composition of an UPDATE (R160). -/
def composeUpdate (s : State) (t : Terminal) : Composition :=
  (rowOrder t.rotation).foldl (composeRow s)
    { rows := t.rows, body := updateHead s t, taken := 0, rotation := t.rotation, full := false }

/-- The terminal after the composition: items moved to in-flight, the result slot emptied, the number
outstanding (R145, R160). -/
def afterUpdate (t : Terminal) (c : Composition) : Terminal :=
  { t with rows := c.rows, rotation := c.rotation, statusInFlight := t.statusPending,
           statusPending := false, result := none, outstanding := some t.nextNumber }

/-! ## Starting a transaction (R137, R139) -/

/-- A primary frame to a terminal: SOH, ADDR, TYPE, LEN, body, CRC. -/
def primaryFrame (t : TermId) (type : Byte) (body : List Byte) : List Byte :=
  let covered := byteOf (t.val + 1) :: type :: byteOf body.length :: body
  0x01 :: covered ++ wordBytes (crcOf covered)

/-- TYPE codes of primary frames (Table 11-9). -/
def primaryType : PrimaryKind → Byte
  | .activate => 0x10
  | .screenInit => 0x11
  | .poll => 0x12
  | .update => 0x13
  | .enquiry => 0x14

/-- The transaction started, with the rate code as it stands (R135), and the poll pointer moved. -/
def beginTransaction (t : TermId) (kind : PrimaryKind) (body : List Byte) (s : State) : State :=
  s.setLine
    { s.line with
      pollPointer := t,
      transaction := some
        { terminal := t, kind := kind, frame := primaryFrame t (primaryType kind) body,
          rate := s.mgmt.params[(15 : Fin 20)], sending := true, received := [],
          responseTicks := 0, timeout := none } }

/-- The base frame number of SCREEN INIT: the next frame number less one, modulo 8 (R143). -/
def baseNumber (t : Terminal) : BitVec 3 := t.nextNumber - 1

/-- The selected terminal served with the frame its state calls for (Table 8-1). -/
def serve (t : TermId) (s : State) : State :=
  let term := s.line.terminals[t]
  match term.state with
  | .disabled => s
  | .absent => beginTransaction t .activate [] (s.setTerm t { term with probeDue := false })
  | .activating => beginTransaction t .screenInit [(baseNumber term).zeroExtend 8] s
  | .active =>
    if hasPending term then
      let c := composeUpdate s term
      beginTransaction t .update c.body (s.setTerm t (afterUpdate term c))
    else beginTransaction t .poll [] s
  | .recovery => beginTransaction t .enquiry [] s

/-- Whether a terminal is eligible for selection (R139). -/
def eligible (t : Terminal) : Bool :=
  match t.state with
  | .disabled => false
  | .absent => t.probeDue
  | .activating => true
  | .active => true
  | .recovery => true

/-- The terminal to serve next: one that holds an outstanding number, or else the first eligible one
from the poll pointer plus one (R139). -/
def nextTerminal (l : TerminalLine) : Option TermId :=
  match (List.finRange 32).find? (fun t => (l.terminals[t]).outstanding.isSome) with
  | some t => some t
  | none =>
    ((List.finRange 32).map (fun k => l.pollPointer + 1 + k)).find?
      (fun t => eligible l.terminals[t])

/-- Selection, when the line is free and no night poll gap is running (R139). -/
def select (s : State) : State :=
  if s.line.transaction.isNone && !timerRuns s.line.gap then
    match nextTerminal s.line with
    | some t => serve t s
    | none => s
  else s

/-! ## Requests (R149, R162, R163) -/

/-- The record number a symbol code maps to in the directory (R4). -/
def lookup (directory : List (SymbolCode × Nat)) (c : SymbolCode) : Option Nat :=
  match directory with
  | [] => none
  | (code, n) :: rest => if code = c then some n else lookup rest c

/-- A request's result placed in the request result slot. -/
def placeResult (t : TermId) (code : ResultCode) (row : Byte) (s : State) : State :=
  s.setTerm t { s.line.terminals[t] with result := some { code := code, row := row } }

/-- The row of a terminal that names a record. -/
def rowNaming (term : Terminal) (n : Nat) : Option (Fin 16) :=
  (List.finRange 16).find? (fun i => (term.rows[i]).record = some n)

/-- The row an ADD takes: the named row, or for row 0 the lowest EMPTY row; none where that row, or
every row, is not EMPTY (R162). -/
def rowForAdd (term : Terminal) (row : Nat) : Option (Fin 16) :=
  if row = 0 then (List.finRange 16).find? (fun i => (term.rows[i]).record.isNone)
  else (List.finRange 16).find? (fun i => i.val + 1 = row && (term.rows[i]).record.isNone)

/-- The number of a row index, as a result carries it. -/
def rowNumber (i : Fin 16) : Byte := byteOf (i.val + 1)

/-- An ADD request applied (R162). -/
def applyAdd (t : TermId) (row : Nat) (symbol : SymbolCode) (s : State) : State :=
  let term := s.line.terminals[t]
  if term.lock then placeResult t .locked (byteOf row) s
  else match lookup s.directory symbol with
    | none => placeResult t .unknown (byteOf row) s
    | some n =>
      match rowNaming term n with
      | some i => placeResult t .duplicate (rowNumber i) s
      | none =>
        match rowForAdd term row with
        | none => placeResult t .full (byteOf row) s
        | some i => placeResult t .accepted (rowNumber i) (changeRow t i (some n) s)

/-- A DROP request applied (R163). -/
def applyDrop (t : TermId) (row : Byte) (s : State) : State :=
  let term := s.line.terminals[t]
  if term.lock then placeResult t .locked row s
  else match (List.finRange 16).find? (fun i => rowNumber i = row) with
    | none => placeResult t .badRow row s
    | some i =>
      if (term.rows[i]).record.isNone then placeResult t .emptyRow row s
      else placeResult t .accepted row (changeRow t i none s)

/-- A request part handed to the watch manager (R149). -/
def applyRequest (t : TermId) (request : Option Request) (s : State) : State :=
  match request with
  | none => s
  | some (.add row symbol) => applyAdd t row symbol s
  | some (.drop row) => applyDrop t row s

/-! ## Outcomes of transactions (R142 to R148) -/

/-- The probe timer started with the probe interval (R141). -/
def startProbe (s : State) : Timer := startTimer (param s 17 * 1000)

/-- A terminal lost (R148). -/
def loseTerminal (t : TermId) (s : State) : State :=
  raiseAlert .terminalLost (s.setTerm t
    { clearSets s.line.terminals[t] with
      state := .absent, misses := 0, outstanding := none, probeDue := false,
      probeTimer := startProbe s })

/-- A miss: the count rises by 1; at 3 the terminal is lost, and otherwise takes a state. -/
def miss (t : TermId) (after : TermState) (s : State) : State :=
  let term := { s.line.terminals[t] with misses := s.line.terminals[t].misses + 1 }
  if 3 ≤ term.misses then loseTerminal t (s.setTerm t term)
  else s.setTerm t { term with state := after }

/-- The outcome of an ACTIVATE (R142). -/
def activateOutcome (t : TermId) (o : LineOutcome) (s : State) : State :=
  let term := s.line.terminals[t]
  if o = .response (.confirm 1) then
    s.setTerm t { term with state := .activating, nextNumber := 0, outstanding := none, misses := 0,
                            probeDue := false, probeTimer := none }
  else s.setTerm t { term with probeTimer := startProbe s }

/-- The outcome of a SCREEN INIT (R143). -/
def screenInitOutcome (t : TermId) (o : LineOutcome) (s : State) : State :=
  let term := s.line.terminals[t]
  match o with
  | .response (.ack n request) =>
    if n = baseNumber term then
      applyRequest t request
        (s.setTerm t { activateRows term with state := .active, misses := 0 })
    else miss t .activating s
  | .response .busy => s
  | .response (.confirm _) => miss t .activating s
  | .response (.idle _) => miss t .activating s
  | .response (.number _) => miss t .activating s
  | .badFrame => miss t .activating s
  | .timeout => miss t .activating s

/-- The outcome of a POLL (R144). -/
def pollOutcome (t : TermId) (o : LineOutcome) (s : State) : State :=
  match o with
  | .response (.idle request) =>
    applyRequest t request (s.setTerm t { s.line.terminals[t] with misses := 0 })
  | .response .busy => s
  | .response (.confirm _) => miss t .active s
  | .response (.ack _ _) => miss t .active s
  | .response (.number _) => miss t .active s
  | .badFrame => miss t .active s
  | .timeout => miss t .active s

/-- The UPDATE taken as accepted: the next number advances (R146, R147). -/
def updateAccepted (term : Terminal) : Terminal :=
  { settleAccepted term with outstanding := none, nextNumber := term.nextNumber + 1, misses := 0 }

/-- The outcome of an UPDATE (R146). -/
def updateOutcome (t : TermId) (o : LineOutcome) (s : State) : State :=
  let term := s.line.terminals[t]
  match o with
  | .response (.ack n request) =>
    if some n = term.outstanding then applyRequest t request (s.setTerm t (updateAccepted term))
    else s.setTerm t { term with state := .recovery }
  | .response .busy => s.setTerm t { settleRefused term with outstanding := none }
  | .response (.confirm _) => miss t .recovery s
  | .response (.idle _) => miss t .recovery s
  | .response (.number _) => miss t .recovery s
  | .badFrame => miss t .recovery s
  | .timeout => miss t .recovery s

/-- The outcome of an ENQUIRY (R147). -/
def enquiryOutcome (t : TermId) (o : LineOutcome) (s : State) : State :=
  let term := s.line.terminals[t]
  match o with
  | .response (.number n) =>
    if some n = term.outstanding then
      s.setTerm t { updateAccepted term with state := .active, statusPending := true }
    else
      s.setTerm t
        { settleRefused term with
          outstanding := none, nextNumber := term.nextNumber + 1, misses := 0, state := .active,
          statusPending := true }
  | .response (.confirm _) => miss t .recovery s
  | .response (.ack _ _) => miss t .recovery s
  | .response .busy => miss t .recovery s
  | .response (.idle _) => miss t .recovery s
  | .badFrame => miss t .recovery s
  | .timeout => miss t .recovery s

/-- The outcome of a transaction applied to the terminal served (R137 step 1). -/
def applyOutcome (kind : PrimaryKind) (t : TermId) (o : LineOutcome) (s : State) : State :=
  match kind with
  | .activate => activateOutcome t o s
  | .screenInit => screenInitOutcome t o s
  | .poll => pollOutcome t o s
  | .update => updateOutcome t o s
  | .enquiry => enquiryOutcome t o s

/-! ## Enabling, disabling and reset of a terminal (R151, R152) -/

/-- A terminal disabled (R151). -/
def disabledTerm (term : Terminal) : Terminal :=
  { clearSets term with state := .disabled, outstanding := none, misses := 0, resetPending := false,
                        probeTimer := none, probeDue := false }

/-- A terminal enabled out of DISABLED (R151). -/
def enabledTerm (term : Terminal) : Terminal :=
  { term with state := .absent, probeDue := true, misses := 0, nextNumber := 0,
              outstanding := none }

/-- A terminal reset (R152). -/
def resetTerm (term : Terminal) : Terminal :=
  { clearSets term with state := .absent, probeDue := true, probeTimer := none,
                        outstanding := none, misses := 0, resetPending := false }

/-- Whether a transaction is in flight with a terminal. -/
def inTransaction (s : State) (t : TermId) : Bool :=
  match s.line.transaction with
  | some tx => tx.terminal == t
  | none => false

/-- The enabled flag replaced, with what a change of it does (R151). -/
def setEnabled (t : TermId) (enabled : Bool) (s : State) : State :=
  let old := s.line.terminals[t]
  let term := { old with enabled := enabled }
  if old.enabled = enabled then s.setTerm t term
  else if enabled then
    if old.state = .disabled then select (s.setTerm t (enabledTerm term)) else s.setTerm t term
  else if inTransaction s t then s.setTerm t term
  else s.setTerm t (disabledTerm term)

/-- TERMINAL RESET at the controller (R152). A terminal whose enabled flag a LOAD has cleared during its transaction is
neither DISABLED nor enabled, a case that R152 does not list: its reset pends like an enabled terminal's (DESIGN CHOICE,
log entry 33). -/
def terminalResetAt (t : TermId) (s : State) : State :=
  let term := s.line.terminals[t]
  if term.state = .disabled then s
  else if inTransaction s t then s.setTerm t { term with resetPending := true }
  else select (s.setTerm t (resetTerm term))

/-- A TERMINAL entry applied, or none where it is refused (R164). -/
def applyTerminalEntry (t : TermId) (e : List Byte) (s : State) : Option State :=
  match terminalEntry e with
  | none => none
  | some entry =>
    if (entry.rows.filterMap id).all (fun n => (tableGet s.records n).isSome) then
      let s1 := s.setTerm t { s.line.terminals[t] with lock := entry.lock }
      let s2 := ((List.finRange 16).zip entry.rows).foldl (fun s' item => loadRow item s') s1
      some (setEnabled t entry.enabled s2)
    else none
where
  /-- One row item: unchanged where the row already holds it (R164). -/
  loadRow (item : Fin 16 × Option Nat) (s' : State) : State :=
    if ((s'.line.terminals[t]).rows[item.1]).record = item.2 then s'
    else changeRow t item.1 item.2 s'

/-! ## The end of a transaction and reception (R136, R137, R140) -/

/-- The disabling or the reset that waited for the end of the transaction (R137 steps 2 and 3). -/
def applyWaiting (t : TermId) (s : State) : State :=
  let term := s.line.terminals[t]
  if !term.enabled then s.setTerm t (disabledTerm term)
  else if term.resetPending then s.setTerm t (resetTerm term)
  else s

/-- The line freed: the night poll gap started in CLOSED, or the next terminal selected (R137 step 4,
R140). -/
def freeLine (s : State) : State :=
  let s' := s.setLine { s.line with transaction := none }
  if s.time.session = .closed ∧ param s 18 ≠ 0 then
    s'.setLine { s'.line with gap := startTimer (param s 18) }
  else select s'

/-- The end of the transaction in flight (R137). -/
def endTransaction (o : LineOutcome) (s : State) : State :=
  match s.line.transaction with
  | none => s
  | some tx => freeLine (applyWaiting tx.terminal (applyOutcome tx.kind tx.terminal o s))

/-- The last character of the primary frame sent: the response timeout starts (R137). -/
def frameSent (s : State) : State :=
  match s.line.transaction with
  | some tx =>
    if tx.sending then
      s.setLine
        { s.line with
          transaction := some
            { tx with
              sending := false, responseTicks := param s 16, timeout := startTimer (param s 16) } }
    else s
  | none => s

/-- Whether a response whose characters are given has been received whole. -/
def responseWhole (received : List Byte) : Bool :=
  4 ≤ received.length && received.length == at8 received 3 + 6

/-- One character taken while a response is awaited: passed over before the SOH, and otherwise
restarting the response timeout and, at a bad LEN or at the second CRC byte, ending the reception
(R136, R137). Passed over when none is awaited (R135). -/
def takeCharacter (b : Byte) (s : State) : State :=
  match s.line.transaction with
  | none => s
  | some tx =>
    if tx.sending then s
    else if tx.received = [] ∧ b ≠ 0x01 then s
    else
      let received := tx.received ++ [b]
      let s' := s.setLine
        { s.line with
          transaction := some
            { tx with received := received, timeout := startTimer tx.responseTicks } }
      if received.length = 4 ∧ maxTerminalLen < b.toNat then endTransaction .badFrame s'
      else if responseWhole received then
        endTransaction (receivedOutcome (tx.terminal.val + 1) received) s'
      else s'

/-- The expiry of the response timeout: a timeout before the SOH, a bad frame after it (R136). -/
def responseExpire (s : State) : State :=
  match s.line.transaction with
  | some tx =>
    if timerRuns tx.timeout then
      endTransaction (if tx.received = [] then .timeout else .badFrame) s
    else s
  | none => s

/-- The expiry of a probe timer (R141). -/
def probeExpire (t : TermId) (s : State) : State :=
  let term := s.line.terminals[t]
  if timerRuns term.probeTimer then
    select (s.setTerm t { term with probeTimer := none, probeDue := true })
  else s

/-- The expiry of the night poll gap (R140). -/
def gapExpire (s : State) : State :=
  if timerRuns s.line.gap then select (s.setLine { s.line with gap := none }) else s

/-- The end of night at the controller: a running gap is stopped, and a free line selects (R140). -/
def nightEnds (s : State) : State := select (s.setLine { s.line with gap := none })

end Sys2Proof.Machine
end

