-- ==== Sys2Proof/Machine/Tape.lean ====
section
/-!
DEFINITION. The ticker unit: admission of prints and announcements, lateness and the level,
composition, emission, flush and stop (chapter 7).
-/

namespace Sys2Proof.Machine

/-- The ticker replaced. -/
def onTicker (f : Ticker → Ticker) (s : State) : State := s.setTicker (f s.ticker)

/-- The capacity of the ticker queue (R115). -/
def tickerCapacity : Nat := 256

/-- The merged volume cap (R118, R168). -/
def mergedVolumeCap : Nat := 99999999

/-! ## Merging and removal (R117, R118) -/

/-- Whether two prints are of the same record and at the same price (R118). -/
def samePrint (p q : Print) : Bool :=
  p.record == q.record && p.symbol == q.symbol && p.price == q.price

/-- Whether an entry is a REGULAR PRINT that a REGULAR print p may be merged with. -/
def mergesWith (p : Print) : TickerEntry → Bool
  | .print q => q.condition == .regular && samePrint p q
  | .announce _ => false

/-- A print absorbing the volume of another (R118). -/
def absorb (p : Print) (volume : Nat) : Print :=
  { p with volume := min mergedVolumeCap (p.volume + volume) }

/-- An entry absorbing a print's volume. -/
def absorbInto (volume : Nat) : TickerEntry → TickerEntry
  | .print q => .print (absorb q volume)
  | .announce text => .announce text

/-- The first entry that a predicate picks changed. -/
def changeFirst (pick : TickerEntry → Bool) (f : TickerEntry → TickerEntry) :
    List TickerEntry → List TickerEntry
  | [] => []
  | e :: rest => if pick e then f e :: rest else e :: changeFirst pick f rest

/-- The youngest entry that p merges with absorbs it: the one nearest the tail (R117 step 1). -/
def mergeYoungest (p : Print) (queue : List TickerEntry) : List TickerEntry :=
  (changeFirst (mergesWith p) (absorbInto p.volume) queue.reverse).reverse

/-- Whether an entry is a PRINT of tape class B. -/
def isClassB : TickerEntry → Bool
  | .print p => p.tapeClass == .b
  | .announce _ => false

/-- Whether an entry is a PRINT. -/
def isPrint : TickerEntry → Bool
  | .print _ => true
  | .announce _ => false

/-- The queue without its oldest class B print, the one nearest the head. -/
def dropOldestB (queue : List TickerEntry) : List TickerEntry := queue.eraseP isClassB

/-- Omissions counted, each setting TAPE OMIT (R132). -/
def countOmitted (n : Nat) (s : State) : State :=
  let s' := onTicker (fun t => { t with omitted := t.omitted + BitVec.ofNat 24 n }) s
  if n = 0 then s' else raiseAlert .tapeOmit s'

/-- The queue replaced. -/
def setQueue (queue : List TickerEntry) (s : State) : State :=
  onTicker (fun t => { t with queue := queue }) s

/-! ## Admission (R116, R117, R119) -/

/-- The full-queue policy (R117). -/
def admitToFull (p : Print) (s : State) : State :=
  let queue := s.ticker.queue
  if p.condition = .regular ∧ queue.any (mergesWith p) then
    onTicker (fun t => { t with queue := mergeYoungest p queue, merged := t.merged + 1 }) s
  else if p.tapeClass = .b then countOmitted 1 s
  else if queue.any isClassB then
    countOmitted 1 (setQueue (dropOldestB queue ++ [.print p]) s)
  else countOmitted 1 s

/-- A print offered (R116). -/
def offerPrint (p : Print) (s : State) : State :=
  if s.ticker.state = .stopped ∨ p.tapeClass = .none then s
  else
    let s' := onTicker (fun t => { t with admitted := t.admitted + 1 }) s
    if s.ticker.queue.length < tickerCapacity then
      setQueue (s.ticker.queue ++ [.print p]) s'
    else admitToFull p s'

/-- An announcement placed at the head or the tail. -/
def placeText (atHead : Bool) (text : List Byte) (queue : List TickerEntry) : List TickerEntry :=
  if atHead then .announce text :: queue else queue ++ [.announce text]

/-- An announcement offered (R119). A text of length 0 is no announcement. -/
def offerText (atHead : Bool) (text : List Byte) (s : State) : State :=
  let queue := s.ticker.queue
  if s.ticker.state = .stopped ∨ text = [] then s
  else if queue.length < tickerCapacity then setQueue (placeText atHead text queue) s
  else if queue.any isClassB then
    countOmitted 1 (setQueue (placeText atHead text (dropOldestB queue)) s)
  else s

/-! ## Lateness and the level (R121, R122) -/

/-- A time in seconds of day. -/
def secondsOf (t : TimeOfDay) : Nat := t.hour * 3600 + t.minute * 60 + t.second

/-- The lateness Λ of a print (R121). -/
def latenessOf (tb : TimeBase) (t : TimeOfDay) : Nat :=
  let raw := (tb.clock + 86400 - secondsOf t) % 86400
  if tb.clockSet ∧ raw ≤ 43200 then raw else 0

/-- The threshold U1 to U4 of a level. -/
def threshold (s : State) (level : Nat) : Nat :=
  match level with
  | 1 => param s 9
  | 2 => param s 10
  | 3 => param s 11
  | _ => param s 12

/-- k of R122: the largest index whose threshold the lateness reaches. -/
def calledLevel (s : State) (lateness : Nat) : Nat :=
  if threshold s 4 ≤ lateness then 4
  else if threshold s 3 ≤ lateness then 3
  else if threshold s 2 ≤ lateness then 2
  else if threshold s 1 ≤ lateness then 1
  else 0

/-- The level after the update of R122. Subtraction of naturals gives max(0, U − H). -/
def nextLevel (s : State) (lateness : Nat) : Nat :=
  let level := s.ticker.level
  if level < calledLevel s lateness then calledLevel s lateness
  else if 0 < level ∧ lateness < threshold s level - param s 13 then level - 1
  else level

/-- A level change handed on (R122 step 4). -/
def handLevel (s : State) : State := statusLinesPending (markStatus s)

/-- The level announcement (R122 step 5). -/
def levelText (old new lateMinutes : Nat) : List Byte :=
  if old < new then
    if lateMinutes = 0 then textTapeLate else textTapeLateMinutes lateMinutes
  else if new = 0 then textTapeCurrent else []

/-- The level updated at the composition of a print (R122). -/
def updateLevel (lateness : Nat) (s : State) : State :=
  let old := s.ticker.level
  let new := nextLevel s lateness
  if new = old then s
  else
    let minutes := lateness / 60
    let s1 := onTicker (fun t =>
      { t with level := new, lateMinutes := minutes,
               epoch := if old ≤ 1 ∧ 2 ≤ new then t.epoch + 1 else t.epoch }) s
    offerText true (levelText old new minutes) (handLevel (raiseAlert .tapeLevel s1))

/-! ## Composing a print (R123 to R127) -/

/-- The record that matches a print: DEFINED with the print's symbol (R123). -/
def matchingRecord (s : State) (p : Print) : Option QuoteRecord :=
  match tableGet s.records p.record with
  | some r => if r.symbol = p.symbol then some r else none
  | none => none

/-- Condensation at a level of 3 or 4 (R124). -/
def condense (p : Print) (s : State) : Print × State :=
  if 3 ≤ s.ticker.level ∧ p.condition = .regular then
    let merged := s.ticker.queue.filter (mergesWith p)
    let volume := (merged.map (fun e => match e with
      | .print q => q.volume
      | .announce _ => 0)).sum
    (if merged = [] then p else absorb p volume,
      onTicker (fun t =>
        { t with queue := t.queue.filter (fun e => !mergesWith p e),
                 merged := t.merged + BitVec.ofNat 24 merged.length }) s)
  else (p, s)

/-- The volume part at a level (R36, R125). -/
def volumeAtLevel (s : State) (p : Print) : List Byte :=
  if 1 ≤ s.ticker.level ∧ p.volume < param s 14 * 100 then [] else volumePart p.volume

/-- Whether the leading digits are deleted (R126). -/
def deletesDigits (s : State) (r : QuoteRecord) (whole : Nat) : Bool :=
  match r.tapeWhole with
  | none => false
  | some last =>
    2 ≤ s.ticker.level && r.tapeEpoch == s.ticker.epoch && whole / 10 == last / 10

/-- The tape price of a print (R35, R126): in sixteenths and in full where no record matches. -/
def priceAtLevel (s : State) (p : Print) : List Byte :=
  match matchingRecord s p with
  | none => tapePrice .sixteenths p.price false
  | some r => tapePrice r.denom p.price (deletesDigits s r (tapeWholeOf r.denom p.price))

/-- The tape fields of a matching record set (R127). -/
def setTapeFields (p : Print) (s : State) : State :=
  match matchingRecord s p with
  | none => s
  | some r =>
    s.setRecords (tableSet s.records p.record
      { r with tapeWhole := some (tapeWholeOf r.denom p.price), tapeEpoch := s.ticker.epoch })

/-- A text begun: its first character is emitted at the step, and the separator is due at once after
a text of one character (R120, R128). -/
def beginText (text : List Byte) (s : State) : State :=
  onTicker (fun t =>
    { t with text := text, cursor := 1, separator := if text.length ≤ 1 then 2 else 0,
             out := some (text.headD chBlank) }) s

/-- A print composed once its level is settled (R123 steps 3 to 5). -/
def printComposed (p : Print) (s : State) : State :=
  let (q, s1) := condense p s
  let text := printText q (volumeAtLevel s1 q) (priceAtLevel s1 q)
  let s2 := onTicker (fun t => { t with printed := t.printed + 1 }) (setTapeFields q s1)
  beginText text s2

/-- Composition: entries are taken from the head until a text is made or the queue is empty; the flag
says whether a text was made (R120, R123). Each round removes a print, or makes a text, so a round more
than the entries in the queue is enough. -/
def compose : Nat → State → Bool × State
  | 0, s => (false, s)
  | k + 1, s =>
    match s.ticker.queue with
    | [] => (false, s)
    | .announce text :: rest => (true, beginText text (setQueue rest s))
    | .print p :: rest =>
      let s1 := updateLevel (latenessOf s.time p.time) (setQueue rest s)
      if s1.ticker.level = 4 ∧ p.tapeClass = .b then compose k (countOmitted 1 s1)
      else (true, printComposed p s1)

/-! ## States and steps (R112 to R114, R128, R129) -/

/-- The step interval of the level as it stands (R129). -/
def stepInterval (s : State) : Nat := if s.ticker.level ≤ 2 then param s 7 else param s 8

/-- Entry to STOPPED (R114): the output is held blank after the stopping step. -/
def stopTicker (s : State) : State :=
  let s1 := onTicker (fun t =>
    { t with state := .stopped, stepTimer := none, text := [], cursor := 0, separator := 0,
             level := 0, lateMinutes := 0 }) s
  if s.ticker.level = 0 then s1 else handLevel s1

/-- A blank emitted. -/
def emitBlank (s : State) : State := onTicker (fun t => { t with out := some chBlank }) s

/-- A composition step (R114, R120). -/
def compositionStep (s : State) : State :=
  match compose (s.ticker.queue.length + 1) s with
  | (true, s') => s'
  | (false, s') =>
    if s'.ticker.state = .draining then stopTicker (emitBlank s')
    else emitBlank s'

/-- What a step emits (R128). -/
def emitStep (s : State) : State :=
  let t := s.ticker
  if t.cursor < t.text.length then
    s.setTicker
      { t with out := t.text[t.cursor]?, cursor := t.cursor + 1,
               separator := if t.cursor + 1 = t.text.length then 2 else t.separator }
  else if 0 < t.separator then
    s.setTicker { t with out := some chBlank, separator := t.separator - 1 }
  else compositionStep s

/-- The step timer restarted with the interval for the level after the step's work, unless the step
stopped the ticker (R129). -/
def restartStep (s : State) : State :=
  if s.ticker.state = .stopped then s
  else onTicker (fun t => { t with stepTimer := startTimer (stepInterval s) }) s

/-- The expiry of the step timer (R128). -/
def stepExpire (s : State) : State :=
  if timerRuns s.ticker.stepTimer ∧ s.ticker.state ≠ .stopped then restartStep (emitStep s) else s

/-- The ticker's reaction to a session change (R113). -/
def tickerSession (old new : SessionState) (s : State) : State :=
  if old = .closed ∧ (new = .preOpen ∨ new = .openMarket) then
    if s.ticker.state = .stopped then
      onTicker (fun t =>
        { t with state := .running, text := [], cursor := 0, separator := 0,
                 stepTimer := startTimer (stepInterval s) }) s
    else onTicker (fun t => { t with state := .running }) s
  else if new = .closed ∧ s.ticker.state = .running then
    onTicker (fun t => { t with state := .draining }) s
  else s

/-- TICKER FLUSH (R130). -/
def tickerFlushAt (s : State) : State :=
  countOmitted (s.ticker.queue.countP isPrint) (setQueue [] s)

/-- The day reset of the ticker (R131). -/
def tickerDayReset (s : State) : State :=
  let s1 := onTicker (fun t =>
    { t with queue := [], admitted := 0, printed := 0, merged := 0, omitted := 0, level := 0,
             lateMinutes := 0 }) s
  if s.ticker.level = 0 then s1 else handLevel s1

end Sys2Proof.Machine
end

