-- ==== Sys2Proof/Machine/Records.lean ====
section
/-!
DEFINITION. The record processor: the symbol directory, the hand-off of change sets and deletions,
stale marking, TRADE, QUOTE, SYMBOL STATE, RECAP, SYMBOL entries and the day reset of the records
(chapter 1).
-/

namespace Sys2Proof.Machine

/-! ## The symbol directory (R2 to R4) -/

/-- A code inserted at its sorted position. -/
def directoryInsert (c : SymbolCode) (n : Nat) : List (SymbolCode × Nat) → List (SymbolCode × Nat)
  | [] => [(c, n)]
  | e :: rest =>
    if symbolKey c < symbolKey e.1 then (c, n) :: e :: rest else e :: directoryInsert c n rest

/-- A code removed. -/
def directoryRemove (c : SymbolCode) (d : List (SymbolCode × Nat)) : List (SymbolCode × Nat) :=
  d.filter (fun e => e.1 ≠ c)

/-! ## Hand-offs (R9, R12) -/

/-- A change set handed to the slot composer and to the watch manager; an empty one to neither
(R12). -/
def handNames (n : Nat) (names : NameSet) (s : State) : State :=
  if names = 0 then s else rowsTakeNames n names (slotsTakeNames n names s)

/-- A record replaced in one update, and the update's change set handed on (R6, R12). -/
def updateRecord (n : Nat) (r : QuoteRecord) (names : NameSet) (s : State) : State :=
  handNames n names (s.setRecords (tableSet s.records n r))

/-! ## Net change and stale marks (R20, R21) -/

/-- The net change of a last price and a previous close (R20). -/
def netChangeOf (last : Option Nat) (prevClose : Nat) : Int :=
  match last with
  | some p => (p : Int) - prevClose
  | none => 0

/-- One record marked stale, if its mark was clear (R21). -/
def markStale (s : State) (n : Nat) : State :=
  match tableGet s.records n with
  | some r => if r.stale then s else updateRecord n { r with stale := true } nameStale s
  | none => s

/-- The numbers of the DEFINED records, in record number order. -/
def definedNumbers (s : State) : List Nat := s.records.map Prod.fst

/-- Every DEFINED record marked stale, in record number order (R6, R21). -/
def markAllStale (s : State) : State := (definedNumbers s).foldl markStale s

/-! ## TRADE (R13 to R15) -/

/-- The tick rule (Table 1-5). -/
def tickRule (price reference : Nat) (prior : Tick) : Tick :=
  if reference < price then .up
  else if price < reference then .down
  else match prior with
    | .down => .zeroMinus
    | .zeroMinus => .zeroMinus
    | .up => .zeroPlus
    | .zeroPlus => .zeroPlus
    | .none => .zeroPlus

/-- The prior direction of a record (R15). -/
def priorTick (r : QuoteRecord) : Tick := if r.tick = .none then r.carryTick else r.tick

/-- The greater and the lesser of an optional price and a price. -/
def raiseTo (high : Option Nat) (price : Nat) : Option Nat := some (max (high.getD price) price)
def lowerTo (low : Option Nat) (price : Nat) : Option Nat := some (min (low.getD price) price)

/-- The limit of the cumulative volume (R13). -/
def volumeLimit : Nat := 999999999

/-- The changes every trade makes (R13). -/
def tradeAny (t : TradeItems) (r : QuoteRecord) : QuoteRecord :=
  { r with
    volume := min volumeLimit (r.volume + t.volume), high := raiseTo r.high t.price,
    low := lowerTo r.low t.price, lastTime := some t.time,
    state := if r.state = .notOpen then .trading else r.state }

/-- The changes a REGULAR or OPENING trade makes besides (R13, R15, R20). -/
def tradeLast (t : TradeItems) (r : QuoteRecord) : QuoteRecord :=
  { r with
    tick := tickRule t.price (r.last.getD r.prevClose) (priorTick r), last := some t.price,
    netChange := netChangeOf (some t.price) r.prevClose }

/-- A record after a TRADE (R13). -/
def tradedRecord (t : TradeItems) (r : QuoteRecord) : QuoteRecord :=
  if setsLast t.condition then tradeLast t (tradeAny t r) else tradeAny t r

/-- The offer a TRADE makes to the ticker (R14). -/
def tradeOffer (n : Nat) (t : TradeItems) (r : QuoteRecord) : Print :=
  { record := n, symbol := r.symbol, price := t.price, volume := t.volume, time := t.time,
    condition := t.condition, tapeClass := r.tapeClass }

/-- A TRADE applied (R13, R14); one whose symbol is not found is ignored (R4). -/
def applyTrade (t : TradeItems) (s : State) : State :=
  match lookup s.directory t.symbol with
  | none => s
  | some n =>
    match tableGet s.records n with
    | none => s
    | some r =>
      let r' := tradedRecord t r
      let s' := updateRecord n r' (tradeNames t.condition r r') s
      if 100 ≤ t.volume then offerPrint (tradeOffer n t r) s' else s'

/-! ## QUOTE, SYMBOL STATE and RECAP (R16 to R19) -/

/-- A QUOTE applied (R16). -/
def applyQuote (q : QuoteItems) (s : State) : State :=
  match lookup s.directory q.symbol with
  | none => s
  | some n =>
    match tableGet s.records n with
    | none => s
    | some r =>
      let r' := { r with bid := q.bid, ask := q.ask }
      updateRecord n r' (quoteNames r r') s

/-- The trading state that a HALT or a RESUME gives (R17). -/
def stateAfter (halt : Bool) (r : QuoteRecord) : TradingState :=
  if halt then .halted else if r.last.isSome then .trading else .notOpen

/-- The HALTED or RESUMED announcement (R17). -/
def haltText (halt : Bool) (c : SymbolCode) : List Byte :=
  tapeSymbol c ++ (if halt then textHalted else textResumed)

/-- A SYMBOL STATE applied (R17). -/
def applySymbolState (q : SymbolStateItems) (s : State) : State :=
  match lookup s.directory q.symbol with
  | none => s
  | some n =>
    match tableGet s.records n with
    | none => s
    | some r =>
      let r' := { r with state := stateAfter q.halt r }
      if r'.state = r.state then s
      else
        let s' := updateRecord n r' nameState s
        if r.tapeClass = .none then s' else offerText false (haltText q.halt r.symbol) s'

/-- A high and a low brought to include the last price (R19). -/
def adjustRange (r : QuoteRecord) : QuoteRecord :=
  match r.last with
  | none => r
  | some p => { r with high := raiseTo r.high p, low := lowerTo r.low p }

/-- A record after a RECAP (R18, R19, R20). -/
def recappedRecord (feedLost : Bool) (q : RecapItems) (r : QuoteRecord) : QuoteRecord :=
  adjustRange
    { r with
      state := q.state, prevClose := q.prevClose, last := q.last,
      tick := if q.last.isNone then .none else q.tick, high := q.high, low := q.low,
      volume := q.volume, bid := q.bid, ask := q.ask,
      netChange := netChangeOf q.last q.prevClose, stale := r.stale && feedLost }

/-- Whether the feed state is LOST. -/
def feedLost (s : State) : Bool := s.feed.feedState == .lost

/-- A RECAP applied (R18). -/
def applyRecap (q : RecapItems) (s : State) : State :=
  match lookup s.directory q.symbol with
  | none => s
  | some n =>
    match tableGet s.records n with
    | none => s
    | some r =>
      let r' := recappedRecord (feedLost s) q r
      updateRecord n r' (recapNames r r') s

/-! ## SYMBOL entries (R7 to R11) -/

/-- The record a definition gives (R8). -/
def definedRecord (lost : Bool) (e : SymbolEntry) : QuoteRecord :=
  { emptyRecord with
    symbol := e.symbol, tapeClass := e.tapeClass, denom := e.denom, prevClose := e.prevClose,
    stale := lost }

/-- A definition (R8). -/
def defineRecord (n : Nat) (e : SymbolEntry) (s : State) : State :=
  updateRecord n (definedRecord (feedLost s) e) allNames
    (s.setDirectory (directoryInsert e.symbol n s.directory))

/-- A deletion of record n handed to the slot composer and the watch manager (R9). -/
def handDeletion (n : Nat) (s : State) : State := rowsTakeDeletion n (slotsTakeDeletion n s)

/-- A deletion of a DEFINED record holding a symbol (R9). -/
def deleteRecord (n : Nat) (symbol : SymbolCode) (s : State) : State :=
  handDeletion n
    ((s.setDirectory (directoryRemove symbol s.directory)).setRecords (tableErase s.records n))

/-- A rename of a DEFINED record holding a symbol (R10): the deletion and the definition are one update
(R6), so that no reader finds the record EMPTY between them, and the consumers receive the deletion and
then the change set of the definition. -/
def renameRecord (n : Nat) (symbol : SymbolCode) (e : SymbolEntry) (s : State) : State :=
  let directory := directoryInsert e.symbol n (directoryRemove symbol s.directory)
  let records := tableSet s.records n (definedRecord (feedLost s) e)
  handNames n allNames (handDeletion n ((s.setDirectory directory).setRecords records))

/-- A record after a static update (R11, R20). -/
def staticRecord (e : SymbolEntry) (r : QuoteRecord) : QuoteRecord :=
  { r with tapeClass := e.tapeClass, denom := e.denom, prevClose := e.prevClose,
           netChange := netChangeOf r.last e.prevClose }

/-- Whether a symbol is held by a DEFINED record other than n (R7). -/
def heldElsewhere (s : State) (n : Nat) (c : SymbolCode) : Bool :=
  match lookup s.directory c with
  | some m => m ≠ n
  | none => false

/-- A SYMBOL entry applied to record n, or none where R7 refuses it (Table 1-3). -/
def applySymbolEntry (n : Nat) (bytes : List Byte) (s : State) : Option State :=
  match symbolEntry bytes with
  | none => none
  | some e =>
    if e.symbol ≠ blankSymbol ∧ heldElsewhere s n e.symbol then none
    else match tableGet s.records n with
      | none => if e.symbol = blankSymbol then some s else some (defineRecord n e s)
      | some r =>
        if e.symbol = blankSymbol then some (deleteRecord n r.symbol s)
        else if e.symbol = r.symbol then
          some (updateRecord n (staticRecord e r) (staticNames r (staticRecord e r)) s)
        else some (renameRecord n r.symbol e s)

/-! ## Day reset (R22) -/

/-- A record reset for the new day. -/
def dayResetRecord (lost : Bool) (r : QuoteRecord) : QuoteRecord :=
  { r with
    prevClose := r.last.getD r.prevClose, carryTick := r.tick, tick := .none, last := none,
    high := none, low := none, bid := none, ask := none, lastTime := none, tapeWhole := none,
    volume := 0, netChange := 0, state := .notOpen, stale := r.stale && lost }

/-- One record's day reset, with its full change set. -/
def dayResetOne (s : State) (n : Nat) : State :=
  match tableGet s.records n with
  | some r => updateRecord n (dayResetRecord (feedLost s) r) allNames s
  | none => s

/-- The day reset of the records, in record number order. -/
def recordsDayReset (s : State) : State := (definedNumbers s).foldl dayResetOne s

end Sys2Proof.Machine
end

