-- ==== Sys2Proof/Machine/FeedLine.lean ====
section
/-!
DEFINITION. The feed receiver and the intake queue: bits into frames, the arrival of a CRC-valid
frame, the silence watchdog, and the taking of the queue's head entry (chapter 3).
-/

namespace Sys2Proof.Machine

/-! ## Changes of the feed state (R54) -/

/-- A new feed state passed to the blocks that show it. -/
def handFeedState (new : FeedState) (s : State) : State :=
  let s' := statusLinesPending (markStatus s)
  if new = .lost then offerText false textFeedInterrupted s' else s'

/-- The feed state set, and passed on if it changed. -/
def setFeedState (new : FeedState) (s : State) : State :=
  if s.feed.feedState = new then s
  else handFeedState new (s.setFeed { s.feed with feedState := new })

/-! ## Reception (R38 to R40) -/

/-- SYNC, 5Ah. -/
def syncByte : Byte := 0x5A

/-- What a bit brings about beside the receiver's own state. -/
inductive RxEvent where
  | none
  | arrived (body : List Byte)
  deriving DecidableEq, Repr

/-- One aligned byte taken by the receiver; its bits start afresh. -/
def takeByte (b : Byte) (r : Receiver) : Receiver × RxEvent :=
  let r := { r with window := 0, nbits := 0 }
  match r.state with
  | .hunt => if b = syncByte then ({ r with state := .length }, .none) else (huntReceiver, .none)
  | .length =>
    if b = syncByte then (r, .none)
    else if 6 ≤ b.toNat ∧ b.toNat ≤ 88 then
      ({ r with state := .body, length := b.toNat, body := [], crc := crcByte 0xFFFF b }, .none)
    else (huntReceiver, .none)
  | .body =>
    let body := r.body ++ [b]
    ({ r with body := body, crc := crcByte r.crc b, crcHigh := Option.none,
              state := if r.length ≤ body.length then .check else .body }, .none)
  | .check =>
    match r.crcHigh with
    | Option.none => ({ r with crcHigh := some b }, .none)
    | some high =>
      (huntReceiver, if wordBytes r.crc = [high, b] then .arrived r.body else .none)

/-- One bit taken: searched for SYNC while HUNT is not aligned, and gathered into a byte otherwise. -/
def takeBit (bit : Bool) (r : Receiver) : Receiver × RxEvent :=
  let window : Byte := (r.window <<< 1) ||| (if bit then 1 else 0)
  let nbits := min 8 (r.nbits + 1)
  if r.state = .hunt ∧ !r.aligned then
    if nbits = 8 ∧ window = syncByte then
      ({ r with aligned := true, window := 0, nbits := 0 }, .none)
    else ({ r with window := window, nbits := nbits }, .none)
  else if nbits = 8 then takeByte window r
  else ({ r with window := window, nbits := nbits }, .none)

/-! ## Arrival (R42 to R46) -/

/-- The silence timer as a CRC-valid arrival restarts it (R51). -/
def silenceTimer (s : State) : Timer :=
  if param s 4 = 0 then none else startTimer (param s 4 * 1000)

/-- R42: the timer restarted, the feed state RUNNING, gap-owed set on leaving LOST. -/
def arrivalSeen (s : State) : State :=
  setFeedState .running
    (s.setFeed { s.feed with
      silence := silenceTimer s, gapOwed := s.feed.gapOwed || feedLost s })

/-- Whether a TYPE is market data (R43). -/
def isMarketData (type : Nat) : Bool := 0x20 ≤ type && type ≤ 0x3F

/-- The outcomes of the sequence check. -/
inductive SequenceCheck where
  | inOrder
  | gap
  | old
  deriving DecidableEq, Repr

/-- The judgement of a sequence number (R43). -/
def judgeSequence (expected : Option (BitVec 16)) (seq : BitVec 16) : SequenceCheck :=
  match expected with
  | none => .inOrder
  | some e =>
    if seq - e = 0 then .inOrder else if (seq - e).toNat ≤ 32767 then .gap else .old

/-- The sequence check of a frame (R43): the state after it, or none where the frame is old. -/
def sequenceChecked (body : List Byte) (s : State) : Option State :=
  if isMarketData (frameType body) then
    let next := s.setFeed { s.feed with expected := some (seqTag body + 1) }
    match judgeSequence s.feed.expected (seqTag body) with
    | .inOrder => some next
    | .gap => some (raiseAlert .feedGap (next.setFeed { next.feed with gapOwed := true }))
    | .old => none
  else some s

/-- Address recognition (R44). -/
def addressed (body : List Byte) (s : State) : Bool :=
  let group := (destGroup body).toNat
  let station := (destStation body).toNat
  (group == 0xFF
      || (group ≠ 0 && (param s 0 == group || param s 1 == group || param s 2 == group
        || param s 3 == group)))
    && (station == 0
      || (station == s.feed.station.toNat && station ≠ 0 && station ≠ 63))

/-- Whether a TYPE names a frame taken from the feed line (R45). -/
def typeTaken (type : Nat) : Bool :=
  (0x21 ≤ type && type ≤ 0x27) || (0x41 ≤ type && type ≤ 0x45)

/-- The capacity of the intake queue (R47). -/
def intakeCapacity : Nat := 16

/-- The offer to the intake queue (R46). -/
def offerIntake (body : List Byte) (s : State) : State :=
  if s.intake.length < intakeCapacity then
    (s.setIntake (s.intake ++ [{ body := body, gapBefore := s.feed.gapOwed }])).setFeed
      { s.feed with gapOwed := false }
  else s.setFeed { s.feed with gapOwed := true }

/-- The arrival of a CRC-valid frame: its checks in order (R42 to R46). -/
def arrive (body : List Byte) (s : State) : State :=
  let s1 := arrivalSeen s
  match sequenceChecked body s1 with
  | none => s1
  | some s2 =>
    if addressed body s2 && typeTaken (frameType body) then offerIntake body s2 else s2

/-- The receiver's new state stored, and an arrival taken. -/
def settleReception (r : Receiver × RxEvent) (s : State) : State :=
  let s' := s.setFeed { s.feed with rx := r.1 }
  match r.2 with
  | .none => s'
  | .arrived body => arrive body s'

/-- One bit of the feed line. -/
def feedBit (s : State) (bit : Bool) : State := settleReception (takeBit bit s.feed.rx) s

/-- A run of bits of the feed line. -/
def feedBits (bits : List Bool) (s : State) : State := bits.foldl feedBit s

/-- The bits of one unit of the line. -/
def unitBits : LineUnit → List Bool
  | .bit b => [b]
  | .byte b => bitsOf b

/-- Whether the receiver stands before the second CRC byte of a frame. -/
def awaitsLastByte (r : Receiver) : Bool :=
  r.state == .check && r.crcHigh.isSome && r.nbits == 0

/-- The second CRC byte (R40): the frame's CRC is judged. Where the receiver does not stand before it,
the byte is line content like any other. -/
def takeLastByte (crcLow : Byte) (s : State) : State :=
  if awaitsLastByte s.feed.rx then settleReception (takeByte crcLow s.feed.rx) s
  else feedBits (bitsOf crcLow) s

/-! ## The silence watchdog (R51, R52) -/

/-- The expiry of the silence timer (R52). -/
def silenceExpire (s : State) : State :=
  if timerRuns s.feed.silence then
    let s1 := raiseAlert .feedLost
      (s.setFeed { s.feed with feedState := .lost, silence := none })
    handFeedState .lost (markAllStale s1)
  else s

/-! ## The head of the intake queue (R47 to R50) -/

/-- The head entry taken, if it calls for the step: gap-before delivered (R48), the frame applied, the
entry gone at the frame applied completion (R50). While the queue is empty, or its head calls for
another step, there is nothing to take. -/
def takeHead (step : FrameStep) (apply : List Byte → State → State) (s : State) : State :=
  match s.intake with
  | [] => s
  | e :: _ =>
    if frameStep e.body = step then
      let s1 := if e.gapBefore then markAllStale s else s
      let s2 := apply e.body s1
      s2.setIntake (s2.intake.drop 1)
    else s

/-- A market data frame applied, or discarded where its payload is malformed (R49). -/
def applyItems {α : Type} (items : List Byte → Option α) (apply : α → State → State)
    (body : List Byte) (s : State) : State :=
  match items (payload body) with
  | some x => apply x s
  | none => s

end Sys2Proof.Machine
end

