-- ==== Sys2Proof/Machine/Clock.lean ====
section
/-!
DEFINITION. The time base and the bulletin stacks: the exchange clock, minute changes, the session
with its hand-offs and the day reset (chapter 4), and BULLETIN frames (chapter 6).
-/

namespace Sys2Proof.Machine

/-! ## Exchange clock (R59 to R61) -/

/-- A minute change handed on (R61). -/
def minuteChange (s : State) : State := statusLinesPending (markClocks s)

/-- The clock one second on, wrapping at midnight (R59). -/
def advancedClock (clock : Nat) : Nat := if clock = 86399 then 0 else clock + 1

/-- The second phase reaching 1000: the clock advances and the phase starts from 0 (R59). -/
def secondExpire (s : State) : State :=
  let next := advancedClock s.time.clock
  let s' := s.setTime { s.time with clock := next, phaseTicks := 0 }
  if s.time.clockSet ∧ next / 60 ≠ s.time.clock / 60 then minuteChange s' else s'

/-- A CLOCK frame applied (R60). -/
def applyClock (t : TimeOfDay) (s : State) : State :=
  let next := secondsOf t
  let s' := s.setTime { s.time with clock := next, clockSet := true, phaseTicks := 0 }
  if s.time.clockSet = false ∨ next / 60 ≠ s.time.clock / 60 then minuteChange s' else s'

/-! ## Session (R62 to R66) -/

/-- The state an accepted SESSION code gives, or none where the code is ignored (Table 4-3, R63). -/
def sessionAfter (code : SessionCode) (session : SessionState) : Option SessionState :=
  match code, session with
  | .preOpen, .closed => some .preOpen
  | .openMarket, .closed => some .openMarket
  | .openMarket, .preOpen => some .openMarket
  | .haltAll, .openMarket => some .haltedAll
  | .resumeAll, .haltedAll => some .openMarket
  | .close, _ => some .closed
  | _, _ => none

/-- The terminal line controller's reaction: the flags, and the end of the night poll gap (R140,
R150). -/
def lineSession (old : SessionState) (s : State) : State :=
  let s' := statusLinesPending s
  if old = .closed then nightEnds s' else s'

/-- A session change handed to the slot composer, the ticker unit and the terminal line controller
(R64). The chain controllers take the new brightness at their next PWM period (R87). -/
def handSession (old new : SessionState) (s : State) : State :=
  lineSession old (tickerSession old new (markStatus s))

/-- The day reset handed to the records, the ticker and the slots (R65). -/
def dayReset (s : State) : State := markAllSlots (tickerDayReset (recordsDayReset s))

/-- A SESSION frame applied (R62 to R65). -/
def applySession (code : SessionCode) (s : State) : State :=
  let old := s.time.session
  match sessionAfter code old with
  | none => s
  | some new =>
    if new = old then s
    else
      let s' := handSession old new (s.setTime { s.time with session := new })
      if new = .preOpen then dayReset s' else s'

/-! ## Bulletin stacks (R105 to R109) -/

/-- The capacity of a bulletin stack (R106). -/
def stackCapacity : Nat := 4

/-- The entry now on top offered to the tape, where its flag is set (R106). -/
def offerUncovered (stack : List BulletinEntry) (s : State) : State :=
  match stack with
  | [] => s
  | top :: _ => if top.tapeFlag then offerText false top.text s else s

/-- The entry that a PUSH places (R107). -/
def pushedEntry (b : BulletinItems) : BulletinEntry :=
  { text := b.text, timer := if b.duration = 0 then none else startTimer (b.duration * 1000),
    tapeFlag := b.tapeFlag }

/-- A PUSH applied; a full stack loses its bottom entry (R107). -/
def applyPush (b : BulletinItems) (s : State) : State :=
  let stack := pushedEntry b :: (s.bulletins[b.stack]).take (stackCapacity - 1)
  let s' := markMessages b.stack (s.setStack b.stack stack)
  if b.tapeFlag then offerText false b.text s' else s'

/-- A POP applied (R108). -/
def applyPop (b : BulletinItems) (s : State) : State :=
  match s.bulletins[b.stack] with
  | [] => s
  | _ :: rest => offerUncovered rest (markMessages b.stack (s.setStack b.stack rest))

/-- A CLEAR applied (R108). -/
def applyClear (b : BulletinItems) (s : State) : State :=
  match s.bulletins[b.stack] with
  | [] => s
  | _ :: _ => markMessages b.stack (s.setStack b.stack [])

/-- The expiry of the duration timer of the entry `position` places below the top (R109). -/
def bulletinExpire (k : StackId) (position : Nat) (s : State) : State :=
  match (s.bulletins[k])[position]? with
  | none => s
  | some e =>
    if timerRuns e.timer then
      let rest := (s.bulletins[k]).eraseIdx position
      let s' := s.setStack k rest
      if position = 0 then offerUncovered rest (markMessages k s') else s'
    else s

end Sys2Proof.Machine
end

