-- ==== Sys2Proof/Machine/Responder.lean ====
section
/-!
DEFINITION. The management responder: LOAD, READ, REPORT and CONTROL, refused frames, and the return
transmitter (chapter 10, with the layouts of chapter 11).
-/

namespace Sys2Proof.Machine

/-! ## Result codes (R166) -/

def codeDone : Byte := 0x00
def codeBadTable : Byte := 0x01
def codeBadRange : Byte := 0x02
def codeBadLength : Byte := 0x03
def codeBadEntry : Byte := 0x04
def codeBadCommand : Byte := 0x05

/-- A REPLY to a frame queued. -/
def replyTo (body : List Byte) (answer : List Byte) (s : State) : State :=
  queueReply (seqTag body) answer s

/-! ## LOAD (R167) -/

/-- The first check that a LOAD fails, as its result code: its header's length, its range, its length
(R167). -/
def loadCheck (size entrySize : Nat) (p : List Byte) : Option Byte :=
  if p.length < 5 then some codeBadLength
  else if size < at16 p 1 + at16 p 3 then some codeBadRange
  else if p.length ≠ 5 + at16 p 3 * entrySize then some codeBadLength
  else none

/-- The end of a LOAD: its REPLY, and its entry gone from the intake queue (R50, R167). -/
def loadEnds (body answer : List Byte) (s : State) : State :=
  let s' := (replyTo body answer s).setLoad none
  s'.setIntake (s'.intake.drop 1)

/-- The next entry of a LOAD of which `done` are applied, against the state the earlier ones left. The
LOAD ends at its last entry or at the first refused one, and otherwise waits with its place kept
(R167). -/
def loadNext (entrySize : Nat) (apply : Nat → List Byte → State → Option State) (body : List Byte)
    (done : Nat) (s : State) : State :=
  let p := payload body
  if at16 p 3 ≤ done then loadEnds body [codeDone] s
  else
    match apply (at16 p 1 + done) ((p.drop (5 + done * entrySize)).take entrySize) s with
    | none => loadEnds body (codeBadEntry :: bytes2 done) s
    | some s' =>
      if at16 p 3 ≤ done + 1 then loadEnds body [codeDone] s' else s'.setLoad (some (done + 1))

/-- One step of a LOAD of one table, whose size, entry size and owner's rule are given, at the head of the
intake queue: begun with its gap-before marking and its checks (R48, R167), or gone on with from the
place it was left at. A step takes one entry, so that an event of another block may fall between two
(DESIGN CHOICE, log entry 29). -/
def takeLoad (step : FrameStep) (size entrySize : Nat)
    (apply : Nat → List Byte → State → Option State) (s : State) : State :=
  match s.intake with
  | [] => s
  | e :: _ =>
    if frameStep e.body = step then
      match s.load with
      | some done => loadNext entrySize apply e.body done s
      | none =>
        let s1 := if e.gapBefore then markAllStale s else s
        match loadCheck size entrySize (payload e.body) with
        | some code => loadEnds e.body [code] s1
        | none => loadNext entrySize apply e.body 0 s1
    else s

/-! ## PARAM entries (R51, R168) -/

/-- Whether a threshold value keeps the four strictly increasing (R168). `i` is 9 to 12. -/
def thresholdOk (s : State) (i v : Nat) : Bool :=
  1 ≤ v && v ≤ 3600
    && (match i with
      | 9 => v < param s 10
      | 10 => param s 9 < v && v < param s 11
      | 11 => param s 10 < v && v < param s 12
      | _ => param s 11 < v)

/-- The value stored for a parameter, or none where Table 10-1 refuses it. -/
def paramStored (s : State) (i v : Nat) : Option Nat :=
  match i with
  | 0 => if v ≤ 254 then some v else none
  | 1 => if v ≤ 254 then some v else none
  | 2 => if v ≤ 254 then some v else none
  | 3 => if v ≤ 254 then some v else none
  | 4 => some (min 60 v)
  | 5 => some (min 50 v)
  | 6 => some (clamp 2 20 v)
  | 7 => some (clamp 8 250 v)
  | 8 => some (clamp 8 250 v)
  | 9 => if thresholdOk s 9 v then some v else none
  | 10 => if thresholdOk s 10 v then some v else none
  | 11 => if thresholdOk s 11 v then some v else none
  | 12 => if thresholdOk s 12 v then some v else none
  | 13 => some (min 600 v)
  | 14 => if v = 0 then none else some v
  | 15 => if v ≤ 3 then some v else none
  | 16 => some (clamp 20 500 v)
  | 17 => some (clamp 1 60 v)
  | 18 => some (min 2000 v)
  | _ => none

/-- A parameter stored. -/
def setParam (i v : Nat) (s : State) : State :=
  s.setMgmt { s.mgmt with params := s.mgmt.params.setIfInBounds i (BitVec.ofNat 16 v) }

/-- The silence timer after a load of the silence window (R51). -/
def windowLoaded (s : State) : State :=
  if param s 4 = 0 then s.setFeed { s.feed with silence := none }
  else if s.feed.feedState = .running then s.setFeed { s.feed with silence := silenceTimer s }
  else s

/-- A PARAM entry applied (R168). -/
def applyParamEntry (i : Nat) (e : List Byte) (s : State) : Option State :=
  match paramStored s i (at16 e 0) with
  | none => none
  | some v => some (if i = 4 then windowLoaded (setParam i v s) else setParam i v s)

/-! ## The other tables' entries, by table number -/

/-- CHAIN entry n (R70). -/
def applyChainTable (n : Nat) (e : List Byte) (s : State) : Option State :=
  match chainOfCode n with
  | some c => some (applyChainEntry c (chainEntry e) s)
  | none => none

/-- MODULE entry c × 64 + k (R71). -/
def applyModuleTable (n : Nat) (e : List Byte) (s : State) : Option State :=
  match chainOfCode (n / 64), moduleOfCode (at8 e 0) with
  | some c, some m => some (applyModuleEntry c (Fin.ofNat 64 n) m s)
  | _, _ => none

/-- TERMINAL entry n − 1 is terminal n (R167). -/
def applyTerminalTable (n : Nat) (e : List Byte) (s : State) : Option State :=
  if h : n < 32 then applyTerminalEntry ⟨n, h⟩ e s else none

/-! ## READ (R169) -/

/-- A price in price units, three bytes, FFFFFFh for absent (R176). -/
def price3 : Option Nat → List Byte
  | some p => bytes3 p
  | none => [0xFF, 0xFF, 0xFF]

/-- A symbol code, five bytes. -/
def symbolBytes (c : SymbolCode) : List Byte := [c.r0, c.r1, c.r2, c.r3, c.cls]

/-- A SYMBOL entry as read: the previous close with c = 8. -/
def readSymbol (r : QuoteRecord) : List Byte :=
  symbolBytes r.symbol ++ [tapeClassCode r.tapeClass, denomCode r.denom]
    ++ bytes2 (r.prevClose / 256) ++ [8, byteOf (r.prevClose % 256)]

/-- The field code places of a SLOT entry: 00h after the list. -/
def fieldPlaces (fields : List BoardField) : List Byte :=
  (fields.map boardFieldCode ++ List.replicate 6 0).take 6

/-- A SLOT entry as read: 00h in every item its kind does not use, FFh for no lamp cell. -/
def readSlot : Option Slot → List Byte
  | none => List.replicate 15 0
  | some sl =>
    let place := byteOf sl.chain.val :: bytes2 sl.start
    match sl.kind with
    | .quote record fields gap lamp flash =>
      [0x01] ++ place ++ bytes2 record ++ fieldPlaces fields
        ++ [byteOf gap, byteOf (lamp.getD 0xFF), flagByte flash]
    | .message width stack =>
      [0x02] ++ place ++ [byteOf width, byteOf stack.val] ++ List.replicate 9 0
    | .clock => [0x03] ++ place ++ List.replicate 11 0
    | .status => [0x04] ++ place ++ List.replicate 11 0

/-- A CHAIN entry as read. -/
def readChain (e : ChainEntry) : List Byte :=
  [flagByte e.enabled] ++ bytes2 e.cellPeriod
    ++ [byteOf e.settle, byteOf e.keepalive, e.day, e.night]

/-- A TERMINAL entry as read. -/
def readTerminal (t : Terminal) : List Byte :=
  [flagByte t.enabled, flagByte t.lock]
    ++ t.rows.toList.flatMap (fun r => match r.record with
      | some n => bytes2 n
      | none => [0xFF, 0xFF])

/-- The three bytes of a last trade time. The hour is FFh for absent; the manual states no minute and
second then: two open bytes of the draw. -/
def timeBytes (draw n : Nat) : Option TimeOfDay → List Byte
  | some t => [byteOf t.hour, byteOf t.minute, byteOf t.second]
  | none => [0xFF, Config.freeByte draw (2 * n), Config.freeByte draw (2 * n + 1)]

/-- A RECORD entry (Table 11-8); the net change is two's complement. -/
def readRecord (draw n : Nat) (r : QuoteRecord) : List Byte :=
  [tradingStateCode r.state] ++ price3 r.last ++ [tickCode r.tick, tickCode r.carryTick]
    ++ bytes3 (r.netChange % 16777216).toNat ++ price3 r.high ++ price3 r.low
    ++ bytes4 r.volume ++ price3 r.bid ++ price3 r.ask ++ timeBytes draw n r.lastTime
    ++ [flagByte r.stale, byteOf r.watch]
    ++ (match r.tapeWhole with
      | some w => bytes2 w
      | none => [0xFF, 0xFF])
    ++ wordBytes r.tapeEpoch

/-- A TICKER entry (Table 11-8). An empty entry has no item, so its 33 bytes are unused (R177). -/
def readTicker : Option TickerEntry → List Byte
  | none => List.replicate 34 0
  | some (.print p) =>
    [0x01] ++ bytes2 p.record ++ symbolBytes p.symbol ++ bytes3 p.price ++ bytes4 p.volume
      ++ [byteOf p.time.hour, byteOf p.time.minute, byteOf p.time.second, conditionCode p.condition,
        tapeClassCode p.tapeClass] ++ List.replicate 14 0
  | some (.announce text) => [0x02, byteOf text.length] ++ padRight 32 text

/-- The number of entries and the entry size of a table (Table 11-5); none for an unknown code. -/
def tableShape : Nat → Option (Nat × Nat)
  | 1 => some (20, 2)
  | 2 => some (512, 11)
  | 3 => some (256, 15)
  | 4 => some (4, 7)
  | 5 => some (256, 1)
  | 6 => some (32, 34)
  | 7 => some (512, 34)
  | 8 => some (256, 34)
  | _ => none

/-- Entry n of a table as READ returns it. -/
def readEntry (s : State) (table n : Nat) : List Byte :=
  match table with
  | 1 => wordBytes (s.mgmt.params.toList.getD n 0)
  | 2 => readSymbol ((tableGet s.records n).getD emptyRecord)
  | 3 => readSlot (tableGet s.slots n)
  | 4 => (s.chains.toList[n]?.map (fun ch => readChain ch.entry)).getD []
  | 5 => (s.chains.toList[n / 64]?.map
      (fun ch => [moduleCode (ch.modules.toList.getD (n % 64) .endOfList)])).getD []
  | 6 => (s.line.terminals.toList[n]?.map readTerminal).getD []
  | 7 => readRecord s.draws n ((tableGet s.records n).getD emptyRecord)
  | 8 => readTicker s.ticker.queue[n]?
  | _ => []

/-- The room for entries in a READ reply (R169). -/
def readRoom : Nat := 79

/-- A READ carried out (R169). The READ makes one draw of open bytes. -/
def applyRead (body : List Byte) (s : State) : State :=
  let p := payload body
  let table := at8 p 0
  let start := at16 p 1
  let count := at16 p 3
  if p.length ≠ 5 then replyTo body [codeBadLength] s
  else match tableShape table with
    | none => replyTo body [codeBadTable] s
    | some (entries, size) =>
      if entries < start + count then replyTo body [codeBadRange] s
      else
        let shown := min count (readRoom / size)
        let bytes := (List.range shown).flatMap (fun i => readEntry s table (start + i))
        replyTo body ([codeDone, byteOf table] ++ bytes2 start ++ bytes)
          (s.setDraws (s.draws + 1))

/-! ## REPORT (R170, Table 11-6) -/

def causeCode : ResetCause → Byte
  | .powerOn => 1
  | .pin => 2
  | .coldCommand => 3
  | .warmCommand => 4

def chainStateCode : ChainState → Byte
  | .offline => 0
  | .idle => 1
  | .shifting => 2
  | .settling => 3

def tickerStateCode : TickerState → Byte
  | .stopped => 0
  | .running => 1
  | .draining => 2

def termStateCode : TermState → Nat
  | .disabled => 0
  | .absent => 1
  | .activating => 2
  | .active => 3
  | .recovery => 4

/-- The expected sequence number as reported. While it is unset the manual states the flag alone: the
two number bytes are open. -/
def expectedBytes (s : State) : List Byte :=
  match s.feed.expected with
  | some e => 0x01 :: wordBytes e
  | none => [0x00, Config.freeByte s.draws 0, Config.freeByte s.draws 1]

/-- The five bytes of one chain. -/
def chainReport (ch : Chain) : List Byte :=
  [chainStateCode ch.state, byteOf ch.faultCount, byteOf (ch.firstMismatch.getD 0xFF),
    flagByte ch.senseLevel, flagByte ch.senseLatch]

/-- Two terminal states a byte, the odd-numbered terminal in the high half. -/
def pairStates : List Terminal → List Byte
  | a :: b :: rest => byteOf (termStateCode a.state * 16 + termStateCode b.state) :: pairStates rest
  | _ => []

/-- A 24-bit counter in three bytes. -/
def counterBytes (c : BitVec 24) : List Byte := bytes3 c.toNat

/-- The report of Table 11-6. -/
def reportBytes (s : State) : List Byte :=
  [causeCode s.mgmt.cause, feedStateCode s.feed.feedState] ++ expectedBytes s
    ++ [byteOf s.intake.length, sessionCode s.time.session] ++ bytes3 s.time.clock
    ++ [flagByte s.time.clockSet]
    ++ wordBytes (alertsWord s.mgmt.alertStatus) ++ wordBytes (alertsWord s.mgmt.alertMask)
    ++ s.chains.toList.flatMap chainReport
    ++ [tickerStateCode s.ticker.state, byteOf s.ticker.level] ++ bytes2 s.ticker.queue.length
    ++ counterBytes s.ticker.admitted ++ counterBytes s.ticker.printed
    ++ counterBytes s.ticker.merged ++ counterBytes s.ticker.omitted
    ++ pairStates s.line.terminals.toList ++ bytes2 s.directory.length

/-- A REPORT carried out (R166, R170). The REPORT makes one draw of open bytes. -/
def applyReport (body : List Byte) (s : State) : State :=
  if (payload body).length ≠ 1 then replyTo body [codeBadLength] s
  else replyTo body (codeDone :: reportBytes s) (s.setDraws (s.draws + 1))

/-! ## CONTROL (R171, R173) -/

/-- The alert mask operand of a CONTROL. -/
def maskOperand (p : List Byte) : AlertSet := alertsOfWord (BitVec.ofNat 16 (at16 p 1))

/-- A chain after a CLEAR ALERTS: its sense change latch goes with its CHAIN SENSE alert (R81). -/
def clearLatch (named : AlertSet) (c : ChainId) (s : State) : State :=
  if alertIn (.chainSense c) named then s.setChain c { s.chains[c] with senseLatch := false } else s

/-- CLEAR ALERTS (R173). -/
def clearAlertsNamed (named : AlertSet) (s : State) : State :=
  let s' := s.setMgmt { s.mgmt with alertStatus := s.mgmt.alertStatus &&& ~~~named }
  clearLatch named 3 (clearLatch named 2 (clearLatch named 1 (clearLatch named 0 s')))

/-- SET MASK: an ALERT frame is queued when an alert that is set is newly enabled (R173). -/
def setMaskTo (mask : AlertSet) (s : State) : State :=
  let m := { s.mgmt with alertMask := mask }
  s.setMgmt (if mask &&& ~~~s.mgmt.alertMask &&& s.mgmt.alertStatus ≠ 0 then queueAlert m else m)

/-- A CONTROL whose payload has the action's length: the action, then DONE; otherwise BAD LENGTH
(R171). -/
def applyControl (length : Nat) (act : List Byte → State → Option State) (body : List Byte)
    (s : State) : State :=
  if (payload body).length ≠ length then replyTo body [codeBadLength] s
  else match act (payload body) s with
    | some s' => replyTo body [codeDone] s'
    | none => replyTo body [codeBadCommand] s

/-- The chain named by a CHAIN RESET, reset. -/
def chainResetNamed (p : List Byte) (s : State) : Option State :=
  (chainOfCode (at8 p 1)).map (fun c => chainResetAt c s)

/-- The terminal named by a TERMINAL RESET. -/
def terminalOfNumber (n : Nat) : Option TermId :=
  if h : 1 ≤ n ∧ n ≤ 32 then some ⟨n - 1, by omega⟩ else none

/-- The terminal named by a TERMINAL RESET, reset. -/
def terminalResetNamed (p : List Byte) (s : State) : Option State :=
  (terminalOfNumber (at8 p 1)).map (fun t => terminalResetAt t s)

/-! ## Refused frames (R166) -/

/-- The result code of a management frame that no other step carries out. -/
def refusalCode (body : List Byte) : Byte :=
  let p := payload body
  match frameType body with
  | 0x41 => if p.length < 5 then codeBadLength else codeBadTable
  | 0x42 => if p.length ≠ 5 then codeBadLength else codeBadTable
  | 0x44 => if p.length < 1 then codeBadLength else codeBadCommand
  | _ => if p.length ≠ 1 then codeBadLength else codeBadCommand

/-! ## The return line (R172) -/

/-- A frame of the return line, with its SYNC bytes and CRC (Table 11-1). -/
def returnFrame (station : BitVec 6) (type : Byte) (tag : BitVec 16) (data : List Byte) :
    List Byte :=
  let covered :=
    byteOf (5 + data.length) :: [0, station.zeroExtend 8, type] ++ wordBytes tag ++ data
  [syncByte, syncByte] ++ covered ++ wordBytes (crcOf covered)

/-- The content of an ALERT frame as composed at its transmission start. -/
def alertBytes (m : Management) : List Byte :=
  wordBytes (alertsWord m.alertStatus) ++ wordBytes (alertsWord m.alertMask) ++ [causeCode m.cause]

/-- The frame of an entry of the reply queue. -/
def entryFrame (s : State) : ReturnEntry → List Byte
  | .reply tag data => returnFrame s.feed.station 0x61 tag data
  | .alert => returnFrame s.feed.station 0x62 0 (alertBytes s.mgmt)

/-- The head entry taken by an idle transmitter, or fill while the queue is empty (R172). -/
def takeReturnHead (s : State) : State :=
  match s.mgmt.replyQueue with
  | [] => s
  | e :: rest =>
    s.setMgmt { s.mgmt with replyQueue := rest, sending := some (entryFrame s e) }

/-- A transmission start of the idle transmitter (R172). -/
def returnStart (s : State) : State := if s.mgmt.sending.isNone then takeReturnHead s else s

/-- The last CRC byte of a return frame sent (R172). -/
def returnSent (s : State) : State :=
  if s.mgmt.sending.isSome then takeReturnHead (s.setMgmt { s.mgmt with sending := none }) else s

end Sys2Proof.Machine
end

