-- ==== Sys2Proof/Machine/Resets.lean ====
section
/-!
DEFINITION. The resets (R174, R175) with the reset state of every block, and the interval tick, which
the step takes on an empty command queue.
-/

namespace Sys2Proof.Machine

/-! ## Cold reset (R174) -/

/-- Every block at its cold state, with the pins' samples given. The flash clock is low and stopped
until INIT ends (R88). The command queue and the draw count are the model's own and stay. -/
def coldState (cause : ResetCause) (phase : Phase) (station : BitVec 6) (sense : Vector Bool 4)
    (s : State) : State :=
  { phase := phase, feed := coldFeed station, intake := [], load := none,
    records := [], directory := [], time := coldTime, chains := coldChains sense,
    flashClock := { level := false, timer := none }, slots := [], bulletins := coldBulletins, ticker := coldTicker, line := coldLine,
    mgmt := coldManagement cause, draws := s.draws, pending := s.pending }

/-- A cold reset taken: the blocks cold, the straps and sense levels as last sampled until INIT ends. -/
def takeCold (cause : ResetCause) (phase : Phase) (s : State) : State :=
  coldState cause phase s.feed.station (s.chains.map Chain.senseLevel) s

/-- The rise of the supply (R174). While the reset pin is held the part stays inactive. -/
def powerRise (s : State) : State :=
  takeCold .powerOn (if s.phase = .pinHeld then .pinHeld else .initRunning) s

/-- The end of INIT (R174): the straps and the chain sense inputs sampled, every block cold, the flash
clock started, RESET set with its ALERT frame. -/
def initEnds (straps : BitVec 6) (sense : Vector Bool 4) (s : State) : State :=
  let s1 := coldState s.mgmt.cause .running straps sense s
  raiseAlert .reset
    (s1.setFlashClock { level := false, timer := startTimer (param s1 6 * 50) })

/-! ## The reset pin (R41, R57, R89, R133, R153, R174) -/

/-- A chain with the reset pin taken: a cycle in flight is abandoned without a latch strobe (R89). -/
def abandonCycle (ch : Chain) : Chain :=
  if ch.cycle.isSome then { goOffline ch with reload := false, resetPending := false } else ch

/-- The reset pin taken: every output inactive, cycles, the text in emission, the transaction and the
frame in mid-send abandoned. -/
def pinTaken (s : State) : State :=
  { s with
    phase := .pinHeld, feed := { s.feed with rx := huntReceiver },
    chains := s.chains.map abandonCycle, flashClock := { s.flashClock with level := false },
    ticker := { s.ticker with text := [], cursor := 0, separator := 0, out := none },
    line := { s.line with transaction := none }, mgmt := { s.mgmt with sending := none } }

/-! ## Warm reset (R175) -/

/-- The records after a warm reset: every one stale, with no change set (R5). -/
def warmRecords (t : Table QuoteRecord) : Table QuoteRecord :=
  t.map (fun e => (e.1, { e.2 with stale := true }))

/-- The feed receiver after a warm reset (R56). -/
def warmFeed (straps : BitVec 6) : Feed := coldFeed straps

/-- A chain controller after a warm reset (R90). Resync pending of a chain left OFFLINE keeps the value it
had: R90 gives it a value for the chain that enters IDLE alone (DESIGN CHOICE, log entry 28). -/
def warmChain (ch : Chain) : Chain :=
  let ch' := { ch with faultCount := 0, firstMismatch := none, reload := false,
                       resetPending := false, senseLatch := false }
  if ch.entry.enabled && ch.senseLevel then enterIdle ch' else goOffline ch'

/-- The slots after a warm reset: no flash, and the STATUS slots marked where the feed state or the tape
level changed (R56, R104, R111, R134). -/
def warmSlots (statusChanged : Bool) (t : Table Slot) : Table Slot :=
  t.map (fun e =>
    (e.1, { e.2 with flash := none, dirty := e.2.dirty || (statusChanged && e.2.kind == .status) }))

/-- The ticker unit after a warm reset, but for its state and step timer (R134). -/
def warmTicker (session : SessionState) (interval : Nat) (t : Ticker) : Ticker :=
  { t with
    state := if session = .closed then .stopped else .running, queue := [], level := 0,
    lateMinutes := 0, text := [], cursor := 0, separator := 0,
    stepTimer := if session = .closed then none else startTimer interval,
    admitted := 0, printed := 0, merged := 0, omitted := 0,
    out := if session = .closed then none else t.out }

/-- A terminal after a warm reset (R154, R165). -/
def warmTerminal (t : Terminal) : Terminal :=
  { clearSets t with
    state := if t.enabled then .absent else .disabled, probeDue := t.enabled, probeTimer := none,
    nextNumber := 0, outstanding := none, misses := 0, resetPending := false, rotation := 0 }

/-- The terminal line after a warm reset, before its selection (R154). -/
def warmLine (l : TerminalLine) : TerminalLine :=
  { terminals := l.terminals.map warmTerminal, pollPointer := 31, transaction := none, gap := none }

/-- The management responder after a warm reset, before its REPLY (R175). -/
def warmManagement (m : Management) : Management :=
  { m with alertStatus := 0, cause := .warmCommand, replyQueue := [], sending := none }

/-- Whether a STATUS text's source changes at a warm reset: the feed state leaves RUNNING or LOST, or
the tape level falls to 0. -/
def warmStatusChanged (s : State) : Bool :=
  s.feed.feedState ≠ .notYet || s.ticker.level ≠ 0

/-- Every block at its warm state. -/
def warmState (straps : BitVec 6) (s : State) : State :=
  { s with
    feed := warmFeed straps, intake := [], load := none, records := warmRecords s.records,
    chains := s.chains.map warmChain, slots := warmSlots (warmStatusChanged s) s.slots,
    ticker := warmTicker s.time.session (param s 7) s.ticker, line := warmLine s.line,
    mgmt := warmManagement s.mgmt }

/-- A RESET WARM carried out: the blocks warm, each chain's refresh and the first selection, the REPLY,
then RESET set (R90, R154, R175). -/
def applyWarm (straps : BitVec 6) (body : List Byte) (s : State) : State :=
  raiseAlert .reset (replyTo body [codeDone] (select (wakeChains (warmState straps s))))

/-! ## The interval tick (R57, R58) -/

/-- A chain's timers one tick on. -/
def tickChain (ch : Chain) : Chain :=
  { ch with keepaliveTimer := countDown ch.keepaliveTimer, settleTimer := countDown ch.settleTimer }

/-- A terminal's probe timer one tick on. -/
def tickTerminal (t : Terminal) : Terminal := { t with probeTimer := countDown t.probeTimer }

/-- Every running timer one tick on; a timer at its last tick stands at 0 and is due. -/
def countTimers (s : State) : State :=
  { s with
    time := { s.time with phaseTicks := s.time.phaseTicks + 1 },
    feed := { s.feed with silence := countDown s.feed.silence },
    chains := s.chains.map tickChain,
    flashClock := { s.flashClock with timer := countDown s.flashClock.timer },
    slots := s.slots.map (fun e => (e.1, { e.2 with flash := countDown e.2.flash })),
    bulletins := s.bulletins.map (fun stack =>
      stack.map (fun b => { b with timer := countDown b.timer })),
    ticker := { s.ticker with stepTimer := countDown s.ticker.stepTimer },
    line :=
      { s.line with
        terminals := s.line.terminals.map tickTerminal, gap := countDown s.line.gap,
        transaction := s.line.transaction.map (fun tx => { tx with timeout := countDown tx.timeout }) } }

/-- The expiry of a settle timer in SETTLING (R79). -/
def settleExpire (c : ChainId) (s : State) : State :=
  if s.chains[c].state = .settling ∧ timerRuns s.chains[c].settleTimer then settleComplete c s else s

/-- The expiry of a keepalive timer in IDLE (R80). -/
def keepaliveExpire (c : ChainId) (s : State) : State :=
  if s.chains[c].state = .idle ∧ timerRuns s.chains[c].keepaliveTimer then refreshStart c s else s

/-- The expiry of the flash clock's half-period timer (R88). -/
def halfPeriodExpire (s : State) : State :=
  if timerRuns s.flashClock.timer then flashHalfPeriod s else s

/-- An expiry taken where its timer is due. -/
def ifDue (due : Bool) (expire : State → State) (s : State) : State := if due then expire s else s

/-- The due timers of one chain. -/
def chainDue (c : ChainId) (s : State) : State :=
  let s' := ifDue (timerDue s.chains[c].settleTimer) (settleExpire c) s
  ifDue (timerDue s'.chains[c].keepaliveTimer) (keepaliveExpire c) s'

/-- The due flash timer of one slot. -/
def slotDue (s : State) (n : Nat) : State :=
  ifDue ((tableGet s.slots n).any (fun sl => timerDue sl.flash)) (flashExpire n) s

/-- The due duration timers of one stack, taken from the bottom place up: the manual gives two entries of
one stack that are due at one tick no order (DESIGN CHOICE, log entry 6). So a due entry below the top is
gone before the top's expiry could uncover it and offer it to the ticker (R109). -/
def stackDue (s : State) (k : StackId) : State :=
  [3, 2, 1, 0].foldl
    (fun s' i => ifDue (((s'.bulletins[k])[i]?).any (fun b => timerDue b.timer)) (bulletinExpire k i) s')
    s

/-- The due probe timer of one terminal. -/
def probeDueAt (s : State) (t : TermId) : State :=
  ifDue (timerDue (s.line.terminals[t]).probeTimer) (probeExpire t) s

/-- The timers due at a tick, in the order of Table 4-1 (the order is a DESIGN CHOICE, log entry 6). -/
def takeDue (s : State) : State :=
  let s1 := ifDue (1000 ≤ s.time.phaseTicks) secondExpire s
  let s2 := ifDue (timerDue s1.feed.silence) silenceExpire s1
  let s3 := chainDue 3 (chainDue 2 (chainDue 1 (chainDue 0 s2)))
  let s4 := ifDue (timerDue s3.flashClock.timer) halfPeriodExpire s3
  let s5 := (s4.slots.map Prod.fst).foldl slotDue s4
  let s6 := (List.finRange 8).foldl stackDue s5
  let s7 := ifDue (timerDue s6.ticker.stepTimer) stepExpire s6
  let s8 := ifDue (s7.line.transaction.any (fun tx => timerDue tx.timeout)) responseExpire s7
  let s9 := (List.finRange 32).foldl probeDueAt s8
  ifDue (timerDue s9.line.gap) gapExpire s9

/-- One interval tick: nothing counts while the reset pin is held (R57) or during INIT (R68). -/
def intervalTick (s : State) : State :=
  if s.phase = .running then takeDue (countTimers s) else s

end Sys2Proof.Machine
end

