-- ==== Sys2Proof/Machine/FeedSteps.lean ====
section
/-!
DEFINITION. The meanings of the feed line's steps and of the steps that apply market data frames.
-/

namespace Sys2Proof.Machine

/-- What a step answers. -/
abbrev Answer := Host.Outcome State Fault Refusal

/-- A step of the part in operation. While the reset pin is held and during INIT no line content is
taken, no timer counts and no frame is applied (R41, R57, R174), so nothing comes about. -/
def whenRunning (f : State → State) (s : State) : Answer :=
  .next (if s.phase = .running then f s else s)

/-- FEED_FRAME_RECEIVED (R40, R42 to R46). -/
def execFeedFrameReceived (crcLow : Byte) (s : State) : Answer :=
  whenRunning (takeLastByte crcLow) s

/-- FEED_BYTE_RECEIVED (R38 to R40). -/
def execFeedByteReceived (unit : LineUnit) (s : State) : Answer :=
  whenRunning (feedBits (unitBits unit)) s

/-- SILENCE_TIMER_EXPIRY (R52). -/
def execSilenceTimerExpiry (s : State) : Answer := whenRunning silenceExpire s

/-- TRADE (R13 to R15, R116). -/
def execTrade (s : State) : Answer :=
  whenRunning (takeHead .trade (applyItems tradeItems applyTrade)) s

/-- QUOTE (R16). -/
def execQuote (s : State) : Answer :=
  whenRunning (takeHead .quote (applyItems quoteItems applyQuote)) s

/-- SYMBOL_STATE (R17). -/
def execSymbolState (s : State) : Answer :=
  whenRunning (takeHead .symbolState (applyItems symbolStateItems applySymbolState)) s

/-- RECAP (R18, R19). -/
def execRecap (s : State) : Answer :=
  whenRunning (takeHead .recap (applyItems recapItems applyRecap)) s

/-- CLOCK (R60). -/
def execClock (s : State) : Answer :=
  whenRunning (takeHead .clock (applyItems clockItems applyClock)) s

/-- SESSION (R62 to R65). -/
def execSession (s : State) : Answer :=
  whenRunning (takeHead .session (applyItems sessionItems applySession)) s

/-- BULLETIN_PUSH (R107). The frame's action is checked here: one that names no action is malformed. -/
def execBulletinPush (s : State) : Answer :=
  whenRunning (takeHead .bulletinPush (applyItems bulletinItems applyPush)) s

/-- BULLETIN_POP (R108). -/
def execBulletinPop (s : State) : Answer :=
  whenRunning (takeHead .bulletinPop (applyItems bulletinItems applyPop)) s

/-- BULLETIN_CLEAR (R108). -/
def execBulletinClear (s : State) : Answer :=
  whenRunning (takeHead .bulletinClear (applyItems bulletinItems applyClear)) s

end Sys2Proof.Machine
end

