-- ==== Sys2Proof/Machine/ManagementSteps.lean ====
section
/-!
DEFINITION. The meanings of the steps that carry out management frames, and of the return line's
steps (chapter 10).
-/

namespace Sys2Proof.Machine

/-- LOAD_PARAM (R167, R168). -/
def execLoadParam (s : State) : Answer :=
  whenRunning (takeLoad .loadParam 20 2 applyParamEntry) s

/-- LOAD_SYMBOL (R7 to R11, R167). -/
def execLoadSymbol (s : State) : Answer :=
  whenRunning (takeLoad .loadSymbol 512 11 applySymbolEntry) s

/-- LOAD_SLOT (R93, R94, R167). -/
def execLoadSlot (s : State) : Answer :=
  whenRunning (takeLoad .loadSlot 256 15 (applySlotTable s)) s

/-- LOAD_CHAIN (R70, R84, R85, R167). -/
def execLoadChain (s : State) : Answer :=
  whenRunning (takeLoad .loadChain 4 7 applyChainTable) s

/-- LOAD_MODULE (R71, R84, R167). -/
def execLoadModule (s : State) : Answer :=
  whenRunning (takeLoad .loadModule 256 1 applyModuleTable) s

/-- LOAD_TERMINAL (R151, R164, R167). -/
def execLoadTerminal (s : State) : Answer :=
  whenRunning (takeLoad .loadTerminal 32 34 applyTerminalTable) s

/-- READ (R169). -/
def execRead (s : State) : Answer := whenRunning (takeHead .read applyRead) s

/-- REPORT (R170). -/
def execReport (s : State) : Answer := whenRunning (takeHead .report applyReport) s

/-- CONTROL CLEAR ALERTS (R171, R173). -/
def execClearAlerts (s : State) : Answer :=
  whenRunning (takeHead .clearAlerts
    (applyControl 3 (fun p s' => some (clearAlertsNamed (maskOperand p) s')))) s

/-- CONTROL SET MASK (R171, R173). -/
def execSetMask (s : State) : Answer :=
  whenRunning (takeHead .setMask
    (applyControl 3 (fun p s' => some (setMaskTo (maskOperand p) s')))) s

/-- CONTROL CHAIN RESET (R86, R171). -/
def execChainReset (s : State) : Answer :=
  whenRunning (takeHead .chainReset (applyControl 2 chainResetNamed)) s

/-- CONTROL TERMINAL RESET (R152, R171). -/
def execTerminalReset (s : State) : Answer :=
  whenRunning (takeHead .terminalReset (applyControl 2 terminalResetNamed)) s

/-- CONTROL TICKER FLUSH (R130, R171). -/
def execTickerFlush (s : State) : Answer :=
  whenRunning (takeHead .tickerFlush (applyControl 1 (fun _ s' => some (tickerFlushAt s')))) s

/-- REFUSED_MANAGEMENT_FRAME (R166, R167, R169, R171, R175). -/
def execRefusedManagementFrame (s : State) : Answer :=
  whenRunning (takeHead .refused (fun body s' => replyTo body [refusalCode body] s')) s

/-- RETURN_TRANSMISSION_START (R172). -/
def execReturnTransmissionStart (s : State) : Answer := whenRunning returnStart s

/-- RETURN_FRAME_SENT (R172). -/
def execReturnFrameSent (s : State) : Answer := whenRunning returnSent s

end Sys2Proof.Machine
end

