-- ==== Sys2Proof/Machine/OutputSteps.lean ====
section
/-!
DEFINITION. The meanings of the steps of the clock, the boards, the bulletin stacks, the ticker and the
terminal line: timer expiries, chain events and terminal line characters. An event that cannot fall as
things stand (the expiry of a stopped timer, the completion of a cycle that is not in flight, a sample
that shows no change) leaves the state as it is (R58).
-/

namespace Sys2Proof.Machine

/-- SECOND_PHASE_EXPIRY (R59). -/
def execSecondPhaseExpiry (s : State) : Answer := whenRunning secondExpire s

/-- KEEPALIVE_EXPIRY (R80). -/
def execKeepaliveExpiry (c : ChainId) (s : State) : Answer := whenRunning (keepaliveExpire c) s

/-- SHIFT_COMPLETION (R77, R78): the stages that the returned bits spell (R178). -/
def execShiftCompletion (c : ChainId) (returned : List Bool) (s : State) : Answer :=
  whenRunning (shiftComplete c (stagesOf returned)) s

/-- SETTLE_COMPLETION (R79). -/
def execSettleCompletion (c : ChainId) (s : State) : Answer := whenRunning (settleExpire c) s

/-- CHAIN_SENSE_CHANGE (R81 to R83). -/
def execChainSenseChange (c : ChainId) (present : Bool) (s : State) : Answer :=
  whenRunning (fun s' => if s'.chains[c].senseLevel = present then s' else senseChange c present s') s

/-- PWM_PERIOD_START (R87). -/
def execPwmPeriodStart (c : ChainId) (s : State) : Answer := whenRunning (pwmStart c) s

/-- FLASH_CLOCK_HALF_PERIOD (R88). -/
def execFlashClockHalfPeriod (s : State) : Answer := whenRunning halfPeriodExpire s

/-- FLASH_EXPIRY (R99). -/
def execFlashExpiry (slot : Nat) (s : State) : Answer := whenRunning (flashExpire slot) s

/-- BULLETIN_DURATION_EXPIRY (R109). -/
def execBulletinDurationExpiry (k : StackId) (position : Nat) (s : State) : Answer :=
  whenRunning (bulletinExpire k position) s

/-- STEP (R128). -/
def execStep (s : State) : Answer := whenRunning stepExpire s

/-- PRIMARY_FRAME_SENT (R137). -/
def execPrimaryFrameSent (s : State) : Answer := whenRunning frameSent s

/-- TERMINAL_RESPONSE: the response's last character (R136, R137). Where it is not the last, it is a
character like any other. -/
def execTerminalResponse (crcLow : Byte) (s : State) : Answer := whenRunning (takeCharacter crcLow) s

/-- RESPONSE_TIMEOUT (R136, R137). -/
def execResponseTimeout (s : State) : Answer := whenRunning responseExpire s

/-- PROBE_TIMER_EXPIRY (R141). -/
def execProbeTimerExpiry (t : TermId) (s : State) : Answer := whenRunning (probeExpire t) s

/-- NIGHT_POLL_GAP_EXPIRY (R140). -/
def execNightPollGapExpiry (s : State) : Answer := whenRunning gapExpire s

/-- TERMINAL_CHARACTER_RECEIVED (R135 to R137). -/
def execTerminalCharacterReceived (char : Byte) (s : State) : Answer :=
  whenRunning (takeCharacter char) s

end Sys2Proof.Machine
end

