-- ==== Sys2Proof/Machine/ResetSteps.lean ====
section
/-!
DEFINITION. The meanings of the reset steps (R174, R175).
-/

namespace Sys2Proof.Machine

/-- RESET_COLD: the RESET frame at the head of the queue; no REPLY (R174). -/
def execResetCold (s : State) : Answer :=
  whenRunning (takeHead .resetCold (fun _ s' => takeCold .coldCommand .initRunning s')) s

/-- RESET_WARM: the RESET frame at the head of the queue (R175). -/
def execResetWarm (straps : BitVec 6) (s : State) : Answer :=
  whenRunning (takeHead .resetWarm (applyWarm straps)) s

/-- POWER_ON (R174). -/
def execPowerOn (s : State) : Answer := .next (powerRise s)

/-- RESET_PIN_ASSERT (R174); a pin already held stays held. -/
def execResetPinAssert (s : State) : Answer :=
  .next (if s.phase = .pinHeld then s else pinTaken s)

/-- RESET_PIN_RELEASE (R174); a pin that is not held is not released. -/
def execResetPinRelease (s : State) : Answer :=
  .next (if s.phase = .pinHeld then takeCold .pin .initRunning s else s)

/-- INIT_END (R174); there is no end while INIT is not running. -/
def execInitEnd (straps : BitVec 6) (sense : Vector Bool 4) (s : State) : Answer :=
  .next (if s.phase = .initRunning then initEnds straps sense s else s)

end Sys2Proof.Machine
end

