-- ==== Sys2Proof/Machine/Dispatch.lean ====
section
/-!
DEFINITION. The dispatch: one arm for each command, a direct call of its meaning.
-/

namespace Sys2Proof.Machine

def exec (i : Instr) (s : State) : Host.Outcome State Fault Refusal :=
  match i with
  | .feedFrameReceived crcLow => Sys2Proof.Machine.execFeedFrameReceived crcLow s
  | .silenceTimerExpiry => Sys2Proof.Machine.execSilenceTimerExpiry s
  | .trade => Sys2Proof.Machine.execTrade s
  | .quote => Sys2Proof.Machine.execQuote s
  | .symbolState => Sys2Proof.Machine.execSymbolState s
  | .recap => Sys2Proof.Machine.execRecap s
  | .clock => Sys2Proof.Machine.execClock s
  | .session => Sys2Proof.Machine.execSession s
  | .bulletinPush => Sys2Proof.Machine.execBulletinPush s
  | .bulletinPop => Sys2Proof.Machine.execBulletinPop s
  | .bulletinClear => Sys2Proof.Machine.execBulletinClear s
  | .loadParam => Sys2Proof.Machine.execLoadParam s
  | .loadSymbol => Sys2Proof.Machine.execLoadSymbol s
  | .loadSlot => Sys2Proof.Machine.execLoadSlot s
  | .loadChain => Sys2Proof.Machine.execLoadChain s
  | .loadModule => Sys2Proof.Machine.execLoadModule s
  | .loadTerminal => Sys2Proof.Machine.execLoadTerminal s
  | .read => Sys2Proof.Machine.execRead s
  | .report => Sys2Proof.Machine.execReport s
  | .clearAlerts => Sys2Proof.Machine.execClearAlerts s
  | .setMask => Sys2Proof.Machine.execSetMask s
  | .chainReset => Sys2Proof.Machine.execChainReset s
  | .terminalReset => Sys2Proof.Machine.execTerminalReset s
  | .tickerFlush => Sys2Proof.Machine.execTickerFlush s
  | .resetCold => Sys2Proof.Machine.execResetCold s
  | .resetWarm straps => Sys2Proof.Machine.execResetWarm straps s
  | .powerOn => Sys2Proof.Machine.execPowerOn s
  | .resetPinAssert => Sys2Proof.Machine.execResetPinAssert s
  | .resetPinRelease => Sys2Proof.Machine.execResetPinRelease s
  | .initEnd straps sense => Sys2Proof.Machine.execInitEnd straps sense s
  | .secondPhaseExpiry => Sys2Proof.Machine.execSecondPhaseExpiry s
  | .keepaliveExpiry c => Sys2Proof.Machine.execKeepaliveExpiry c s
  | .shiftCompletion c returned => Sys2Proof.Machine.execShiftCompletion c returned s
  | .settleCompletion c => Sys2Proof.Machine.execSettleCompletion c s
  | .chainSenseChange c present => Sys2Proof.Machine.execChainSenseChange c present s
  | .pwmPeriodStart c => Sys2Proof.Machine.execPwmPeriodStart c s
  | .flashClockHalfPeriod => Sys2Proof.Machine.execFlashClockHalfPeriod s
  | .flashExpiry slot => Sys2Proof.Machine.execFlashExpiry slot s
  | .bulletinDurationExpiry k position => Sys2Proof.Machine.execBulletinDurationExpiry k position s
  | .step => Sys2Proof.Machine.execStep s
  | .primaryFrameSent => Sys2Proof.Machine.execPrimaryFrameSent s
  | .terminalResponse crcLow => Sys2Proof.Machine.execTerminalResponse crcLow s
  | .responseTimeout => Sys2Proof.Machine.execResponseTimeout s
  | .probeTimerExpiry t => Sys2Proof.Machine.execProbeTimerExpiry t s
  | .nightPollGapExpiry => Sys2Proof.Machine.execNightPollGapExpiry s
  | .returnTransmissionStart => Sys2Proof.Machine.execReturnTransmissionStart s
  | .returnFrameSent => Sys2Proof.Machine.execReturnFrameSent s
  | .feedByteReceived unit => Sys2Proof.Machine.execFeedByteReceived unit s
  | .terminalCharacterReceived char => Sys2Proof.Machine.execTerminalCharacterReceived char s
  | .refusedManagementFrame => Sys2Proof.Machine.execRefusedManagementFrame s

end Sys2Proof.Machine
end

