-- ==== Sys2Proof/Machine/Outputs.lean ====
section
/-!
DEFINITION. What the part's output pins present, as functions of the state (Table 0-2, Table 5-1): the
chain ports, the flash clock, the ticker output, the terminal line and the return line, with the serial
form of a stage and of a character (R112, R135, R172, R174, R178).
-/

namespace Sys2Proof.Machine

/-! ## Board chains (Table 5-1, Table 5-3, R87 to R89, R178) -/

/-- Whether a chain's shift clock is running: in SHIFTING alone, and never while the reset pin is held or
during INIT (Table 5-3, R89, R174). -/
def shiftClockRuns (s : State) (c : ChainId) : Bool :=
  s.phase == .running && s.chains[c].state == .shifting

/-- Whether a chain's blanking output is active at a step, 0 to 255, of its PWM period (R87): held active
in OFFLINE and in reset, and otherwise inactive for the first `pwmLevel` steps. R87 says that the level read in
OFFLINE is not used, and not what the rest of a period begun in OFFLINE shows when the chain leaves OFFLINE
within it: here the level read at that period's start drives it (DESIGN CHOICE, log entry 31). -/
def blankingActive (s : State) (c : ChainId) (step : Nat) : Bool :=
  s.phase ≠ .running || s.chains[c].state == .offline || s.chains[c].pwmLevel.toNat ≤ step

/-- The bits of an image on the shift data line: stage by stage, most significant bit first (R178). -/
def shiftBits (image : List Byte) : List Bool := image.flatMap bitsOf

/-- The shift data line, `k` shift clocks into what it is sending: low while the reset pin is held and
during INIT, in SHIFTING the bits of the cycle's image (R77, R89, R174, R178). Between cycles the shift
clock is still and the manual states no level: none (DESIGN CHOICE, log entry 30). -/
def shiftData (s : State) (c : ChainId) (k : Nat) : Option Bool :=
  if s.phase ≠ .running then some false
  else if s.chains[c].state = .shifting then
    s.chains[c].cycle.bind (fun cy => (shiftBits cy.image)[k]?)
  else none

/-- The flash clock output: low while the reset pin is held and during INIT (R88, R174). -/
def flashOutput (s : State) : Bool := s.phase == .running && s.flashClock.level

/-- The lamps that a LAMP module lights for latched lamp bits at a level of the flash clock: with FLASH on,
UP and DOWN are lit while the clock is high alone (R88). The answer is in the bit places of R178, FLASH
itself being no lamp that lights. -/
def lampsLit (bits : Byte) (flashHigh : Bool) : Byte :=
  let lamps := bits &&& 0x37
  if bits.getLsbD 3 && !flashHigh then lamps &&& 0x34 else lamps

/-! ## Ticker (R112, R128, R133, R178) -/

/-- The character presented on the ticker output: the blank while it is held blank. -/
def tickerPresents (s : State) : Byte :=
  if s.phase = .running ∧ s.ticker.state ≠ .stopped then s.ticker.out.getD 0x20 else 0x20

/-- One asynchronous character: a start bit, eight data bits least significant first, a stop bit (R135,
R178). -/
def characterBits (b : Byte) : List Bool := false :: (bitsOf b).reverse ++ [true]

/-- The marking level, at which an asynchronous line rests. -/
def marking : Bool := true

/-- The ticker output line, `k` bit times of 2400 bit/s after the last step: the character of that step,
whose start bit is the step strobe, and then the marking level; marking throughout where no step has
emitted a character, and in reset (R133, R174, R178). The step at which the ticker stops emits its blank
like any other (R114), and the line rests at marking after it (DEDUCED, log entry 19). -/
def tickerLine (s : State) (k : Nat) : Bool :=
  if s.phase = .running then ((s.ticker.out.map characterBits).getD []).getD k marking else marking

/-! ## Terminal line (R135, R153) -/

/-- The line direction output: active while a primary frame is being sent. -/
def lineDirectionActive (s : State) : Bool :=
  s.phase == .running && s.line.transaction.any (fun tx => tx.sending)

/-- The bit rate of a terminal line rate code. -/
def lineRate : Nat → Nat
  | 0 => 1200
  | 1 => 2400
  | 2 => 4800
  | _ => 9600

/-- The bits of the primary frame being sent. -/
def primaryBits (tx : Transaction) : List Bool := tx.frame.flatMap characterBits

/-- The transmit data, `k` bit times after the start of what is sent: the primary frame while it is being
sent, and otherwise, in reset too, the marking level (R135, R153, R174). -/
def transmitData (s : State) (k : Nat) : Bool :=
  if lineDirectionActive s then
    ((s.line.transaction.map primaryBits).getD []).getD k marking
  else marking

/-! ## Return line (R172, R174) -/

/-- The bytes that the return transmitter is sending: its frame, or one SYNC of idle fill, which is all it sends
during INIT; none while the reset pin holds the line at the marking level. -/
def returnBytes (s : State) : List Byte :=
  match s.phase with
  | .pinHeld => []
  | .initRunning => [0x5A]
  | .running => s.mgmt.sending.getD [0x5A]

/-- Whether the return transmitter is sending a frame: with the part in operation alone. -/
def returnsFrame (s : State) : Bool := s.phase == .running && s.mgmt.sending.isSome

/-- The return line, `k` bits into what is sent: each byte most significant bit first, as on the feed line,
the SYNC of the fill over and over, and the marking level while the reset pin is held (R38, R172, R174). -/
def returnLine (s : State) (k : Nat) : Bool :=
  ((returnBytes s).flatMap bitsOf).getD (if returnsFrame s then k else k % 8) marking

end Sys2Proof.Machine
end

