-- ==== Sys2Proof/Safety.lean ====
section
/-!
DEFINITION. What a safe run is: the laws of the manual that hold of every state between two steps. Each law
is a property of one state, and the statements say that every step keeps it.
-/

namespace Sys2Proof.Safety

open Sys2Proof.Machine

/-! ## Records and directory (chapter 1) -/

/-- R3: the directory is in the order of R2, and holds exactly one entry for each DEFINED record, with that
record's symbol. -/
def DirectoryExact (s : State) : Prop :=
  (s.directory.map (fun e => symbolKey e.1)).Pairwise (· < ·)
    ∧ ∀ (c : SymbolCode) (n : Nat),
      (c, n) ∈ s.directory ↔ ∃ r, tableGet s.records n = some r ∧ r.symbol = c

/-- R21: while the feed state is LOST, every DEFINED record is stale. -/
def LostIsStale (s : State) : Prop :=
  s.feed.feedState = .lost → ∀ n r, tableGet s.records n = some r → r.stale = true

/-- R20: every DEFINED record's net change is last − previous close, and 0 while last is absent. -/
def NetChangeExact (s : State) : Prop :=
  ∀ n r, tableGet s.records n = some r →
    r.netChange = match r.last with
      | some p => (p : Int) - (r.prevClose : Int)
      | none => 0

/-- R19: where the tick is not NONE, the last price, the high and the low are present and
low ≤ last ≤ high. -/
def RangeHoldsLast (s : State) : Prop :=
  ∀ n r, tableGet s.records n = some r → r.tick ≠ .none →
    ∃ low last high, r.low = some low ∧ r.last = some last ∧ r.high = some high
      ∧ low ≤ last ∧ last ≤ high

/-- An optional price within 0 to 2,559,999 (R23). -/
def PriceInRange (p : Option Nat) : Prop := ∀ x, p = some x → x ≤ 2559999

/-- Table 1-2: the prices, the volume, the last trade time and the last tape whole of every DEFINED record
lie in their ranges. -/
def RecordsInRange (s : State) : Prop :=
  ∀ n r, tableGet s.records n = some r →
    r.prevClose ≤ 2559999 ∧ PriceInRange r.last ∧ PriceInRange r.high ∧ PriceInRange r.low
      ∧ PriceInRange r.bid ∧ PriceInRange r.ask ∧ r.volume ≤ 999999999
      ∧ (∀ t, r.lastTime = some t → t.hour ≤ 23 ∧ t.minute ≤ 59 ∧ t.second ≤ 59)
      ∧ (∀ w, r.tapeWhole = some w → w ≤ 9999)

/-- The records and the slots are numbered 0 to 511 and 0 to 255, each listed once, in rising order. -/
def TablesCanonical (s : State) : Prop := tableWf 512 s.records ∧ tableWf 256 s.slots

/-! ## LOAD (R167) -/

/-- The loadable tables. -/
inductive LoadTable where
  | param
  | symbol
  | slot
  | chain
  | module
  | terminal
  deriving DecidableEq, Repr

/-- The command that takes the next entry of a LOAD of a table. -/
def LoadTable.command : LoadTable → Instr
  | .param => .loadParam
  | .symbol => .loadSymbol
  | .slot => .loadSlot
  | .chain => .loadChain
  | .module => .loadModule
  | .terminal => .loadTerminal

/-- The step that a LOAD of a table calls for. -/
def LoadTable.step : LoadTable → FrameStep
  | .param => .loadParam
  | .symbol => .loadSymbol
  | .slot => .loadSlot
  | .chain => .loadChain
  | .module => .loadModule
  | .terminal => .loadTerminal

/-- The number of entries of a table (Table 11-5). -/
def LoadTable.size : LoadTable → Nat
  | .param => 20
  | .symbol => 512
  | .slot => 256
  | .chain => 4
  | .module => 256
  | .terminal => 32

/-- The length of an entry of a table (Table 11-5). -/
def LoadTable.entrySize : LoadTable → Nat
  | .param => 2
  | .symbol => 11
  | .slot => 15
  | .chain => 7
  | .module => 1
  | .terminal => 34

/-- What the owner of a table does with one entry, or none where it refuses it, in a command that began in the
state `s`. -/
def LoadTable.apply (s : State) : LoadTable → Nat → List Byte → State → Option State
  | .param => applyParamEntry
  | .symbol => applySymbolEntry
  | .slot => applySlotTable s
  | .chain => applyChainTable
  | .module => applyModuleTable
  | .terminal => applyTerminalTable

/-! ## Queues and stacks -/

/-- R47: the intake queue holds at most 16 entries. -/
def IntakeBounded (s : State) : Prop := s.intake.length ≤ 16

/-- R50, R167: a LOAD under way stands at the head of the intake queue; it has passed its checks, and has
entries still to apply. -/
def LoadPlaced (s : State) : Prop :=
  ∀ done, s.load = some done →
    ∃ (e : IntakeEntry) (rest : List IntakeEntry) (table : LoadTable),
      s.intake = e :: rest ∧ frameStep e.body = table.step
        ∧ at16 (payload e.body) 1 + at16 (payload e.body) 3 ≤ table.size
        ∧ (payload e.body).length = 5 + at16 (payload e.body) 3 * table.entrySize
        ∧ done < at16 (payload e.body) 3

/-- R106: no bulletin stack holds more than 4 entries, and none holds an entry whose duration has run
out. -/
def StacksBounded (s : State) : Prop :=
  ∀ k : StackId, (s.bulletins[k]).length ≤ 4 ∧ ∀ e ∈ s.bulletins[k], e.timer ≠ some 0

/-- R115 and the ticker unit's list of state (chapter 7): the ticker queue holds at most 256 entries, the
level is 0 whenever the ticker is STOPPED, and the level, the late minutes and the separator count lie in
their ranges. -/
def TickerBounded (s : State) : Prop :=
  s.ticker.queue.length ≤ 256 ∧ (s.ticker.state = .stopped → s.ticker.level = 0)
    ∧ s.ticker.level ≤ 4 ∧ s.ticker.lateMinutes ≤ 720 ∧ s.ticker.separator ≤ 2

/-- R112: a STOPPED ticker holds an empty queue, no text and no separator, and its step timer is stopped;
otherwise the timer runs. -/
def TickerStoppedRests (s : State) : Prop :=
  (s.ticker.state = .stopped →
      s.ticker.queue = [] ∧ s.ticker.text = [] ∧ s.ticker.separator = 0
        ∧ s.ticker.stepTimer = none)
    ∧ (s.ticker.state ≠ .stopped → s.ticker.stepTimer.isSome = true)

/-- R132: admitted = printed + merged + omitted + the PRINT entries in the queue, modulo 2^24. -/
def CountersBalance (s : State) : Prop :=
  s.ticker.admitted = s.ticker.printed + s.ticker.merged + s.ticker.omitted
    + BitVec.ofNat 24 (s.ticker.queue.countP isPrint)

/-- R172: at most 4 REPLY frames and at most one ALERT frame wait. -/
def RepliesBounded (s : State) : Prop :=
  repliesWaiting s.mgmt.replyQueue ≤ 4 ∧ s.mgmt.replyQueue.count .alert ≤ 1

/-- R57, R59: the exchange clock is 0 to 86399, and the second phase 0 to 999. -/
def TimeInRange (s : State) : Prop := s.time.clock ≤ 86399 ∧ s.time.phaseTicks ≤ 999

/-! ## Boards -/

/-- R74, R77, R79, R80, R82: a cycle is in flight in SHIFTING and SETTLING alone, the keepalive timer runs
in IDLE alone and the settle timer in SETTLING alone; in OFFLINE the shadow is invalid; a chain that is
absent is OFFLINE; and the fault count is 0 to 3. -/
def ChainsFit (s : State) : Prop :=
  ∀ c : ChainId,
    ((s.chains[c]).cycle.isSome = true ↔
        (s.chains[c]).state = .shifting ∨ (s.chains[c]).state = .settling)
      ∧ ((s.chains[c]).keepaliveTimer.isSome = true ↔ (s.chains[c]).state = .idle)
      ∧ ((s.chains[c]).settleTimer.isSome = true ↔ (s.chains[c]).state = .settling)
      ∧ ((s.chains[c]).state = .offline → (s.chains[c]).shadowValid = false)
      ∧ ((s.chains[c]).senseLevel = false → (s.chains[c]).state = .offline)
      ∧ (s.chains[c]).faultCount ≤ 3

/-- R93: no character cell and no lamp cell of a chain is claimed by two slots. -/
def ClaimsDisjoint (s : State) : Prop :=
  ∀ n m a b, tableGet s.slots n = some a → tableGet s.slots m = some b → n ≠ m →
    ∀ c cell, ¬ (claimsCell c cell a = true ∧ claimsCell c cell b = true)
      ∧ ¬ (claimsLamp c cell a = true ∧ claimsLamp c cell b = true)

/-! ## Terminals -/

/-- The number of rows of one terminal that name record n. -/
def rowsNaming (t : Terminal) (n : Nat) : Nat :=
  t.rows.toList.countP (fun r => r.record == some n)

/-- The number of rows of all 32 terminals that name record n. -/
def allRowsNaming (s : State) (n : Nat) : Nat :=
  (s.line.terminals.toList.map (fun t => rowsNaming t n)).sum

/-- R156: every DEFINED record's watch count equals the number of rows naming it, and no row names an EMPTY
record. -/
def WatchExact (s : State) : Prop :=
  (∀ n r, tableGet s.records n = some r → r.watch = allRowsNaming s n)
    ∧ ∀ n, tableGet s.records n = none → allRowsNaming s n = 0

/-- The form of a row's sets (R155, R161): a named row holds field names alone, and an EMPTY row CLEAR
alone or nothing. -/
def RowForm (r : Row) : Prop :=
  (r.record.isSome = true → r.pending &&& nameClear = 0 ∧ r.inFlight &&& nameClear = 0)
    ∧ (r.record = none →
      (r.pending = 0 ∨ r.pending = nameClear) ∧ (r.inFlight = 0 ∨ r.inFlight = nameClear))

/-- R155: every row's sets fit what it holds, and no record is named by two rows of one terminal. -/
def RowsFormed (s : State) : Prop :=
  ∀ t : TermId,
    (∀ i : Fin 16, RowForm ((s.line.terminals[t]).rows[i]))
      ∧ ∀ (i j : Fin 16) (n : Nat),
        ((s.line.terminals[t]).rows[i]).record = some n →
        ((s.line.terminals[t]).rows[j]).record = some n → i = j

/-- Whether nothing of a terminal is in flight: no row's set and not its status line. -/
def NothingInFlight (t : Terminal) : Prop :=
  (∀ i : Fin 16, (t.rows[i]).inFlight = 0) ∧ t.statusInFlight = false

/-- The terminal state that each primary frame is sent in, with its outstanding number (Table 8-1). -/
def KindFits (kind : PrimaryKind) (t : Terminal) : Prop :=
  match kind with
  | .activate => t.state = .absent
  | .screenInit => t.state = .activating
  | .poll => t.state = .active ∧ t.outstanding = none
  | .update => t.state = .active ∧ t.outstanding.isSome = true
  | .enquiry => t.state = .recovery ∧ t.outstanding.isSome = true

/-- R138, first half: at most one UPDATE is outstanding on the line, and nothing is in flight on a terminal
whose outstanding number is absent. -/
def OneOutstanding (s : State) : Prop :=
  (∀ t u : TermId, (s.line.terminals[t]).outstanding.isSome = true →
      (s.line.terminals[u]).outstanding.isSome = true → t = u)
    ∧ ∀ t : TermId, (s.line.terminals[t]).outstanding = none → NothingInFlight s.line.terminals[t]

/-- How an outstanding number goes with the terminal states and the transaction in flight while the part is
in operation: the number is held through its UPDATE in ACTIVE and any RECOVERY that follows (R138), and the
transaction's frame fits its terminal's state (Table 8-1). -/
def OutstandingFits (s : State) : Prop :=
  (∀ t : TermId, (s.line.terminals[t]).state = .recovery →
      (s.line.terminals[t]).outstanding.isSome = true)
    ∧ (∀ t : TermId, (s.line.terminals[t]).outstanding.isSome = true →
      (s.line.terminals[t]).state = .recovery
        ∨ ((s.line.terminals[t]).state = .active
          ∧ ∃ tx, s.line.transaction = some tx ∧ tx.terminal = t ∧ tx.kind = .update))
    ∧ ∀ tx, s.line.transaction = some tx → KindFits tx.kind s.line.terminals[tx.terminal]

/-- The law of R138 as every step keeps it. -/
def LineLaw (s : State) : Prop := OneOutstanding s ∧ (s.phase = .running → OutstandingFits s)

/-! ## Parameters -/

/-- The least and the greatest value of each parameter (Table 10-1). Entry 19 is fixed. -/
def paramRanges : Vector (Nat × Nat) 20 :=
  #v[(0, 254), (0, 254), (0, 254), (0, 254), (0, 60), (0, 50), (2, 20), (8, 250), (8, 250), (1, 3600),
    (1, 3600), (1, 3600), (1, 3600), (0, 600), (1, 65535), (0, 3), (20, 500), (1, 60), (0, 2000),
    (0xFFFF, 0xFFFF)]

/-- R168: every parameter lies in its range, and the four thresholds are strictly increasing. -/
def ParamsLegal (s : State) : Prop :=
  (∀ i : Fin 20, (paramRanges[i]).1 ≤ param s i ∧ param s i ≤ (paramRanges[i]).2)
    ∧ param s 9 < param s 10 ∧ param s 10 < param s 11 ∧ param s 11 < param s 12

/-- The cold value of each parameter (Table 10-1). Entry 19 stands for the fixed cap, and reads FFFFh (R168). -/
def paramColdValues : Vector (BitVec 16) 20 :=
  #v[0, 0, 0, 0, 0, 30, 5, 60, 40, 60, 180, 300, 600, 30, 100, 3, 100, 10, 500, 0xFFFF]

/-! ## The cold state (R5, R55, R68, R89, R111, R133, R153, R165, R174, Table 10-1) -/

/-- A chain controller after a cold reset (R70, R71, R89). -/
abbrev ColdChain (ch : Chain) : Prop :=
  ch.entry = { enabled := false, cellPeriod := 10, settle := 1, keepalive := 1, day := 0, night := 0 }
    ∧ (∀ k : Fin 64, ch.modules[k] = .endOfList) ∧ ch.state = .offline ∧ ch.shadowValid = false
    ∧ ch.resync = false ∧ ch.faultCount = 0 ∧ ch.firstMismatch = none
    ∧ ch.senseLatch = false
    ∧ ch.cycle = none ∧ ch.reload = false ∧ ch.resetPending = false ∧ ch.keepaliveTimer = none
    ∧ ch.settleTimer = none

/-- A terminal after a cold reset (R153, R165). -/
abbrev ColdTerminal (term : Terminal) : Prop :=
  term.enabled = false ∧ term.lock = false ∧ term.state = .disabled ∧ term.nextNumber = 0
    ∧ term.outstanding = none ∧ term.misses = 0 ∧ term.probeTimer = none ∧ term.probeDue = false
    ∧ term.resetPending = false
    ∧ (∀ i : Fin 16, term.rows[i] = { record := none, pending := 0, inFlight := 0 })
    ∧ term.statusPending = false ∧ term.statusInFlight = false ∧ term.result = none ∧ term.rotation = 0

/-- The blocks after a cold reset, but for the flash clock, the alerts and the return line. -/
abbrev ColdBlocks (s : State) : Prop :=
  (s.feed.rx.state = .hunt ∧ s.feed.expected = none ∧ s.feed.gapOwed = false ∧ s.feed.feedState = .notYet
      ∧ s.feed.silence = none)
    ∧ s.intake = [] ∧ s.load = none ∧ s.records = [] ∧ s.directory = []
    ∧ s.time = { clock := 0, clockSet := false, phaseTicks := 0, session := .closed }
    ∧ (∀ c : ChainId, ColdChain s.chains[c]) ∧ s.slots = [] ∧ (∀ k : StackId, s.bulletins[k] = [])
    ∧ (s.ticker.state = .stopped ∧ s.ticker.queue = [] ∧ s.ticker.level = 0 ∧ s.ticker.lateMinutes = 0
      ∧ s.ticker.epoch = 0 ∧ s.ticker.text = [] ∧ s.ticker.separator = 0 ∧ s.ticker.stepTimer = none
      ∧ s.ticker.admitted = 0 ∧ s.ticker.printed = 0 ∧ s.ticker.merged = 0 ∧ s.ticker.omitted = 0)
    ∧ (∀ x : TermId, ColdTerminal s.line.terminals[x]) ∧ s.line.pollPointer = 31
    ∧ s.line.transaction = none ∧ s.line.gap = none ∧ s.mgmt.params = paramColdValues

/-! ## A safe state -/

/-- A state that meets every law. -/
structure Safe (s : State) : Prop where
  directory : DirectoryExact s
  stale : LostIsStale s
  netChange : NetChangeExact s
  range : RangeHoldsLast s
  records : RecordsInRange s
  tables : TablesCanonical s
  intake : IntakeBounded s
  load : LoadPlaced s
  bulletins : StacksBounded s
  ticker : TickerBounded s
  stopped : TickerStoppedRests s
  counters : CountersBalance s
  replies : RepliesBounded s
  time : TimeInRange s
  chains : ChainsFit s
  claims : ClaimsDisjoint s
  watch : WatchExact s
  rows : RowsFormed s
  line : LineLaw s
  params : ParamsLegal s

/-! ## The terms of the statements -/

/-- The part in operation with a head entry in its intake queue that calls for a step (R47). -/
abbrev HeadIs (s : State) (e : IntakeEntry) (rest : List IntakeEntry) (step : FrameStep) : Prop :=
  s.phase = .running ∧ s.intake = e :: rest ∧ frameStep e.body = step

/-- The state in which the head entry's frame is examined: the gap-before marking made where the entry
carries it (R48). -/
def afterGap (e : IntakeEntry) (s : State) : State := if e.gapBefore then markAllStale s else s

/-- The blocks that no record update, table load or board event touches stay as they are: the feed
receiver, the clock and session, the flash clock, the place of a LOAD, the command queue. -/
def KeepsFeedAndTime (u t : State) : Prop :=
  t.phase = u.phase ∧ t.feed = u.feed ∧ t.time = u.time ∧ t.flashClock = u.flashClock
    ∧ t.load = u.load ∧ t.pending = u.pending

/-- A slot's loaded description. -/
def description (sl : Slot) : ChainId × Nat × SlotKind := (sl.chain, sl.start, sl.kind)

/-- What marking slots may bring about at the boards, and no more: a chain that is not IDLE stays as it is, an
IDLE one may start a refresh and keeps its entry, list, sense and first mismatched module, and every slot
keeps its description. -/
def BoardsOnlyRefresh (u t : State) : Prop :=
  (∀ c : ChainId,
      ((u.chains[c]).state ≠ .idle → t.chains[c] = u.chains[c])
        ∧ (t.chains[c]).entry = (u.chains[c]).entry ∧ (t.chains[c]).modules = (u.chains[c]).modules
        ∧ (t.chains[c]).senseLevel = (u.chains[c]).senseLevel
        ∧ (t.chains[c]).senseLatch = (u.chains[c]).senseLatch
        ∧ (t.chains[c]).firstMismatch = (u.chains[c]).firstMismatch)
    ∧ ∀ n, (tableGet t.slots n).map description = (tableGet u.slots n).map description

/-! ### Codes (Tables 11-3, 11-6 and 11-10) -/

/-- The code of a reset cause. -/
def causeNumber : ResetCause → Byte
  | .powerOn => 1
  | .pin => 2
  | .coldCommand => 3
  | .warmCommand => 4

/-- The code of a feed state. -/
def feedNumber : FeedState → Byte
  | .notYet => 0
  | .running => 1
  | .lost => 2

/-- The code of a session state. -/
def sessionNumber : SessionState → Byte
  | .closed => 0
  | .preOpen => 1
  | .openMarket => 2
  | .haltedAll => 3

/-- The code of a chain state. -/
def chainNumber : ChainState → Byte
  | .offline => 0
  | .idle => 1
  | .shifting => 2
  | .settling => 3

/-- The code of a ticker state. -/
def tickerNumber : TickerState → Byte
  | .stopped => 0
  | .running => 1
  | .draining => 2

/-- The code of a terminal state, a half byte of the report. -/
def terminalNumber : TermState → Nat
  | .disabled => 0
  | .absent => 1
  | .activating => 2
  | .active => 3
  | .recovery => 4

/-- The code of a trading state. -/
def tradingNumber : TradingState → Byte
  | .notOpen => 0
  | .trading => 1
  | .halted => 2

/-- The code of a tick. -/
def tickNumber : Tick → Byte
  | .none => 0
  | .up => 1
  | .down => 2
  | .zeroPlus => 3
  | .zeroMinus => 4

/-- The code of a request result. -/
def resultNumber : ResultCode → Byte
  | .accepted => 0
  | .locked => 1
  | .unknown => 2
  | .duplicate => 3
  | .full => 4
  | .emptyRow => 5
  | .badRow => 6

/-- The bit of an alert in a status or a mask (below Table 11-6). -/
def alertNumber : Alert → Nat
  | .reset => 0
  | .feedGap => 1
  | .feedLost => 2
  | .chainFault c => 3 + c.val
  | .chainSense c => 7 + c.val
  | .terminalLost => 11
  | .tapeLevel => 12
  | .tapeOmit => 13
  | .replyOverrun => 14

/-! ### Payloads of market data (R1, R23, R49, Tables 3-4, 11-2, 11-3 and 11-11) -/

/-- A letter A to Z. -/
abbrev IsLetter (b : Byte) : Prop := 0x41 ≤ b.toNat ∧ b.toNat ≤ 0x5A

/-- R1: a well-formed symbol code: letters and blanks, no letter behind a blank of the root, and a letter in the
root unless all five bytes are blank. -/
abbrev GoodSymbol (c : SymbolCode) : Prop :=
  (∀ b ∈ [c.r0, c.r1, c.r2, c.r3, c.cls], IsLetter b ∨ b = 0x20)
    ∧ ([c.r0, c.r1, c.r2, c.r3].Pairwise (fun a b => a = 0x20 → ¬ IsLetter b))
    ∧ ((∃ b ∈ [c.r0, c.r1, c.r2, c.r3], IsLetter b) ∨ ∀ b ∈ [c.r0, c.r1, c.r2, c.r3, c.cls], b = 0x20)

/-- R23: whether the price field at an offset carries the absent marker. -/
abbrev PriceAbsent (p : List Byte) (i : Nat) : Prop := at16 p i = 0xFFFF

/-- R23: whether the price field at an offset, where it is not absent, fails: a whole part of 10000 to FFFEh, a
denominator code of 0 or above 8, a numerator not below the denominator. -/
abbrev PriceFails (p : List Byte) (i : Nat) : Prop :=
  ¬ PriceAbsent p i
    ∧ (9999 < at16 p i ∨ at8 p (i + 2) = 0 ∨ 8 < at8 p (i + 2) ∨ 2 ^ at8 p (i + 2) ≤ at8 p (i + 3))

/-- R23: the price units of the field at an offset. -/
def unitsAt (p : List Byte) (i : Nat) : Nat :=
  at16 p i * 256 + at8 p (i + 3) * (256 / 2 ^ at8 p (i + 2))

/-- R23: the price at an offset where absence is allowed. -/
def priceOf (p : List Byte) (i : Nat) : Option Nat := if PriceAbsent p i then none else some (unitsAt p i)

/-- Whether the time at an offset is out of range. -/
abbrev TimeFails (p : List Byte) (i : Nat) : Prop :=
  23 < at8 p i ∨ 59 < at8 p (i + 1) ∨ 59 < at8 p (i + 2)

/-- The time at an offset: hour, minute, second. -/
def timeOf (p : List Byte) (i : Nat) : TimeOfDay :=
  { hour := at8 p i, minute := at8 p (i + 1), second := at8 p (i + 2) }

/-- Table 3-4: a malformed TRADE. -/
abbrev TradeFails (p : List Byte) : Prop :=
  p.length ≠ 17 ∨ ¬ GoodSymbol (symbolAt p 0) ∨ PriceAbsent p 5 ∨ PriceFails p 5 ∨ at32 p 9 = 0
    ∨ 9999999 < at32 p 9 ∨ TimeFails p 13 ∨ 2 < at8 p 16

/-- Table 11-2: the items of a TRADE. -/
def tradeOf (p : List Byte) : TradeItems :=
  { symbol := symbolAt p 0, price := unitsAt p 5, volume := at32 p 9, time := timeOf p 13,
    condition := if at8 p 16 = 0 then .regular else if at8 p 16 = 1 then .opening else .outOfSequence }

/-- Table 3-4: a malformed QUOTE. -/
abbrev QuoteFails (p : List Byte) : Prop :=
  p.length ≠ 13 ∨ ¬ GoodSymbol (symbolAt p 0) ∨ PriceFails p 5 ∨ PriceFails p 9

/-- Table 11-2: the items of a QUOTE. -/
def quoteOf (p : List Byte) : QuoteItems :=
  { symbol := symbolAt p 0, bid := priceOf p 5, ask := priceOf p 9 }

/-- Table 3-4: a malformed SYMBOL STATE. -/
abbrev SymbolStateFails (p : List Byte) : Prop :=
  p.length ≠ 6 ∨ ¬ GoodSymbol (symbolAt p 0) ∨ (at8 p 5 ≠ 1 ∧ at8 p 5 ≠ 2)

/-- Table 11-2: the items of a SYMBOL STATE, of action HALT or RESUME. -/
def symbolStateOf (p : List Byte) : SymbolStateItems :=
  { symbol := symbolAt p 0, halt := decide (at8 p 5 = 1) }

/-- Table 3-4: a malformed RECAP. -/
abbrev RecapFails (p : List Byte) : Prop :=
  p.length ≠ 35 ∨ ¬ GoodSymbol (symbolAt p 0) ∨ 2 < at8 p 5 ∨ PriceAbsent p 6 ∨ 4 < at8 p 14
    ∨ 999999999 < at32 p 23 ∨ ∃ i ∈ [6, 10, 15, 19, 27, 31], PriceFails p i

/-- Table 11-2: the items of a RECAP. -/
def recapOf (p : List Byte) : RecapItems :=
  { symbol := symbolAt p 0,
    state := if at8 p 5 = 0 then .notOpen else if at8 p 5 = 1 then .trading else .halted,
    prevClose := unitsAt p 6, last := priceOf p 10,
    tick := if at8 p 14 = 0 then .none else if at8 p 14 = 1 then .up else if at8 p 14 = 2 then .down
      else if at8 p 14 = 3 then .zeroPlus else .zeroMinus,
    high := priceOf p 15, low := priceOf p 19, volume := at32 p 23, bid := priceOf p 27,
    ask := priceOf p 31 }

/-- Table 3-4: a malformed CLOCK. -/
abbrev ClockFails (p : List Byte) : Prop := p.length ≠ 3 ∨ TimeFails p 0

/-- Table 3-4: a malformed SESSION. -/
abbrev SessionFails (p : List Byte) : Prop := p.length ≠ 1 ∨ at8 p 0 = 0 ∨ 5 < at8 p 0

/-- Table 11-3: the code of a SESSION. -/
def sessionCodeOf (p : List Byte) : SessionCode :=
  if at8 p 0 = 1 then .preOpen else if at8 p 0 = 2 then .openMarket else if at8 p 0 = 3 then .haltAll
  else if at8 p 0 = 4 then .resumeAll else .close

/-- Table 11-11: a character code. -/
abbrev InCharacterSet (b : Byte) : Prop :=
  (0x01 ≤ b.toNat ∧ b.toNat ≤ 0x0F) ∨ (0x30 ≤ b.toNat ∧ b.toNat ≤ 0x39) ∨ IsLetter b
    ∨ b ∈ ([0x20, 0x2A, 0x2B, 0x2D, 0x2E, 0x3A, 0x3C, 0x3E, 0x73] : List Byte)

/-- Table 3-4: a malformed BULLETIN. -/
abbrev BulletinFails (p : List Byte) : Prop :=
  p.length < 6 ∨ p.length ≠ 6 + at8 p 5 ∨ 7 < at8 p 0 ∨ at8 p 1 = 0 ∨ 3 < at8 p 1 ∨ 3600 < at16 p 2
    ∨ 1 < at8 p 4 ∨ 32 < at8 p 5 ∨ ∃ b ∈ p.drop 6, ¬ InCharacterSet b

/-- Table 11-2: the items of a BULLETIN but for its action. -/
def bulletinOf (p : List Byte) : BulletinItems :=
  { stack := Fin.ofNat 8 (at8 p 0), duration := at16 p 2, tapeFlag := decide (at8 p 4 = 1),
    text := p.drop 6 }

/-- How a reading of payloads goes: none where the payload fails, and its items where it does not. -/
abbrev Reads {α : Type} (items : List Byte → Option α) (fails : List Byte → Prop)
    (carried : List Byte → α) : Prop :=
  ∀ p, (fails p → items p = none) ∧ (¬ fails p → items p = some (carried p))

/-! ### The interval tick (R57, R58) -/

/-- A timer one tick on. -/
def tickedTimer (t : Timer) : Timer := t.map (fun left => left - 1)

/-- The state with every timer of Table 4-1 one tick on, and one more tick of the second phase (R58, R59). -/
def tickedOnce (s : State) : State :=
  { s with
    time := { s.time with phaseTicks := s.time.phaseTicks + 1 },
    feed := { s.feed with silence := tickedTimer s.feed.silence },
    chains := s.chains.map (fun ch =>
      { ch with
        settleTimer := tickedTimer ch.settleTimer, keepaliveTimer := tickedTimer ch.keepaliveTimer }),
    flashClock := { s.flashClock with timer := tickedTimer s.flashClock.timer },
    slots := s.slots.map (fun e => (e.1, { e.2 with flash := tickedTimer e.2.flash })),
    bulletins := s.bulletins.map (fun entries =>
      entries.map (fun b => { b with timer := tickedTimer b.timer })),
    ticker := { s.ticker with stepTimer := tickedTimer s.ticker.stepTimer },
    line := { s.line with
      terminals := s.line.terminals.map (fun t => { t with probeTimer := tickedTimer t.probeTimer }),
      gap := tickedTimer s.line.gap,
      transaction := s.line.transaction.map (fun tx => { tx with timeout := tickedTimer tx.timeout }) } }

/-- A timer with the test that it has come to its end, and the command that carries out its expiry. -/
abbrev Expiry := (State → Bool) × Instr

/-- Whether a timer has come to its end. -/
def timerEnds (t : Timer) : Bool := t == some 0

/-- The settle timer and the keepalive timer of a chain. -/
def chainExpiries (c : ChainId) : List Expiry :=
  [(fun v => timerEnds v.chains[c].settleTimer, .settleCompletion c),
    (fun v => timerEnds v.chains[c].keepaliveTimer, .keepaliveExpiry c)]

/-- The flash timer of a slot. -/
def flashEnds (n : Nat) : Expiry :=
  (fun v => (tableGet v.slots n).any (fun sl => timerEnds sl.flash), .flashExpiry n)

/-- The duration timers of the entries of a stack, from the bottom place up. -/
def stackExpiries (k : StackId) : List Expiry :=
  [3, 2, 1, 0].map (fun place =>
    (fun v => ((v.bulletins[k])[place]?).any (fun b => timerEnds b.timer), .bulletinDurationExpiry k place))

/-- The probe timer of a terminal. -/
def probeEnds (x : TermId) : Expiry :=
  (fun v => timerEnds (v.line.terminals[x]).probeTimer, .probeTimerExpiry x)

/-- The timers of Table 4-1 in its order (the order is the model's choice, log entry 6). -/
def expiries (s : State) : List Expiry :=
  [[(fun v => decide (1000 ≤ v.time.phaseTicks), .secondPhaseExpiry),
      (fun v => timerEnds v.feed.silence, .silenceTimerExpiry)],
    (List.finRange 4).flatMap chainExpiries,
    [(fun v => timerEnds v.flashClock.timer, .flashClockHalfPeriod)],
    s.slots.map (fun e => flashEnds e.1),
    (List.finRange 8).flatMap stackExpiries,
    [(fun v => timerEnds v.ticker.stepTimer, .step),
      (fun v => v.line.transaction.any (fun tx => timerEnds tx.timeout), .responseTimeout)],
    (List.finRange 32).map probeEnds,
    [(fun v => timerEnds v.line.gap, .nightPollGapExpiry)]].flatten

/-- An expiry taken where its timer has come to its end, as the command that carries it out does. -/
def expiryTaken (v : State) (e : Expiry) : State :=
  if e.1 v then
    match exec e.2 v with
    | .next t => t
    | .fault _ => v
    | .refused _ => v
  else v

/-! ### The arrival of a frame (R40, R42, R43) -/

/-- R43: whether a frame's TYPE, 20h to 3Fh, is market data. -/
abbrev MarketData (body : List Byte) : Prop := 0x20 ≤ at8 body 2 ∧ at8 body 2 ≤ 0x3F

/-- R44: whether a frame is accepted by address. DEST GROUP is FFh, or one of the four group addresses that is not 0;
DEST STATION is 0, or the station address of the straps where they are 1 to 62. -/
abbrev AddressedHere (s : State) (body : List Byte) : Prop :=
  (at8 body 0 = 0xFF ∨ (at8 body 0 ≠ 0 ∧ (at8 body 0 = param s 0 ∨ at8 body 0 = param s 1
      ∨ at8 body 0 = param s 2 ∨ at8 body 0 = param s 3)))
    ∧ (at8 body 1 = 0 ∨ (at8 body 1 = s.feed.station.toNat ∧ 1 ≤ s.feed.station.toNat
      ∧ s.feed.station.toNat ≤ 62))

/-- R45: whether a TYPE names a frame taken from the feed line: 21h to 27h and 41h to 45h. -/
abbrev TypeIsTaken (body : List Byte) : Prop :=
  (0x21 ≤ at8 body 2 ∧ at8 body 2 ≤ 0x27) ∨ (0x41 ≤ at8 body 2 ∧ at8 body 2 ≤ 0x45)

/-- The part in operation, its feed receiver before the second CRC byte of a frame (R40). -/
abbrev FrameEnds (s : State) : Prop :=
  s.phase = .running ∧ s.feed.rx.state = .check ∧ s.feed.rx.nbits = 0 ∧ s.feed.rx.crcHigh.isSome = true

/-- The received CRC, high byte first, equals the register (R40). -/
abbrev CrcAgrees (s : State) (low : Byte) : Prop :=
  s.feed.rx.crcHigh = some (s.feed.rx.crc.extractLsb' 8 8) ∧ low = s.feed.rx.crc.extractLsb' 0 8

/-- The part in operation, and a byte that ends a frame with the CRC that its register holds (R40). -/
abbrev FrameArrives (s : State) (low : Byte) : Prop := FrameEnds s ∧ CrcAgrees s low

/-- The sequence number of the frame being received (R43, Table 11-1). -/
def arrivingNumber (s : State) : BitVec 16 := BitVec.ofNat 16 (at16 s.feed.rx.body 3)

/-- How many numbers the frame being received runs ahead of the expected one: d of R43, and 0 where the expected
number is unset. -/
def runsAhead (s : State) : Nat :=
  match s.feed.expected with
  | none => 0
  | some x => (arrivingNumber s - x).toNat

/-- Whether the frame being received follows a gap (R43), where it is not old. -/
def followsGap (s : State) : Bool := decide (MarketData s.feed.rx.body ∧ 0 < runsAhead s)

/-- The feed receiver after the arrival of a CRC-valid frame that is not old (R42, R43): in RUNNING, the silence
timer restarted, the expected number past a market data frame; a gap, or leaving LOST, is owed. -/
def feedAfter (s : State) : Feed :=
  { s.feed with
    rx := huntReceiver, feedState := .running,
    silence := if param s 4 = 0 then none else some (param s 4 * 1000),
    expected := if MarketData s.feed.rx.body then some (arrivingNumber s + 1) else s.feed.expected,
    gapOwed := s.feed.gapOwed || decide (s.feed.feedState = .lost) || followsGap s }

/-- The responder after the same arrival: FEED GAP set at a gap (R43). -/
def mgmtAfter (s : State) : Management :=
  if followsGap s then alertSet .feedGap s.mgmt else s.mgmt

/-! ### A SLOT entry (R92, R93, R177, Table 11-7) -/

/-- The field codes of a SLOT entry: the run before the first 00h of the six places. -/
def slotCodes (x : List Byte) : List Byte := ((x.drop 6).take 6).takeWhile (fun b => b ≠ 0)

/-- The board field of a code. -/
def fieldOf (b : Byte) : BoardField :=
  match b.toNat with
  | 1 => .symbol
  | 2 => .last
  | 3 => .change
  | 4 => .high
  | 5 => .low
  | 6 => .volume
  | 7 => .bid
  | _ => .ask

/-- The cells that a SLOT entry that is not EMPTY asks for (Table 6-1): a QUOTE its fields of five cells, VOLUME
six, with the gap between two; a MESSAGE its width; a CLOCK 5; a STATUS 16. -/
def slotSpan (x : List Byte) : Nat :=
  let codes := slotCodes x
  if at8 x 0 = 1 then
    (codes.map (fun b => if b = 6 then 6 else 5)).sum + at8 x 12 * (codes.length - 1)
  else if at8 x 0 = 2 then at8 x 4 else if at8 x 0 = 3 then 5 else 16

/-- The values for which R93 and R177 refuse a SLOT entry: of the kind, of the place, of a QUOTE, of a MESSAGE. -/
def SlotValuesFail (x : List Byte) : Prop :=
  let codes := slotCodes x
  4 < at8 x 0
    ∨ (at8 x 0 ≠ 0 ∧ (3 < at8 x 1 ∨ 511 < at16 x 2 ∨ 512 < at16 x 2 + slotSpan x))
    ∨ (at8 x 0 = 1 ∧ (511 < at16 x 4 ∨ codes = [] ∨ (∃ b ∈ codes, 8 < b.toNat) ∨ ¬ codes.Nodup
      ∨ 3 < at8 x 12 ∨ (63 < at8 x 13 ∧ at8 x 13 ≠ 0xFF) ∨ 1 < at8 x 14))
    ∨ (at8 x 0 = 2 ∧ (at8 x 4 = 0 ∨ 32 < at8 x 4 ∨ 7 < at8 x 5))

/-- The slot that a SLOT entry of good values describes, where it is not EMPTY (Table 11-7). -/
def slotOf (x : List Byte) : Slot :=
  { chain := Fin.ofNat 4 (at8 x 1), start := at16 x 2, dirty := true, flash := none,
    kind :=
      if at8 x 0 = 1 then
        .quote (at16 x 4) ((slotCodes x).map fieldOf) (at8 x 12)
          (if at8 x 13 = 0xFF then none else some (at8 x 13)) (decide (at8 x 14 = 1))
      else if at8 x 0 = 2 then .message (at8 x 4) (Fin.ofNat 8 (at8 x 5))
      else if at8 x 0 = 3 then .clock else .status }

/-- Whether another slot than n claims a character cell or a lamp cell that a slot would claim (R93). -/
def CellTaken (slots : Table Slot) (n : Nat) (sl : Slot) : Prop :=
  ∃ e ∈ slots, e.1 ≠ n ∧ ∃ cell,
    (claimsCell sl.chain cell e.2 = true ∧ claimsCell sl.chain cell sl = true)
      ∨ (claimsLamp sl.chain cell e.2 = true ∧ claimsLamp sl.chain cell sl = true)

/-! ### Marks of the slot composer (R75, R76, R95) -/

/-- The cycle that a refresh start captures from a state (R75 steps 2 to 4). -/
def cycleOf (c : ChainId) (v : State) : Cycle :=
  let ch := v.chains[c]
  { list := inForce ch.modules, cellPeriod := ch.entry.cellPeriod, settle := ch.entry.settle,
    image := composeImage v c (inForce ch.modules), verified := ch.shadowValid, returned := [] }

/-- Chain c after a refresh start from the state v (R75, R77): its cycle captured, its keepalive timer stopped, its
resync cleared; SHIFTING with what it shows unchanged, or, with an image of no stages, latched and settling at once, a match where the shadow was valid. -/
def startedChain (c : ChainId) (v : State) : Chain :=
  let ch := v.chains[c]
  let started : Chain :=
    { ch with cycle := some (cycleOf c v), keepaliveTimer := none, resync := false,
              state := .shifting }
  if (cycleOf c v).image = [] then
    { started with
      state := .settling, settleTimer := some ch.entry.settle, latched := [], shadow := [],
      shadowValid := true, faultCount := if ch.shadowValid then 0 else ch.faultCount }
  else started

/-- A refresh of chain c has started from the state v, and nothing else has come about at that chain. -/
abbrev RefreshStarted (c : ChainId) (v t : State) : Prop := t.chains[c] = startedChain c v

/-- A refresh of chain c, and of no other, has started from the state v: its snapshot has cleaned the slots of the
chain (R76). -/
abbrev RefreshAlone (c : ChainId) (v t : State) : Prop :=
  RefreshStarted c v t
    ∧ ∀ n, tableGet t.slots n
      = (tableGet v.slots n).map (fun sl => if sl.chain = c then { sl with dirty := false } else sl)

/-- The state v with chain c as it enters IDLE out of OFFLINE (R83, R85, R86, R90): the shadow invalid, resync pending,
the keepalive timer started. -/
def withIdle (c : ChainId) (ch : Chain) (v : State) : State :=
  let idle : Chain :=
    { ch with
      state := .idle, shadowValid := false, resync := true, cycle := none, settleTimer := none,
      keepaliveTimer := some (ch.entry.keepalive * 1000) }
  { v with chains := v.chains.set c idle }

/-- What marking slots does at the boards, told whole (R75, R76, R95). From the state v, whose records, stacks,
clock and session are those a snapshot reads, every slot becomes `mark` of itself. An IDLE chain with resync
pending or a dirty slot then starts a refresh, whose snapshot cleans its slots; every other chain stays as it
is. -/
def BoardsMarked (mark : Slot → Slot) (v t : State) : Prop :=
  let slots := v.slots.map (fun e => (e.1, mark e.2))
  let woken (c : ChainId) : Prop :=
    (v.chains[c]).state = .idle
      ∧ ((v.chains[c]).resync = true ∨ ∃ e ∈ slots, e.2.chain = c ∧ e.2.dirty = true)
  (∀ c : ChainId, (woken c → RefreshStarted c { v with slots := slots } t)
      ∧ (¬ woken c → t.chains[c] = v.chains[c]))
    ∧ ∀ n, (∀ sl, tableGet v.slots n = some sl →
        (woken (mark sl).chain → tableGet t.slots n = some { mark sl with dirty := false })
          ∧ (¬ woken (mark sl).chain → tableGet t.slots n = some (mark sl)))
      ∧ (tableGet v.slots n = none → tableGet t.slots n = none)

/-- The chains told of an event (R75, R95): every IDLE chain with resync pending or a dirty slot starts a refresh from
the state v, whose snapshot cleans its slots (R76); every other chain stays as it is. -/
def chainsTold (v : State) : State :=
  let woken (c : ChainId) : Bool :=
    decide ((v.chains[c]).state = .idle)
      && ((v.chains[c]).resync || v.slots.any (fun e => decide (e.2.chain = c) && e.2.dirty))
  { v with
    chains := Vector.ofFn (fun c : ChainId => if woken c then startedChain c v else v.chains[c]),
    slots := v.slots.map (fun e => (e.1, if woken e.2.chain then { e.2 with dirty := false } else e.2)) }

/-- Every slot become `mark` of itself, and the chains told: the state that `BoardsMarked` tells of. -/
def markedBoards (mark : Slot → Slot) (v : State) : State :=
  chainsTold { v with slots := v.slots.map (fun e => (e.1, mark e.2)) }

/-- One of several marks in one step: what the step has done, when it marks, to the state that a snapshot reads, and
what the mark makes of a slot. -/
structure Turn where
  reads : State → State
  mark : Slot → Slot

/-- Several marks in one step, told whole: in turn, from the state v, the state is brought to what a snapshot reads
then, the slots are marked and the chains told. The order of the turns is the model's choice (log entry 11). -/
def BoardsMarkedInTurn (turns : List Turn) (v t : State) : Prop :=
  let w := turns.foldl (fun v turn => markedBoards turn.mark (turn.reads v)) v
  t.chains = w.chains ∧ t.slots = w.slots

/-- What several marks in one step leave at the slots, whatever their order: every slot keeps its description and has
the flash that `mark`, all the marks together, gives it; one whose chain was not IDLE is that mark of itself, its dirty
flag with it. -/
def MarksStand (mark : Slot → Slot) (u t : State) : Prop :=
  ∀ n sl, tableGet u.slots n = some sl → ∃ sl', tableGet t.slots n = some sl'
    ∧ description sl' = description sl ∧ sl'.flash = (mark sl).flash
    ∧ ((u.chains[sl.chain]).state ≠ .idle → sl' = mark sl)

/-- A weaker tale, for several marks in one step: every slot of a kind is dirty after it, or its chain, IDLE
before, has started a refresh. -/
def MarkReaches (kind : SlotKind → Prop) (u t : State) : Prop :=
  ∀ n sl, tableGet t.slots n = some sl → kind sl.kind →
    ((u.chains[sl.chain]).state ≠ .idle → sl.dirty = true)
      ∧ ((u.chains[sl.chain]).state = .idle → (t.chains[sl.chain]).cycle.isSome = true)

/-- The change-set names that alter a board field, in the layout of the name mask (Table 2-6). -/
def alteredBy : BoardField → NameSet
  | .symbol => 0x001
  | .last => 0x006
  | .change => 0x00C
  | .high => 0x020
  | .low => 0x040
  | .volume => 0x080
  | .bid => 0x100
  | .ask => 0x200

/-- A slot after a change set for record n (R96, R98): a QUOTE slot naming n is dirty where a field of its list,
or the lamp cell through TICK, STATE or STALE, depends on a name of the set; a set with LAST starts its flash
where it has flash enabled and the flash period is not 0. -/
def quoteMark (n : Nat) (names : NameSet) (period : Nat) (sl : Slot) : Slot :=
  match sl.kind with
  | .quote record fields _ lamp flash =>
    if record = n then
      let touched := fields.any (fun f => alteredBy f &&& names ≠ 0)
        || (lamp.isSome && decide (names &&& 0x412 ≠ 0))
      let flashes := flash && decide (names &&& 0x004 ≠ 0) && decide (period ≠ 0)
      { sl with dirty := sl.dirty || touched || flashes,
                flash := if flashes then some (period * 100) else sl.flash }
    else sl
  | .message _ _ => sl
  | .clock => sl
  | .status => sl

/-- A slot after a deletion of record n (R97). -/
def deletionMark (n : Nat) (sl : Slot) : Slot :=
  match sl.kind with
  | .quote record _ _ _ _ => if record = n then { sl with dirty := true, flash := none } else sl
  | .message _ _ => sl
  | .clock => sl
  | .status => sl

/-- A slot after a minute change (R102). -/
def clockMark (sl : Slot) : Slot := if sl.kind = .clock then { sl with dirty := true } else sl

/-- A slot after a change of the feed state, the session or the tape level (R104). -/
def statusMark (sl : Slot) : Slot := if sl.kind = .status then { sl with dirty := true } else sl

/-- The terminal line after a change that the status line shows (R150): its flag set for every ACTIVE terminal. -/
def lineWithStatus (l : TerminalLine) : TerminalLine :=
  { l with
    terminals := l.terminals.map (fun t => if t.state = .active then { t with statusPending := true } else t) }

/-- What a frame's arrival shows of the feed state (R54): out of NOT_YET and LOST it becomes RUNNING, which marks the
STATUS slots and the status lines; in RUNNING nothing changes there. -/
def FeedStateShown (s t : State) : Prop :=
  (s.feed.feedState = .running → t.line = s.line ∧ t.chains = s.chains ∧ t.slots = s.slots)
    ∧ (s.feed.feedState ≠ .running → t.line = lineWithStatus s.line
      ∧ BoardsMarked statusMark { s with feed := t.feed } t)

/-- Whether a row names a record whose stale mark is clear (R21). -/
def namesFresh (s : State) (row : Row) : Bool :=
  match row.record with
  | none => false
  | some n => (tableGet s.records n).any (fun r => !r.stale)

/-- The terminal line after a stale marking of every record (R21, R157): STALE added to the rows of each record whose
mark was clear. -/
def lineWithStale (s : State) (l : TerminalLine) : TerminalLine :=
  { l with
    terminals := l.terminals.map (fun t =>
      { t with
        rows := t.rows.map (fun row =>
          if namesFresh s row then { row with pending := row.pending ||| nameStale } else row) }) }

/-- The terminal line after the day reset: every name added to the rows of each DEFINED record (R22, R157), and the
status lines pending where the level falls to 0 (R131, R150). -/
def lineWithDayReset (s : State) (l : TerminalLine) : TerminalLine :=
  let named : TerminalLine :=
    { l with
      terminals := l.terminals.map (fun t =>
        { t with
          rows := t.rows.map (fun row =>
            if row.record.any (fun n => (tableGet s.records n).isSome) then
              { row with pending := row.pending ||| Machine.allNames }
            else row) }) }
  if s.ticker.level = 0 then named else lineWithStatus named

/-- A QUOTE slot with a lamp cell, of a record whose stale mark is clear (R96, R101). -/
def FreshLamp (s : State) (kind : SlotKind) : Prop :=
  ∃ n fields gap cell flash r, kind = .quote n fields gap (some cell) flash
    ∧ tableGet s.records n = some r ∧ r.stale = false

/-- A slot after a stale marking of every record: dirty where STALE is handed to its lamp cell, the record's mark
having been clear (R21, R96); its flash stands, as STALE alone starts none (R98). -/
def staleMark (s : State) (sl : Slot) : Slot :=
  match sl.kind with
  | .quote n _ _ (some _) _ =>
    { sl with dirty := sl.dirty || (tableGet s.records n).any (fun r => !r.stale) }
  | .quote _ _ _ none _ => sl
  | .message _ _ => sl
  | .clock => sl
  | .status => sl

/-- An update of record n (R6, R12): the record replaced, and its change set marking the QUOTE slots. -/
def recordTurn (n : Nat) (r : QuoteRecord) (names : NameSet) (period : Nat) : Turn :=
  { reads := fun v => { v with records := tableSet v.records n r }, mark := quoteMark n names period }

/-- The marks of a stale marking of every record, in record number order (R6, R21): of each record whose mark was
clear, set before its change set is handed on. -/
def staleTurns (s : State) : List Turn :=
  (s.records.filter (fun e => !e.2.stale)).map (fun e =>
    recordTurn e.1 { e.2 with stale := true } nameStale (param s 5))

/-- The mark of the STATUS slots, of what the state has become already. -/
def statusTurn : Turn := { reads := id, mark := statusMark }

/-- A record after the day reset (R22). -/
def dayRecord (lost : Bool) (r : QuoteRecord) : QuoteRecord :=
  { r with
    prevClose := (match r.last with
      | some p => p
      | none => r.prevClose),
    carryTick := r.tick, tick := .none, last := none, high := none, low := none, bid := none,
    ask := none, lastTime := none, tapeWhole := none, volume := 0, netChange := 0, state := .notOpen,
    stale := if lost then r.stale else false }

/-- A slot after the SESSION PRE_OPEN that brings the day reset: dirty (R110), and its flash started where it has flash
enabled and its record is DEFINED, whose change set of every name holds LAST (R22, R98). -/
def dayMark (u : State) (sl : Slot) : Slot :=
  match sl.kind with
  | .quote n _ _ _ flash =>
    { sl with
      dirty := true,
      flash := if flash = true ∧ (tableGet u.records n).isSome = true ∧ param u 5 ≠ 0
        then some (param u 5 * 100) else sl.flash }
  | .message _ _ => { sl with dirty := true }
  | .clock => { sl with dirty := true }
  | .status => { sl with dirty := true }

/-- The marks of that SESSION PRE_OPEN: of the STATUS slots for the session (R104), of the QUOTE slots of each DEFINED
record in record number order for its reset (R6, R22), of the STATUS slots where the level falls to 0 (R131), and of
every slot (R110). -/
def dayTurns (u : State) : List Turn :=
  let levelGone (v : State) : State := { v with ticker := { v.ticker with level := 0, lateMinutes := 0 } }
  [statusTurn]
    ++ u.records.map (fun e =>
      recordTurn e.1 (dayRecord (decide (u.feed.feedState = .lost)) e.2) Machine.allNames (param u 5))
    ++ (if u.ticker.level = 0 then [] else [{ reads := levelGone, mark := statusMark }])
    ++ [{ reads := levelGone, mark := fun sl => { sl with dirty := true } }]

/-- A slot after a change of the top of stack k (R106). -/
def messageMark (k : StackId) (sl : Slot) : Slot :=
  match sl.kind with
  | .message _ stack => if stack = k then { sl with dirty := true } else sl
  | .quote _ _ _ _ _ => sl
  | .clock => sl
  | .status => sl

/-- The boards after a change set handed to the slot composer: an empty set is not handed on (R12), and
any other marks the QUOTE slots of its record. -/
def NamesReachBoards (n : Nat) (names : NameSet) (v t : State) : Prop :=
  (names = 0 → t.chains = v.chains ∧ t.slots = v.slots)
    ∧ (names ≠ 0 → BoardsMarked (quoteMark n names (param v 5)) v t)

/-! ### Outputs (R38, R88, R89, R133, R153, R172, R174, R178) -/

/-- The outputs inactive, as while the reset pin is held (R174), but for the return line: the shift clocks still, the
shift data low and the blanking active (R89), the flash clock low (R88), the ticker blank and at marking (R133), the
terminal line's direction inactive and its transmit data at marking (R153). -/
abbrev OutputsInactive (s : State) : Prop :=
  flashOutput s = false ∧ tickerPresents s = 0x20 ∧ lineDirectionActive s = false
    ∧ (∀ k, tickerLine s k = true ∧ transmitData s k = true)
    ∧ ∀ c : ChainId, shiftClockRuns s c = false
      ∧ ∀ k, blankingActive s c k = true ∧ shiftData s c k = some false

/-- The return transmitter sends SYNC fill: 5Ah over and over, most significant bit first (R38, R172). -/
abbrev SendsFill (s : State) : Prop :=
  returnBytes s = [0x5A] ∧ ∀ k, returnLine s k = (0x5A : Byte).getLsbD (7 - k % 8)

/-! ### Texts and cells (chapters 2 and 6) -/

/-- A text in decimal digits without leading zeros. -/
def IsDecimal (n : Nat) (text : List Byte) : Prop :=
  text ≠ [] ∧ (∀ b ∈ text, 0x30 ≤ b.toNat ∧ b.toNat ≤ 0x39)
    ∧ text.foldl (fun v b => v * 10 + (b.toNat - 0x30)) 0 = n
    ∧ (text.head? = some 0x30 → text = [0x30])

/-- A number right-justified in `width` cells with blanks to its left. -/
def RightDecimal (width n : Nat) (cells : List Byte) : Prop :=
  ∃ text, IsDecimal n text ∧ text.length ≤ width
    ∧ cells = List.replicate (width - text.length) 0x20 ++ text

/-- The glyph of numerator/d, as its value in sixteenths; the blank for 0 (R25). -/
def glyphCell (d numerator : Nat) : Byte :=
  if numerator = 0 then 0x20 else BitVec.ofNat 8 (16 * numerator / d)

/-- R24, R26, R27: a price in five cells at denominator d. -/
def PriceShown (d price : Nat) (cells : List Byte) : Prop :=
  let q := (price + 256 / d / 2) / (256 / d)
  (9999 < q / d → cells = [0x39, 0x39, 0x39, 0x39, glyphCell d (d - 1)])
    ∧ (q / d = 0 → q % d ≠ 0 → cells = [0x20, 0x20, 0x20, 0x20, glyphCell d (q % d)])
    ∧ (q / d ≤ 9999 → (q / d ≠ 0 ∨ q % d = 0) →
      ∃ whole, RightDecimal 4 (q / d) whole ∧ cells = whole ++ [glyphCell d (q % d)])

/-- R26: a price that may be absent. -/
def OptionalPriceShown (d : Nat) (price : Option Nat) (cells : List Byte) : Prop :=
  (price = none → cells = [0x20, 0x20, 0x20, 0x20, 0x20])
    ∧ ∀ p, price = some p → PriceShown d p cells

/-- R29, R30: the CHANGE field of a record with a last price. -/
def ChangeShown (d : Nat) (change : Int) (cells : List Byte) : Prop :=
  let q := (change.natAbs + 256 / d / 2) / (256 / d)
  (q = 0 → cells = [0x55, 0x4E, 0x43, 0x48, 0x20])
    ∧ (999 < q / d → cells =
      [if 0 < change then 0x3E else 0x3C, 0x39, 0x39, 0x39, glyphCell d (d - 1)])
    ∧ (q ≠ 0 → q / d ≤ 999 →
      ∃ whole, cells = [if 0 < change then 0x2B else 0x2D] ++ whole ++ [glyphCell d (q % d)]
        ∧ (q / d = 0 → whole = [0x20, 0x20, 0x20]) ∧ (q / d ≠ 0 → RightDecimal 3 (q / d) whole))

/-- R26 to R32: the text of a field of a record. -/
def FieldShown (r : QuoteRecord) (f : BoardField) (cells : List Byte) : Prop :=
  let d := match r.denom with
    | .eighths => 8
    | .sixteenths => 16
  match f with
  | .symbol => cells = [r.symbol.r0, r.symbol.r1, r.symbol.r2, r.symbol.r3, r.symbol.cls]
  | .last =>
    (r.state = .halted → cells = [0x48, 0x41, 0x4C, 0x54, 0x20])
      ∧ (r.state = .notOpen → PriceShown d r.prevClose cells)
      ∧ (r.state = .trading → OptionalPriceShown d r.last cells)
  | .change =>
    (r.last = none → cells = [0x20, 0x20, 0x20, 0x20, 0x20])
      ∧ (r.last ≠ none → ChangeShown d r.netChange cells)
  | .high => OptionalPriceShown d r.high cells
  | .low => OptionalPriceShown d r.low cells
  | .volume => RightDecimal 6 (min ((r.volume + 500) / 1000) 999999) cells
  | .bid => OptionalPriceShown d r.bid cells
  | .ask => OptionalPriceShown d r.ask cells

/-- Table 6-3: the text of a STATUS slot, by the first condition that holds. -/
def StatusShown (s : State) (text : List Byte) : Prop :=
  if s.feed.feedState = .lost then text = textFeedLost
  else if s.time.session = .haltedAll then text = textMarketHalted
  else if s.ticker.level ≠ 0 then
    ∃ n, IsDecimal s.ticker.lateMinutes n ∧ text = textTapeLate ++ [0x20] ++ n ++ textMin
  else if s.time.session = .preOpen then text = textPreOpening
  else if s.time.session = .closed then text = textMarketClosed
  else text = []

/-- A text left-justified in `width` cells, with blanks after it, cut to the width (R103, R105). -/
def LeftShown (width : Nat) (text cells : List Byte) : Prop :=
  cells.length = width ∧ ∀ i, i < width → cells[i]? = some (text.getD i 0x20)

/-- How many stages a module gives to an image (R73). -/
def stageCount : ModuleKind → Nat
  | .char8 => 8
  | .lamp => 1
  | .bypass => 1
  | .endOfList => 0

/-- Every record but n as it was. -/
def KeepsOtherRecords (n : Nat) (u t : State) : Prop :=
  ∀ m, m ≠ n → tableGet t.records m = tableGet u.records m

/-- No record changes but in its watch count. -/
def OnlyWatchChanges (u t : State) : Prop :=
  ∀ n, (tableGet t.records n).map (fun r => { r with watch := 0 })
    = (tableGet u.records n).map (fun r => { r with watch := 0 })

/-- The responder after a REPLY is queued, or dropped with REPLY OVERRUN when 4 wait (R172). -/
def replied (tag : BitVec 16) (payload : List Byte) (m : Management) : Management :=
  if repliesWaiting m.replyQueue < 4 then
    { m with replyQueue := m.replyQueue ++ [.reply tag payload] }
  else alertSet .replyOverrun m

/-- The terminal line after a change set for record n (R157): the names added to every row naming it. -/
def lineWithNames (n : Nat) (names : NameSet) (l : TerminalLine) : TerminalLine :=
  { l with
    terminals := l.terminals.map (fun t =>
      { t with
        rows := t.rows.map (fun r =>
          if r.record = some n then { r with pending := r.pending ||| names } else r) }) }

/-- The terminal line after a deletion of record n (R158): every row naming it EMPTY with CLEAR pending and
nothing in flight. -/
def lineWithDeletion (n : Nat) (l : TerminalLine) : TerminalLine :=
  { l with
    terminals := l.terminals.map (fun t =>
      { t with
        rows := t.rows.map (fun r =>
          if r.record = some n then { record := none, pending := nameClear, inFlight := 0 }
          else r) }) }

/-- R118: whether two prints are of the same record and at the same price. -/
abbrev SamePrint (p q : Print) : Prop := p.record = q.record ∧ p.symbol = q.symbol ∧ p.price = q.price

/-- R117, R118: whether an entry is a REGULAR print that takes up p. -/
def takesUp (p : Print) : TickerEntry → Bool
  | .print q => decide (q.condition = .regular ∧ SamePrint p q)
  | .announce _ => false

/-- Whether an entry is a print of tape class B. -/
def inClassB : TickerEntry → Bool
  | .print q => decide (q.tapeClass = .b)
  | .announce _ => false

/-- The tick that Table 1-5 gives a price. -/
def tickOf (r : QuoteRecord) (price : Nat) : Tick :=
  let reference := match r.last with
    | some p => p
    | none => r.prevClose
  let prior := if r.tick = .none then r.carryTick else r.tick
  if reference < price then .up
  else if price < reference then .down
  else if prior = .down ∨ prior = .zeroMinus then .zeroMinus else .zeroPlus

/-! ### The terminal line (R137, R139, R145 to R148, R160) -/

/-- Terminal x replaced. -/
def withTerm (x : TermId) (term : Terminal) (s : State) : State :=
  { s with line := { s.line with terminals := s.line.terminals.set x term } }

/-- A row that a TERMINAL entry gives an item (R155, R164): kept where it holds the item, and otherwise with every field
name pending, or CLEAR where it is EMPTY now. -/
def loadedRow (item : Option Nat) (row : Row) : Row :=
  if row.record = item then row
  else match item with
    | some n => { record := some n, pending := allNames, inFlight := 0 }
    | none => { record := none, pending := nameClear, inFlight := 0 }

/-- A terminal with its sets, its status-line flags and its request result cleared, its rows kept. -/
def withoutSets (term : Terminal) : Terminal :=
  { term with
    rows := term.rows.map (fun r => { record := r.record, pending := 0, inFlight := 0 }),
    statusPending := false, statusInFlight := false, result := none }

/-- R137 step 4, R140: the line freed; in CLOSED the night poll gap starts, and otherwise the next terminal is
selected. -/
def lineFreed (s : State) : State :=
  let free : State := { s with line := { s.line with transaction := none } }
  if s.time.session = .closed ∧ param s 18 ≠ 0 then
    { free with line := { free.line with gap := some (param s 18) } }
  else select free

/-- R137 steps 2 to 4: a disabling or a reset of the terminal that waited is carried out, and the line freed. -/
def lineSettled (x : TermId) (s : State) : State :=
  let term := s.line.terminals[x]
  let stopped : Terminal := { withoutSets term with
    probeTimer := none, outstanding := none, misses := 0, resetPending := false }
  if term.enabled = false then
    lineFreed (withTerm x { stopped with state := .disabled, probeDue := false } s)
  else if term.resetPending then
    lineFreed (withTerm x { stopped with state := .absent, probeDue := true } s)
  else lineFreed s

/-- R148: a miss at terminal x, which leaves it in a state below three misses and loses it at three. -/
def missed (x : TermId) (after : TermState) (s : State) : State :=
  let term := s.line.terminals[x]
  if term.misses + 1 < 3 then withTerm x { term with misses := term.misses + 1, state := after } s
  else
    { withTerm x { withoutSets term with
        state := .absent, misses := 0, outstanding := none, probeDue := false,
        probeTimer := some (param s 17 * 1000) } s with
      mgmt := alertSet .terminalLost s.mgmt }

/-- R161: an UPDATE accepted: what was in flight is cleared, the number is free and the next one follows. -/
def acceptedUpdate (term : Terminal) : Terminal :=
  { term with
    rows := term.rows.map (fun r => { r with inFlight := 0 }), statusInFlight := false,
    outstanding := none, nextNumber := term.nextNumber + 1, misses := 0 }

/-- R161: an UPDATE not accepted: what was in flight is pending again, and the number is free. -/
def refusedUpdate (term : Terminal) : Terminal :=
  { term with
    rows := term.rows.map (fun r => { r with pending := r.pending ||| r.inFlight, inFlight := 0 }),
    statusPending := term.statusPending || term.statusInFlight, statusInFlight := false,
    outstanding := none }

/-- The request part that a run of bytes spells (Table 11-9): none, ADD with a row 0 to 16 and a symbol code of any
bytes, or DROP with any row. -/
abbrev SpellsRequest (p : List Byte) : Option Request → Prop
  | none => p = []
  | some (.add row c) => p = [0x01, BitVec.ofNat 8 row, c.r0, c.r1, c.r2, c.r3, c.cls] ∧ row ≤ 16
  | some (.drop row) => p = [0x02, row]

/-- The response that a TYPE and a body spell (R136, Table 11-9). A frame number is one byte, 0 to 7. -/
abbrev SpellsResponse (type : Nat) (body : List Byte) : Response → Prop
  | .confirm kind => type = 0x20 ∧ body = [kind]
  | .ack n request => type = 0x21 ∧ body.head? = some (n.zeroExtend 8) ∧ SpellsRequest body.tail request
  | .busy => type = 0x22 ∧ body = []
  | .idle request => type = 0x23 ∧ SpellsRequest body request
  | .number n => type = 0x24 ∧ body = [n.zeroExtend 8]

/-- R136: whether a received frame, its SOH at place 0, is the valid response r of terminal x: LEN is 120 or less, ADDR
is 80h plus the terminal's number (index + 1), the CRC is that over ADDR, TYPE, LEN and the body, high byte first,
and the TYPE with the body spells r. -/
abbrev IsResponse (x : TermId) (frame : List Byte) (r : Response) : Prop :=
  let len := at8 frame 3
  let body := (frame.drop 4).take len
  len ≤ 120 ∧ frame.length = 4 + len + 2 ∧ at8 frame 1 = 0x80 + (x.val + 1)
    ∧ frame.drop (4 + len) = wordBytes (crcOf ((frame.drop 1).take (3 + len)))
    ∧ SpellsResponse (at8 frame 2) body r

/-- The second CRC byte of a frame received in transaction tx (R136). -/
abbrev ReceptionEnds (s : State) (tx : Transaction) (low : Byte) : Prop :=
  s.phase = .running ∧ s.line.transaction = some tx ∧ tx.sending = false ∧ 4 ≤ tx.received.length
    ∧ tx.received.length + 1 = 4 + at8 (tx.received ++ [low]) 3 + 2

/-- The character that ends a valid response of transaction tx (R136). -/
abbrev EndsWith (s : State) (tx : Transaction) (low : Byte) (r : Response) : Prop :=
  ReceptionEnds s tx low ∧ IsResponse tx.terminal (tx.received ++ [low]) r

/-- The character that ends a bad frame of transaction tx: a frame that is no valid response (R136). -/
abbrev EndsBadly (s : State) (tx : Transaction) (low : Byte) : Prop :=
  ReceptionEnds s tx low ∧ ∀ r, ¬ IsResponse tx.terminal (tx.received ++ [low]) r

/-- A transaction begun with terminal y (R135, R137, Table 11-9). -/
def begun (y : TermId) (kind : PrimaryKind) (type : Byte) (body : List Byte) (s : State) : State :=
  let covered := [BitVec.ofNat 8 (y.val + 1), type, BitVec.ofNat 8 body.length] ++ body
  { s with line := { s.line with
      pollPointer := y,
      transaction := some
        { terminal := y, kind := kind, frame := [0x01] ++ covered ++ wordBytes (crcOf covered),
          rate := s.mgmt.params[(15 : Fin 20)], sending := true, received := [],
          responseTicks := 0, timeout := none } } }

/-- R139: whether a terminal may be selected. -/
def MayBeServed (term : Terminal) : Prop :=
  (term.state = .absent ∧ term.probeDue = true) ∨ term.state = .activating ∨ term.state = .active
    ∨ term.state = .recovery

/-- R139: the terminal selected: the one that holds an outstanding number, or else the first that may be served
from the poll pointer + 1 on, wrapping from 32 to 1. -/
def Selected (y : TermId) (s : State) : Prop :=
  ((s.line.terminals[y]).outstanding.isSome = true
      ∧ ∀ z, z < y → (s.line.terminals[z]).outstanding = none)
    ∨ ((∀ z : TermId, (s.line.terminals[z]).outstanding = none)
      ∧ ∃ j : TermId, y = s.line.pollPointer + 1 + j ∧ MayBeServed s.line.terminals[y]
        ∧ ∀ i, i < j → ¬ MayBeServed s.line.terminals[s.line.pollPointer + 1 + i])

/-- R145: whether anything is pending at a terminal. -/
def SomethingPending (term : Terminal) : Prop :=
  (∃ i : Fin 16, (term.rows[i]).pending ≠ 0) ∨ term.statusPending = true ∨ term.result ≠ none

/-- The item of a row in an UPDATE (R34, Table 11-10): its number, its name mask, and in the order of the mask
the values of a named row. -/
def itemOf (s : State) (i : Fin 16) (row : Row) : List Byte :=
  let values (r : QuoteRecord) : List (List Byte) :=
    [symbolCells r.symbol, [tradingNumber r.state], optionalPriceCells r.denom r.last,
      changeCells r, [tickNumber r.tick], optionalPriceCells r.denom r.high,
      optionalPriceCells r.denom r.low, volumeCells r.volume, optionalPriceCells r.denom r.bid,
      optionalPriceCells r.denom r.ask, [flagByte r.stale]]
  [0x03, BitVec.ofNat 8 (i.val + 1)] ++ bytes2 row.pending.toNat
    ++ (match row.record with
      | none => []
      | some n => ((values ((tableGet s.records n).getD emptyRecord)).zipIdx).flatMap
        (fun v => if row.pending.getLsbD v.2 then v.1 else []))

/-- The items of an UPDATE before its rows (R160, Table 11-10): the frame number, the status line where it is
pending, the request result where there is one. -/
def itemsBeforeRows (s : State) (term : Terminal) : List Byte :=
  [term.nextNumber.zeroExtend 8]
    ++ (if term.statusPending then
        [0x01, sessionNumber s.time.session, feedNumber s.feed.feedState, byteOf s.ticker.level]
          ++ bytes2 s.ticker.lateMinutes
          ++ (if s.time.clockSet then [byteOf (s.time.clock / 3600), byteOf (s.time.clock / 60 % 60)]
            else [0xFF, 0xFF])
      else [])
    ++ (match term.result with
      | none => []
      | some r => [0x02, resultNumber r.code, r.row])

/-! ### LOAD of one entry (R167) -/

/-- A management frame's payload that is a LOAD of one entry: table code, start n, count 1, the entry. -/
abbrev OneEntry (body : List Byte) (entrySize n : Nat) : Prop :=
  (payload body).length = 5 + entrySize ∧ at16 (payload body) 1 = n ∧ at16 (payload body) 3 = 1

/-- The entry of a LOAD of one entry. -/
def entryOf (body : List Byte) : List Byte := (payload body).drop 5

end Sys2Proof.Safety
end

