-- ==== Sys2Proof/Certificates/Slice0/Obligations.lean ====
section
/-!
DEFINITION. The statements for the provers. Statements about a step that applies a frame take the head entry
`e` of the intake queue, and compare the next state with `afterGap e s`, the state in which the frame is
examined (R48).
-/

open Sys2Proof Sys2Proof.Machine Sys2Proof.Safety

/-! ## The step -/

/-- A step takes the command at the front of the queue and runs it with the queue's rest; on an empty queue
it is one interval tick (the model's choice, log entry 6). -/
def Obligations.StepTakesTheFront : Prop :=
  (∀ (c : Instr) (rest : List Instr) (s : State), s.pending = c :: rest →
      step s = exec c { s with pending := rest })
    ∧ ∀ s : State, s.pending = [] → step s = .next (intervalTick s)

/-- Every command answers a next state, and leaves the command queue alone. That an event given where it cannot fall
answers a next state, too, is the model's choice (log entry 4). -/
def Obligations.EveryCommandCompletes : Prop :=
  ∀ (c : Instr) (s : State), ∃ t, exec c s = .next t ∧ t.pending = s.pending

/-- R57, R58, R59: with the part in operation, an interval tick is an event at every running timer: each of Table 4-1
counts down by one, the second phase counts up, and what has come to its end is taken, as the command of its expiry
takes it. Nothing counts while the reset pin is held, nor during INIT. That a step on an empty queue is one tick,
and the order of expiries that fall at one tick, are the model's choices (log entry 6). -/
def Obligations.TickCountsAndExpires : Prop :=
  ∀ s : State, s.pending = [] →
    (s.phase = .running → step s = .next ((expiries s).foldl expiryTaken (tickedOnce s)))
      ∧ (s.phase ≠ .running → step s = .next s)

/-! ## Feed line (chapter 3) -/

/-- R40: a data bit entered into the CRC register: the feedback is its top bit exclusive-or the bit, the register
shifts one place toward the top, and 1021h is exclusive-ored in if the feedback was 1; a byte enters most significant
bit first, and the register starts from FFFFh. R38 to R40: what the receiver does with one bit in the search, and with
one aligned byte in each of its states; the bits of an aligned receiver are gathered, most significant first, and the
eighth does what their byte does; and a byte does what FEED_FRAME_RECEIVED does with it, where it is the last CRC byte
and completes the frame (elsewhere it is line content to both rows: the model's choice, log entry 15). -/
def Obligations.FeedByteIsReceived : Prop :=
  (∀ (crc : BitVec 16) (x : Bool),
      crcBit crc x = if crc.getLsbD 15 = x then crc <<< 1 else crc <<< 1 ^^^ 0x1021)
    ∧ (∀ (crc : BitVec 16) (b : Byte),
      crcByte crc b = ([7, 6, 5, 4, 3, 2, 1, 0].map (fun k => b.getLsbD k)).foldl crcBit crc)
    ∧ (∀ bytes : List Byte, crcOf bytes = bytes.foldl crcByte 0xFFFF)
    ∧ (∀ w : BitVec 16, wordBytes w = [w.extractLsb' 8 8, w.extractLsb' 0 8])
    ∧ ∀ s : State, s.phase = .running →
    let r := s.feed.rx
    let becomes (unit : LineUnit) (r' : Receiver) : Prop :=
      exec (.feedByteReceived unit) s = .next { s with feed := { s.feed with rx := r' } }
    (∀ b : Byte, exec (.feedByteReceived (.byte b)) s = exec (.feedFrameReceived b) s)
      ∧ (∀ x : Bool, r.state ≠ .hunt ∨ r.aligned = true →
        let w : Byte := r.window <<< 1 ||| (if x then 1 else 0)
        (r.nbits < 7 → becomes (.bit x) { r with window := w, nbits := r.nbits + 1 })
          ∧ (r.nbits = 7 → exec (.feedByteReceived (.bit x)) s
            = exec (.feedByteReceived (.byte w)) { s with feed := { s.feed with rx := { r with nbits := 0 } } }))
      ∧ (∀ x : Bool, r.state = .hunt → r.aligned = false →
        let w : Byte := r.window <<< 1 ||| (if x then 1 else 0)
        let n := min 8 (r.nbits + 1)
        becomes (.bit x)
          (if n = 8 ∧ w = 0x5A then { r with aligned := true, window := 0, nbits := 0 }
            else { r with window := w, nbits := n }))
      ∧ ∀ b : Byte, r.nbits = 0 →
        (r.state = .hunt → r.aligned = true →
            becomes (.byte b)
              (if b = 0x5A then { r with state := .length, window := 0, nbits := 0 } else huntReceiver))
          ∧ (r.state = .length →
            becomes (.byte b)
              (if b = 0x5A then { r with window := 0, nbits := 0 }
                else if 6 ≤ b.toNat ∧ b.toNat ≤ 88 then
                  { r with state := .body, window := 0, nbits := 0, length := b.toNat, body := [],
                           crc := crcByte 0xFFFF b }
                else huntReceiver))
          ∧ (r.state = .body →
            becomes (.byte b)
              { r with state := if r.length ≤ r.body.length + 1 then .check else .body,
                       window := 0, nbits := 0, body := r.body ++ [b], crc := crcByte r.crc b,
                       crcHigh := none })
          ∧ (r.state = .check → r.crcHigh = none →
            becomes (.byte b) { r with window := 0, nbits := 0, crcHigh := some b })

/-- R40, R42 to R47: a CRC-valid frame, in any feed state, that is addressed to this station, of a TYPE taken, and in
order or after a gap of d ≤ 32767 missing numbers where it is market data, enters a queue with room, carrying
gap-owed, and meets an overrun at a full one. The feed state becomes RUNNING (R42, R54), and a gap is owed after
LOST. -/
def Obligations.FeedFrameIsQueued : Prop :=
  ∀ (s : State) (low : Byte),
    let body := s.feed.rx.body
    let room : Bool := decide (s.intake.length < 16)
    FrameArrives s low → (MarketData body → runsAhead s ≤ 32767) → AddressedHere s body → TypeIsTaken body →
      ∃ t, exec (.feedFrameReceived low) s = .next t
        ∧ t.feed = { feedAfter s with gapOwed := !room }
        ∧ t.intake = (if room then
            s.intake ++ [{ body := body, gapBefore := (feedAfter s).gapOwed }] else s.intake)
        ∧ t.mgmt = mgmtAfter s ∧ FeedStateShown s t
        ∧ t = { s with feed := t.feed, intake := t.intake, mgmt := t.mgmt, line := t.line,
                       chains := t.chains, slots := t.slots }

/-- R40, R42 to R45: a frame whose CRC fails changes the receiver alone. An old market data frame restarts the silence
timer and makes the feed RUNNING, owing a gap after LOST, and changes neither the expected number nor an
alert. A frame that is not addressed here or of a TYPE not taken enters no queue, and is sequence checked all
the same where it is market data: the expected number goes past it, and a gap is owed and sets FEED GAP. -/
def Obligations.FeedFrameIsDropped : Prop :=
  ∀ (s : State) (low : Byte),
    let body := s.feed.rx.body
    let shown (t : State) : Prop := FeedStateShown s t
      ∧ t = { s with feed := t.feed, mgmt := t.mgmt, line := t.line, chains := t.chains,
                     slots := t.slots }
    (FrameEnds s → ¬ CrcAgrees s low →
        exec (.feedFrameReceived low) s = .next { s with feed := { s.feed with rx := huntReceiver } })
      ∧ (FrameArrives s low → MarketData body → 32768 ≤ runsAhead s →
        ∃ t, exec (.feedFrameReceived low) s = .next t
          ∧ t.feed = { feedAfter s with
              expected := s.feed.expected,
              gapOwed := s.feed.gapOwed || decide (s.feed.feedState = .lost) }
          ∧ t.mgmt = s.mgmt ∧ shown t)
      ∧ (FrameArrives s low → (MarketData body → runsAhead s ≤ 32767) →
        (¬ AddressedHere s body ∨ ¬ TypeIsTaken body) →
        ∃ t, exec (.feedFrameReceived low) s = .next t ∧ t.feed = feedAfter s
          ∧ t.mgmt = mgmtAfter s ∧ shown t)

/-- R42, R52, R53, R54: at the expiry of the silence timer the feed state becomes LOST, FEED LOST is set and every
record is marked stale, with STALE handed to the rows and to the lamp cells (R96, R101) of each record whose
mark was clear; a CRC-valid frame makes the feed RUNNING, out of LOST owing a gap, and clears no mark. Each
change of the feed state marks the STATUS slots and the status lines (R104). The loss marks no other slot and touches no
flash (R98). That it marks the lamp cells, in record number order, before the STATUS slots, and what each snapshot then
shows, is the model's choice (log entry 11). -/
def Obligations.FeedLossAndReturn : Prop :=
  ∀ s : State, s.phase = .running →
    (∀ k, s.feed.silence = some k →
        ∃ t, exec .silenceTimerExpiry s = .next t
          ∧ t.feed = { s.feed with feedState := .lost, silence := none }
          ∧ t.mgmt
            = (offerText false textFeedInterrupted { s with mgmt := alertSet .feedLost s.mgmt }).mgmt
          ∧ alertIn .feedLost t.mgmt.alertStatus = true
          ∧ (∀ n r, tableGet s.records n = some r →
            tableGet t.records n = some { r with stale := true })
          ∧ (∀ n, tableGet s.records n = none → tableGet t.records n = none)
          ∧ t.ticker = (offerText false textFeedInterrupted s).ticker
          ∧ t.line = lineWithStatus (lineWithStale s s.line)
          ∧ BoardsOnlyRefresh s t ∧ MarkReaches (· = .status) s t ∧ MarkReaches (FreshLamp s) s t
          ∧ MarksStand (fun sl => statusMark (staleMark s sl)) s t
          ∧ ((s.records.map Prod.fst).Nodup →
            BoardsMarkedInTurn (staleTurns s ++ [statusTurn]) { s with feed := t.feed } t)
          ∧ t = { s with feed := t.feed, records := t.records, chains := t.chains, slots := t.slots,
                         ticker := t.ticker, line := t.line, mgmt := t.mgmt })
      ∧ ∀ low, FrameArrives s low → s.feed.feedState ≠ .running →
        ∃ t, exec (.feedFrameReceived low) s = .next t ∧ t.feed.feedState = .running
          ∧ t.records = s.records ∧ t.feed.rx = huntReceiver ∧ FeedStateShown s t
          ∧ (s.feed.feedState = .lost → t.feed.gapOwed = true
            ∨ t.intake = s.intake ++ [{ body := s.feed.rx.body, gapBefore := true }])

/-- R48: the gap-before marking makes every DEFINED record stale and changes no other value of it, and hands
STALE to the rows, and to the lamp cells (R96, R101), of each record whose mark was clear. It marks no other slot, and
touches no flash (R98). What a snapshot between two records of it shows, in record number order (R6), is the model's
choice (log entry 11). -/
def Obligations.GapBeforeMarks : Prop :=
  ∀ (s : State) (e : IntakeEntry), e.gapBefore = true →
    let t := afterGap e s
    (∀ n r, tableGet s.records n = some r → tableGet t.records n = some { r with stale := true })
      ∧ (∀ n, tableGet s.records n = none → tableGet t.records n = none)
      ∧ t.line = lineWithStale s s.line ∧ MarkReaches (FreshLamp s) s t
      ∧ MarksStand (staleMark s) s t
      ∧ ((s.records.map Prod.fst).Nodup → BoardsMarkedInTurn (staleTurns s) s t)
      ∧ KeepsFeedAndTime s t ∧ BoardsOnlyRefresh s t ∧ t.intake = s.intake
      ∧ t.directory = s.directory ∧ t.ticker = s.ticker ∧ t.bulletins = s.bulletins ∧ t.mgmt = s.mgmt

/-- R23, R49, R176, Tables 3-4, 11-1 and 11-2: the parts of a frame's body, when a payload is malformed, and what it
carries where it is not. R50, R166, Tables 3-5, 11-4 and 11-5: the command that a frame calls for, by its TYPE,
table, action or kind; that a BULLETIN of an unknown action is BULLETIN_PUSH's to discard is the model's choice (log
entry 9), and which frames are REFUSED_MANAGEMENT_FRAME's is read from the rules (log entry 10). R4, R49, R50: a
market data frame whose payload is malformed, and a TRADE, QUOTE, SYMBOL STATE or RECAP whose symbol is not in the
directory, changes nothing after the gap-before marking; its entry leaves the queue. R166, R167, R169, R171, R175: a
refused management frame is answered with its code and changes nothing else; nor does a LOAD whose range exceeds its
table, nor a CONTROL of a known action whose length is wrong. -/
def Obligations.BadFramesChangeNothing : Prop :=
  (∀ body : List Byte, payload body = body.drop 5 ∧ seqTag body = BitVec.ofNat 16 (at16 body 3))
    ∧ (∀ (p : List Byte) (i : Nat), at8 p i = (p.getD i 0).toNat
      ∧ at16 p i = at8 p i * 2 ^ 8 + at8 p (i + 1)
      ∧ at32 p i = at8 p i * 2 ^ 24 + at8 p (i + 1) * 2 ^ 16 + at8 p (i + 2) * 2 ^ 8 + at8 p (i + 3)
      ∧ symbolAt p i = { r0 := p.getD i 0, r1 := p.getD (i + 1) 0, r2 := p.getD (i + 2) 0,
                         r3 := p.getD (i + 3) 0, cls := p.getD (i + 4) 0 })
    ∧ (∀ (directory : List (SymbolCode × Nat)) (c : SymbolCode),
      (∀ n, lookup directory c = some n → (c, n) ∈ directory)
        ∧ (lookup directory c = none → ∀ n, (c, n) ∉ directory))
    ∧ Reads tradeItems TradeFails tradeOf ∧ Reads quoteItems QuoteFails quoteOf
    ∧ Reads symbolStateItems SymbolStateFails symbolStateOf ∧ Reads recapItems RecapFails recapOf
    ∧ Reads clockItems ClockFails (fun p => timeOf p 0) ∧ Reads sessionItems SessionFails sessionCodeOf
    ∧ Reads bulletinItems BulletinFails bulletinOf
    ∧ (∀ body : List Byte,
      let p := payload body
      let type := at8 body 2
      let calls (step : FrameStep) : Prop := frameStep body = step
      (∀ e ∈ [(0x21, FrameStep.trade), (0x22, .quote), (0x23, .symbolState), (0x24, .recap), (0x25, .clock),
            (0x26, .session), (0x43, .report)],
          type = e.1 → calls e.2)
        ∧ (type = 0x27 → (at8 p 1 = 2 → calls .bulletinPop) ∧ (at8 p 1 = 3 → calls .bulletinClear)
          ∧ (at8 p 1 ≠ 2 → at8 p 1 ≠ 3 → calls .bulletinPush))
        ∧ (type = 0x41 →
          (∀ e ∈ [(1, FrameStep.loadParam), (2, .loadSymbol), (3, .loadSlot), (4, .loadChain), (5, .loadModule),
              (6, .loadTerminal)], 5 ≤ p.length → at8 p 0 = e.1 → calls e.2)
            ∧ (p.length < 5 ∨ at8 p 0 = 0 ∨ 6 < at8 p 0 → calls .refused))
        ∧ (type = 0x42 → (5 ≤ p.length → 1 ≤ at8 p 0 → at8 p 0 ≤ 8 → calls .read)
          ∧ (p.length < 5 ∨ at8 p 0 = 0 ∨ 8 < at8 p 0 → calls .refused))
        ∧ (type = 0x44 →
          (∀ e ∈ [(1, FrameStep.clearAlerts), (2, .setMask), (3, .chainReset), (4, .terminalReset),
              (5, .tickerFlush)], 1 ≤ p.length → at8 p 0 = e.1 → calls e.2)
            ∧ (p.length = 0 ∨ at8 p 0 = 0 ∨ 5 < at8 p 0 → calls .refused))
        ∧ (type = 0x45 →
          (p.length = 1 → (at8 p 0 = 1 → calls .resetCold) ∧ (at8 p 0 = 2 → calls .resetWarm))
            ∧ (p.length ≠ 1 ∨ at8 p 0 = 0 ∨ 2 < at8 p 0 → calls .refused))
        ∧ (¬ TypeIsTaken body → calls .none))
    ∧ ∀ (s : State) (e : IntakeEntry) (rest : List IntakeEntry),
      let u := afterGap e s
      let p := payload e.body
      let type := at8 e.body 2
      let gone (c : Instr) : Prop := exec c s = .next { u with intake := rest }
      let answered (c : Instr) (code : Byte) : Prop := exec c s = .next { u with
        intake := rest, mgmt := replied (seqTag e.body) [code] u.mgmt }
      let unknown : Prop := lookup u.directory (symbolAt p 0) = none
      (HeadIs s e rest .trade → (TradeFails p ∨ unknown) → gone .trade)
        ∧ (HeadIs s e rest .quote → (QuoteFails p ∨ unknown) → gone .quote)
        ∧ (HeadIs s e rest .symbolState → (SymbolStateFails p ∨ unknown) → gone .symbolState)
        ∧ (HeadIs s e rest .recap → (RecapFails p ∨ unknown) → gone .recap)
        ∧ (HeadIs s e rest .clock → ClockFails p → gone .clock)
        ∧ (HeadIs s e rest .session → SessionFails p → gone .session)
        ∧ (HeadIs s e rest .bulletinPush → BulletinFails p → gone .bulletinPush)
        ∧ (HeadIs s e rest .bulletinPop → BulletinFails p → gone .bulletinPop)
        ∧ (HeadIs s e rest .bulletinClear → BulletinFails p → gone .bulletinClear)
        ∧ (HeadIs s e rest .refused →
          (type = 0x41 → answered .refusedManagementFrame (if p.length < 5 then 3 else 1))
            ∧ (type = 0x42 →
              answered .refusedManagementFrame (if p.length = 5 then 1 else 3))
            ∧ (type = 0x44 →
              answered .refusedManagementFrame (if p.length = 0 then 3 else 5))
            ∧ (type = 0x45 →
              answered .refusedManagementFrame (if p.length = 1 then 5 else 3)))
        ∧ (∀ (table : LoadTable), HeadIs s e rest table.step → s.load = none →
          table.size < at16 p 1 + at16 p 3 → answered table.command 2)
        ∧ (HeadIs s e rest .clearAlerts → p.length ≠ 3 → answered .clearAlerts 3)
        ∧ (HeadIs s e rest .setMask → p.length ≠ 3 → answered .setMask 3)
        ∧ (HeadIs s e rest .chainReset → p.length ≠ 2 → answered .chainReset 3)
        ∧ (HeadIs s e rest .terminalReset → p.length ≠ 2 → answered .terminalReset 3)
        ∧ (HeadIs s e rest .tickerFlush → p.length ≠ 1 → answered .tickerFlush 3)

/-! ## Market data (chapter 1) -/

/-- R13, R14, R15, R20: what a TRADE does to its record, hands to the rows and to the QUOTE slots (R96, R98), and
offers to the ticker, with its frame. -/
def Obligations.TradeIsApplied : Prop :=
  ∀ (s : State) (e : IntakeEntry) (rest : List IntakeEntry) (q : TradeItems) (n : Nat)
    (r : QuoteRecord),
    let u := afterGap e s
    HeadIs s e rest .trade → tradeItems (payload e.body) = some q →
      lookup u.directory q.symbol = some n → tableGet u.records n = some r →
      ∃ t r' names, exec .trade s = .next t ∧ tableGet t.records n = some r'
        ∧ (let traded :=
            { r with
              volume := min 999999999 (r.volume + q.volume),
              high := some (match r.high with
                | some h => max h q.price
                | none => q.price),
              low := some (match r.low with
                | some l => min l q.price
                | none => q.price),
              lastTime := some q.time,
              state := if r.state = .notOpen then .trading else r.state }
          r' = if q.condition = .outOfSequence then traded
            else { traded with tick := tickOf r q.price, last := some q.price,
                               netChange := (q.price : Int) - (r.prevClose : Int) })
        ∧ names = (nameIf (r.volume ≠ r'.volume) nameVolume ||| nameIf (r.high ≠ r'.high) nameHigh
          ||| nameIf (r.low ≠ r'.low) nameLow ||| nameIf (r.state ≠ r'.state) nameState
          ||| (if q.condition = .outOfSequence then 0
            else nameLast ||| nameTick ||| nameIf (r.netChange ≠ r'.netChange) nameChange))
        ∧ t.line = lineWithNames n names u.line
        ∧ NamesReachBoards n names { u with records := t.records } t
        ∧ (let offered := if 100 ≤ q.volume then
              offerPrint { record := n, symbol := r.symbol, price := q.price, volume := q.volume,
                           time := q.time, condition := q.condition, tapeClass := r.tapeClass } u
            else u
          t.ticker = offered.ticker ∧ t.mgmt = offered.mgmt)
        ∧ KeepsOtherRecords n u t ∧ KeepsFeedAndTime u t ∧ BoardsOnlyRefresh u t
        ∧ t.intake = rest ∧ t.directory = u.directory ∧ t.bulletins = u.bulletins

/-- R116, R117, R118, R119: what becomes of a print, and of an announcement, offered to the ticker. A STOPPED ticker
takes neither. Of two hundred and fifty-six entries there is no room for one more: a print is merged with the
youngest of its like (of the same record, symbol and price), or it or the oldest class B print is omitted; an
announcement displaces the oldest class B print, and is discarded where there is none. An announcement is placed at
the head or at the tail, as its offer says. -/
def Obligations.TickerAdmitsOffers : Prop :=
  (∀ (s : State) (p : Print),
      let t := offerPrint p s
      let q := s.ticker.queue
      (s.ticker.state = .stopped ∨ p.tapeClass = .none → t = s)
        ∧ (s.ticker.state ≠ .stopped → p.tapeClass ≠ .none →
          t = { s with mgmt := t.mgmt, ticker := { s.ticker with
              queue := t.ticker.queue, admitted := s.ticker.admitted + 1, merged := t.ticker.merged,
              omitted := t.ticker.omitted } }
            ∧ (q.length < 256 → t.ticker.queue = q ++ [.print p] ∧ t.ticker.merged = s.ticker.merged
              ∧ t.ticker.omitted = s.ticker.omitted ∧ t.mgmt = s.mgmt)
            ∧ (256 ≤ q.length → p.condition = .regular →
              ∀ (before after : List TickerEntry) (y : Print), q = before ++ .print y :: after →
                y.condition = .regular → SamePrint p y → (∀ x ∈ after, takesUp p x = false) →
                t.ticker.queue = before ++ .print { y with
                    volume := min 99999999 (y.volume + p.volume) } :: after
                  ∧ t.ticker.merged = s.ticker.merged + 1 ∧ t.ticker.omitted = s.ticker.omitted
                  ∧ t.mgmt = s.mgmt)
            ∧ (256 ≤ q.length →
              (p.condition ≠ .regular ∨ ∀ x ∈ q, takesUp p x = false) →
              t.ticker.merged = s.ticker.merged ∧ t.ticker.omitted = s.ticker.omitted + 1
                ∧ t.mgmt = alertSet .tapeOmit s.mgmt
                ∧ (p.tapeClass = .b ∨ (∀ x ∈ q, inClassB x = false) → t.ticker.queue = q)
                ∧ ∀ (before after : List TickerEntry) (y : Print), p.tapeClass = .a →
                  q = before ++ .print y :: after → y.tapeClass = .b →
                  (∀ x ∈ before, inClassB x = false) →
                  t.ticker.queue = before ++ after ++ [.print p])))
    ∧ ∀ (s : State) (atHead : Bool) (text : List Byte),
      let t := offerText atHead text s
      let q := s.ticker.queue
      let placed (rest : List TickerEntry) : List TickerEntry :=
        if atHead then .announce text :: rest else rest ++ [.announce text]
      (s.ticker.state = .stopped ∨ text = [] → t = s)
        ∧ (s.ticker.state ≠ .stopped → text ≠ [] →
          (q.length < 256 → t = { s with ticker := { s.ticker with queue := placed q } })
            ∧ (256 ≤ q.length → (∀ x ∈ q, inClassB x = false) → t = s)
            ∧ (256 ≤ q.length → ∀ (before after : List TickerEntry) (y : Print),
              q = before ++ .print y :: after → y.tapeClass = .b →
              (∀ x ∈ before, inClassB x = false) →
              t = { s with
                ticker := { s.ticker with
                  queue := placed (before ++ after), omitted := s.ticker.omitted + 1 },
                mgmt := alertSet .tapeOmit s.mgmt }))

/-- R16: a QUOTE sets the bid and the ask as carried, and hands BID and ASK where they changed to the rows and to
the QUOTE slots (R96); one that repeats them hands nothing on. R17: HALT and RESUME set the trading state; a change
hands STATE to the rows and to the QUOTE slots (R96) and, for a symbol of tape class A or B, offers the
announcement. -/
def Obligations.QuoteAndSymbolStateAreApplied : Prop :=
  (∀ (s : State) (e : IntakeEntry) (rest : List IntakeEntry) (q : QuoteItems) (n : Nat)
      (r : QuoteRecord),
      let u := afterGap e s
      let names := nameIf (r.bid ≠ q.bid) nameBid ||| nameIf (r.ask ≠ q.ask) nameAsk
      HeadIs s e rest .quote → quoteItems (payload e.body) = some q →
        lookup u.directory q.symbol = some n → tableGet u.records n = some r →
        ∃ t, exec .quote s = .next t
          ∧ tableGet t.records n = some { r with bid := q.bid, ask := q.ask }
          ∧ t.line = lineWithNames n names u.line
          ∧ NamesReachBoards n names { u with records := t.records } t
          ∧ KeepsOtherRecords n u t ∧ KeepsFeedAndTime u t ∧ BoardsOnlyRefresh u t
          ∧ t.intake = rest ∧ t.directory = u.directory ∧ t.bulletins = u.bulletins
          ∧ t.ticker = u.ticker ∧ t.mgmt = u.mgmt)
    ∧ ∀ (s : State) (e : IntakeEntry) (rest : List IntakeEntry) (q : SymbolStateItems) (n : Nat)
      (r : QuoteRecord),
      let u := afterGap e s
      let new : TradingState :=
        if q.halt then .halted else if r.last = none then .notOpen else .trading
      HeadIs s e rest .symbolState → symbolStateItems (payload e.body) = some q →
        lookup u.directory q.symbol = some n → tableGet u.records n = some r →
        (new = r.state → exec .symbolState s = .next { u with intake := rest })
          ∧ (new ≠ r.state → ∃ t, exec .symbolState s = .next t
            ∧ tableGet t.records n = some { r with state := new }
            ∧ t.line = lineWithNames n nameState u.line
            ∧ NamesReachBoards n nameState { u with records := t.records } t
            ∧ (let offered := if r.tapeClass = .none then u
                else offerText false (tapeSymbol r.symbol ++ (if q.halt then textHalted else textResumed)) u
              t.ticker = offered.ticker ∧ t.mgmt = offered.mgmt)
            ∧ KeepsOtherRecords n u t ∧ KeepsFeedAndTime u t ∧ BoardsOnlyRefresh u t
            ∧ t.intake = rest ∧ t.directory = u.directory ∧ t.bulletins = u.bulletins)

/-- R18, R19, R20: a RECAP replaces the record's values, brings the high and the low to include the last price,
recomputes the net change, and clears the stale mark unless the feed is LOST; its change set reaches the
rows and the QUOTE slots (R96, R98). -/
def Obligations.RecapIsApplied : Prop :=
  ∀ (s : State) (e : IntakeEntry) (rest : List IntakeEntry) (q : RecapItems) (n : Nat)
    (r : QuoteRecord),
    let u := afterGap e s
    HeadIs s e rest .recap → recapItems (payload e.body) = some q →
      lookup u.directory q.symbol = some n → tableGet u.records n = some r →
      ∃ t r' names, exec .recap s = .next t ∧ tableGet t.records n = some r'
        ∧ r' = { r with
            state := q.state, prevClose := q.prevClose, last := q.last,
            tick := if q.last = none then .none else q.tick,
            high := (match q.last, q.high with
              | none, h => h
              | some p, none => some p
              | some p, some h => some (max h p)),
            low := (match q.last, q.low with
              | none, l => l
              | some p, none => some p
              | some p, some l => some (min l p)),
            volume := q.volume, bid := q.bid, ask := q.ask,
            netChange := (match q.last with
              | none => 0
              | some p => (p : Int) - (q.prevClose : Int)),
            stale := if u.feed.feedState = .lost then r.stale else false }
        ∧ names = (nameIf (r.state ≠ r'.state) nameState
          ||| nameIf (r.last ≠ r'.last ∨ (r.prevClose ≠ r'.prevClose ∧ r'.state = .notOpen)) nameLast
          ||| nameIf (r.netChange ≠ r'.netChange) nameChange ||| nameIf (r.tick ≠ r'.tick) nameTick
          ||| nameIf (r.high ≠ r'.high) nameHigh ||| nameIf (r.low ≠ r'.low) nameLow
          ||| nameIf (r.volume ≠ r'.volume) nameVolume ||| nameIf (r.bid ≠ r'.bid) nameBid
          ||| nameIf (r.ask ≠ r'.ask) nameAsk ||| nameIf (r.stale ≠ r'.stale) nameStale)
        ∧ t.line = lineWithNames n names u.line
        ∧ NamesReachBoards n names { u with records := t.records } t
        ∧ KeepsOtherRecords n u t ∧ KeepsFeedAndTime u t ∧ BoardsOnlyRefresh u t
        ∧ t.intake = rest ∧ t.directory = u.directory ∧ t.bulletins = u.bulletins
        ∧ t.ticker = u.ticker ∧ t.mgmt = u.mgmt

/-! ## Clock and session (chapter 4) -/

/-- R59, R60, R61: a CLOCK frame sets the clock and its flag and restarts the phase; the second phase running
out advances the clock by one second, wrapping at midnight; a minute change reaches the status lines
of the ACTIVE terminals and the CLOCK slots (R102). -/
def Obligations.ClockRuns : Prop :=
  (∀ (s : State) (e : IntakeEntry) (rest : List IntakeEntry) (q : TimeOfDay),
      let u := afterGap e s
      let seconds := q.hour * 3600 + q.minute * 60 + q.second
      HeadIs s e rest .clock → clockItems (payload e.body) = some q →
        ∃ t, exec .clock s = .next t
          ∧ t.time = { u.time with clock := seconds, clockSet := true, phaseTicks := 0 }
          ∧ (if u.time.clockSet = false ∨ seconds / 60 ≠ u.time.clock / 60 then
              t.line = lineWithStatus u.line
                ∧ BoardsMarked clockMark { u with time := t.time } t
            else t.line = u.line ∧ t.chains = u.chains ∧ t.slots = u.slots)
          ∧ t.phase = u.phase ∧ t.feed = u.feed ∧ t.intake = rest ∧ t.load = u.load
          ∧ t.records = u.records
          ∧ t.directory = u.directory ∧ t.flashClock = u.flashClock ∧ t.bulletins = u.bulletins
          ∧ t.ticker = u.ticker ∧ t.mgmt = u.mgmt ∧ BoardsOnlyRefresh u t)
    ∧ ∀ s : State, s.phase = .running →
      let next := if s.time.clock = 86399 then 0 else s.time.clock + 1
      ∃ t, exec .secondPhaseExpiry s = .next t
        ∧ t.time = { s.time with clock := next, phaseTicks := 0 }
        ∧ (if s.time.clockSet = true ∧ next / 60 ≠ s.time.clock / 60 then
            t.line = lineWithStatus s.line
              ∧ BoardsMarked clockMark { s with time := t.time } t
          else t.line = s.line ∧ t.chains = s.chains ∧ t.slots = s.slots)
        ∧ t.phase = s.phase ∧ t.feed = s.feed ∧ t.intake = s.intake ∧ t.load = s.load
        ∧ t.records = s.records
        ∧ t.directory = s.directory ∧ t.flashClock = s.flashClock ∧ t.bulletins = s.bulletins
        ∧ t.ticker = s.ticker ∧ t.mgmt = s.mgmt ∧ BoardsOnlyRefresh s t

/-- R62, R64, R113, R129, R131, R140: an accepted SESSION code that changes the session, what becomes of the ticker
(out of CLOSED it is RUNNING, from STOPPED with an empty text, no separator and its step timer started with the
interval of the level; at CLOSE a RUNNING one is DRAINING; all else of it is kept, but for what the day reset of a
PRE_OPEN empties), the mark of the STATUS slots (R104), and the terminal line: the status lines, the end of the night
poll gap with the selection that follows it, and what the day reset of a PRE_OPEN then adds to the rows and, where the
level falls to 0, to the status lines (that the selection comes first is the model's choice, log entry 11). At PRE_OPEN
every slot is dirty (R110), and the flash of a QUOTE slot of a DEFINED record starts (R98), the other flashes standing;
that the marks come in the turn of `dayTurns` is the model's choice (log entry 11). Of the cursor of an empty text nothing
is said (log entry 19). -/
def Obligations.SessionChanges : Prop :=
  ∀ (s : State) (e : IntakeEntry) (rest : List IntakeEntry) (code : SessionCode)
    (new : SessionState),
    let u := afterGap e s
    let old := u.time.session
    HeadIs s e rest .session → sessionItems (payload e.body) = some code →
      ((code = .preOpen ∧ old = .closed ∧ new = .preOpen)
        ∨ (code = .openMarket ∧ (old = .closed ∨ old = .preOpen) ∧ new = .openMarket)
        ∨ (code = .haltAll ∧ old = .openMarket ∧ new = .haltedAll)
        ∨ (code = .resumeAll ∧ old = .haltedAll ∧ new = .openMarket)
        ∨ (code = .close ∧ old ≠ .closed ∧ new = .closed)) →
      ∃ t, exec .session s = .next t ∧ t.time = { u.time with session := new }
        ∧ (let interval := if u.ticker.level ≤ 2 then param u 7 else param u 8
          let handed : Ticker :=
            if old = .closed then
              if u.ticker.state = .stopped then
                { u.ticker with
                  state := .running, text := [], cursor := t.ticker.cursor, separator := 0,
                  stepTimer := some interval }
              else { u.ticker with state := .running }
            else if new = .closed ∧ u.ticker.state = .running then { u.ticker with state := .draining }
            else u.ticker
          (code ≠ .preOpen → t.ticker = handed)
            ∧ (code = .preOpen → t.ticker = { handed with
              queue := [], level := 0, lateMinutes := 0, admitted := 0, printed := 0, merged := 0,
              omitted := 0 }))
        ∧ (old = .closed → t.line.gap = none) ∧ (old ≠ .closed → t.line = lineWithStatus u.line)
        ∧ (let chosen := (select { u with
            time := t.time, line := { lineWithStatus u.line with gap := none } }).line
          old = .closed → (code = .openMarket → t.line = chosen)
            ∧ (code = .preOpen → t.line = lineWithDayReset u chosen))
        ∧ (code ≠ .preOpen →
          t.records = u.records ∧ BoardsMarked statusMark { u with time := t.time } t)
        ∧ (code = .preOpen → MarkReaches (· = .status) u t ∧ MarksStand (dayMark u) u t
          ∧ ((u.records.map Prod.fst).Nodup →
            BoardsMarkedInTurn (dayTurns u) { u with time := t.time } t))
        ∧ t.load = u.load
        ∧ t.phase = u.phase ∧ t.feed = u.feed ∧ t.intake = rest ∧ t.directory = u.directory
        ∧ t.flashClock = u.flashClock ∧ t.bulletins = u.bulletins ∧ t.mgmt = u.mgmt
        ∧ BoardsOnlyRefresh u t

/-- R63: a SESSION code that is not accepted from the present state changes nothing; nor does a CLOSE taken in
CLOSED (R62). -/
def Obligations.SessionIsIgnored : Prop :=
  ∀ (s : State) (e : IntakeEntry) (rest : List IntakeEntry) (code : SessionCode),
    let u := afterGap e s
    let old := u.time.session
    HeadIs s e rest .session → sessionItems (payload e.body) = some code →
      ((code = .preOpen ∧ (old = .preOpen ∨ old = .openMarket ∨ old = .haltedAll))
        ∨ (code = .openMarket ∧ (old = .openMarket ∨ old = .haltedAll))
        ∨ (code = .haltAll ∧ (old = .closed ∨ old = .preOpen ∨ old = .haltedAll))
        ∨ (code = .resumeAll ∧ (old = .closed ∨ old = .preOpen ∨ old = .openMarket))
        ∨ (code = .close ∧ old = .closed)) →
      exec .session s = .next { u with intake := rest }

/-- R22, R110, R131: the day reset, at the SESSION PRE_OPEN taken in CLOSED, of the records, of the slots and of
the ticker; every name of every DEFINED record reaches the rows naming it (R22, R157), and a level that falls to 0
the status lines (R150), as they stand after the selection that the end of the night brings. Every slot is dirty, and the
set of every name, which holds LAST, starts the flash of each QUOTE slot that has flash enabled (R98); the other flashes
stand. That the selection comes before the day reset, and the turn in which the marks come, are the model's choices (log
entry 11). -/
def Obligations.DayResetResets : Prop :=
  ∀ (s : State) (e : IntakeEntry) (rest : List IntakeEntry),
    let u := afterGap e s
    HeadIs s e rest .session → sessionItems (payload e.body) = some .preOpen →
      u.time.session = .closed → (u.records.map Prod.fst).Nodup →
      ∃ t, exec .session s = .next t
        ∧ (∀ n r, tableGet u.records n = some r →
          tableGet t.records n = some (dayRecord (decide (u.feed.feedState = .lost)) r))
        ∧ (∀ n, tableGet u.records n = none → tableGet t.records n = none)
        ∧ MarkReaches (fun _ => True) u t ∧ MarksStand (dayMark u) u t
        ∧ BoardsMarkedInTurn (dayTurns u) { u with time := t.time } t
        ∧ t.line = lineWithDayReset u (select { u with
            time := t.time, line := { lineWithStatus u.line with gap := none } }).line
        ∧ t.ticker.queue = [] ∧ t.ticker.level = 0 ∧ t.ticker.lateMinutes = 0
        ∧ t.ticker.admitted = 0 ∧ t.ticker.printed = 0 ∧ t.ticker.merged = 0 ∧ t.ticker.omitted = 0
        ∧ t.ticker.epoch = u.ticker.epoch ∧ t.ticker.state = .running

/-! ## Bulletin stacks (chapter 6) -/

/-- R106 to R109: what PUSH, POP and CLEAR do to their stack, what the expiry of an entry's duration removes, the
text offered to the ticker (with the alert that the offer sets, by TickerAdmitsOffers), and the mark of the stack's
MESSAGE slots at a change of its top. -/
def Obligations.BulletinStacksChange : Prop :=
  (∀ (s : State) (e : IntakeEntry) (rest : List IntakeEntry) (b : BulletinItems),
      let u := afterGap e s
      let pushed : BulletinEntry :=
        { text := b.text, tapeFlag := b.tapeFlag,
          timer := if b.duration = 0 then none else some (b.duration * 1000) }
      let topGone (t : State) : Prop :=
        if u.bulletins[b.stack] = [] then t.chains = u.chains ∧ t.slots = u.slots
        else BoardsMarked (messageMark b.stack) { u with bulletins := t.bulletins } t
      bulletinItems (payload e.body) = some b →
        (HeadIs s e rest .bulletinPush → ∃ t, exec .bulletinPush s = .next t
            ∧ t.bulletins[b.stack] = pushed :: (u.bulletins[b.stack]).take 3
            ∧ (∀ k : StackId, k ≠ b.stack → t.bulletins[k] = u.bulletins[k])
            ∧ (let offered := if b.tapeFlag then offerText false b.text u else u
              t.ticker = offered.ticker ∧ t.mgmt = offered.mgmt)
            ∧ BoardsMarked (messageMark b.stack) { u with bulletins := t.bulletins } t
            ∧ KeepsFeedAndTime u t ∧ BoardsOnlyRefresh u t ∧ t.intake = rest ∧ t.records = u.records
            ∧ t.directory = u.directory ∧ t.line = u.line)
          ∧ (HeadIs s e rest .bulletinPop → ∃ t, exec .bulletinPop s = .next t
            ∧ t.bulletins[b.stack] = (u.bulletins[b.stack]).tail
            ∧ (∀ k : StackId, k ≠ b.stack → t.bulletins[k] = u.bulletins[k])
            ∧ (let offered := match u.bulletins[b.stack] with
                | _ :: below :: _ => if below.tapeFlag then offerText false below.text u else u
                | _ => u
              t.ticker = offered.ticker ∧ t.mgmt = offered.mgmt)
            ∧ topGone t
            ∧ KeepsFeedAndTime u t ∧ BoardsOnlyRefresh u t ∧ t.intake = rest ∧ t.records = u.records
            ∧ t.directory = u.directory ∧ t.line = u.line)
          ∧ (HeadIs s e rest .bulletinClear → ∃ t, exec .bulletinClear s = .next t
            ∧ t.bulletins[b.stack] = []
            ∧ (∀ k : StackId, k ≠ b.stack → t.bulletins[k] = u.bulletins[k])
            ∧ t.ticker = u.ticker ∧ t.mgmt = u.mgmt ∧ topGone t
            ∧ KeepsFeedAndTime u t ∧ BoardsOnlyRefresh u t ∧ t.intake = rest ∧ t.records = u.records
            ∧ t.directory = u.directory ∧ t.line = u.line))
    ∧ ∀ (s : State) (k : StackId) (above below : List BulletinEntry) (b : BulletinEntry),
      s.phase = .running → s.bulletins[k] = above ++ b :: below → b.timer.isSome = true →
      ∃ t, exec (.bulletinDurationExpiry k above.length) s = .next t
        ∧ t.bulletins[k] = above ++ below
        ∧ (∀ j : StackId, j ≠ k → t.bulletins[j] = s.bulletins[j])
        ∧ (above ≠ [] → t.slots = s.slots ∧ t.chains = s.chains ∧ t.ticker = s.ticker ∧ t.mgmt = s.mgmt)
        ∧ (above = [] → BoardsMarked (messageMark k) { s with bulletins := t.bulletins } t
          ∧ let offered := match below with
            | top :: _ => if top.tapeFlag then offerText false top.text s else s
            | [] => s
          t.ticker = offered.ticker ∧ t.mgmt = offered.mgmt)
        ∧ KeepsFeedAndTime s t ∧ BoardsOnlyRefresh s t ∧ t.intake = s.intake ∧ t.records = s.records
        ∧ t.directory = s.directory ∧ t.line = s.line

/-! ## LOAD (chapters 1, 5, 6, 9 and 10) -/

/-- R168, R51: a LOAD of one PARAM entry stores its value after the handling of Table 10-1, or is refused with
BAD ENTRY and stores nothing; a load of the silence window acts on the silence timer. -/
def Obligations.LoadParamStores : Prop :=
  ∀ (s : State) (e : IntakeEntry) (rest : List IntakeEntry) (i : Fin 20),
    let u := afterGap e s
    let v := at16 (entryOf e.body) 0
    let lo := (paramRanges[i]).1
    let hi := (paramRanges[i]).2
    let clamped : Bool := i ∈ [4, 5, 6, 7, 8, 13, 16, 17, 18]
    let stored := if clamped then max lo (min hi v) else v
    let accepted : Prop := clamped = true
      ∨ (i ≠ 19 ∧ lo ≤ v ∧ v ≤ hi ∧ (10 ≤ i.val → i.val ≤ 12 → param u (i - 1) < v)
        ∧ (9 ≤ i.val → i.val ≤ 11 → v < param u (i + 1)))
    let silence : Timer :=
      if i ≠ 4 then u.feed.silence
      else if stored = 0 then none
      else if u.feed.feedState = .running then some (stored * 1000)
      else u.feed.silence
    let stores : State :=
      { u with
        intake := rest, feed := { u.feed with silence := silence },
        mgmt := replied (seqTag e.body) [0]
          { u.mgmt with params := u.mgmt.params.set i (BitVec.ofNat 16 stored) } }
    let refuses : State :=
      { u with intake := rest, mgmt := replied (seqTag e.body) [4, 0, 0] u.mgmt }
    HeadIs s e rest .loadParam → s.load = none → OneEntry e.body 2 i.val →
      (accepted → stored < 65536 ∧ exec .loadParam s = .next stores)
        ∧ (¬ accepted → exec .loadParam s = .next refuses)

/-- R7 to R11: a LOAD of one SYMBOL entry defines an EMPTY record, deletes, renames or redescribes a DEFINED
one, with the change sets and the deletion reaching the rows and the QUOTE slots (R96, R97); it is refused
where another record holds the symbol, and for its own values: a symbol that is not well formed, a tape class
or a denominator of no meaning, a previous close that fails or is absent. At a rename the slots receive the deletion,
which stops their flash, and then the set of every name, which starts the flash of those with flash enabled (R10, R97,
R98). That a chain that is IDLE refreshes between the two, with a snapshot of the new record and the second mark left
for its next refresh, is the model's choice (log entries 11 and 12; R6, R10 and R76 allow a snapshot after both). -/
def Obligations.LoadSymbolActs : Prop :=
  ∀ (s : State) (e : IntakeEntry) (rest : List IntakeEntry) (n : Nat),
    let u := afterGap e s
    let x := entryOf e.body
    let fails : Prop := ¬ GoodSymbol (symbolAt x 0) ∨ 2 < at8 x 5 ∨ (at8 x 6 ≠ 8 ∧ at8 x 6 ≠ 16)
      ∨ PriceAbsent x 7 ∨ PriceFails x 7
    let boards (names : NameSet) (t : State) : Prop :=
      NamesReachBoards n names { u with records := t.records } t
    let refuses : Prop := exec .loadSymbol s = .next { u with
      intake := rest, mgmt := replied (seqTag e.body) [4, 0, 0] u.mgmt }
    HeadIs s e rest .loadSymbol → s.load = none → OneEntry e.body 11 n → n ≤ 511 →
      (fails → refuses)
        ∧ (¬ fails → symbolEntry x = some
          { symbol := symbolAt x 0,
            tapeClass := if at8 x 5 = 0 then .none else if at8 x 5 = 1 then .a else .b,
            denom := if at8 x 6 = 8 then .eighths else .sixteenths, prevClose := unitsAt x 7 })
        ∧ ∀ q : SymbolEntry,
          let afresh : QuoteRecord :=
            { emptyRecord with
              symbol := q.symbol, tapeClass := q.tapeClass, denom := q.denom, prevClose := q.prevClose,
              stale := decide (u.feed.feedState = .lost) }
          let frame (t : State) : Prop :=
            KeepsOtherRecords n u t ∧ KeepsFeedAndTime u t ∧ BoardsOnlyRefresh u t ∧ t.intake = rest
              ∧ t.bulletins = u.bulletins ∧ t.ticker = u.ticker
              ∧ t.mgmt = replied (seqTag e.body) [0] u.mgmt
          symbolEntry x = some q →
          (q.symbol ≠ blankSymbol → tableGet u.records n = none → lookup u.directory q.symbol = none →
              ∃ t, exec .loadSymbol s = .next t ∧ tableGet t.records n = some afresh
                ∧ lookup t.directory q.symbol = some n
                ∧ (∀ c, c ≠ q.symbol → lookup t.directory c = lookup u.directory c)
                ∧ t.line = lineWithNames n allNames u.line ∧ boards allNames t ∧ frame t)
            ∧ (∀ r, q.symbol = blankSymbol → tableGet u.records n = some r →
              ∃ t, exec .loadSymbol s = .next t ∧ tableGet t.records n = none
                ∧ lookup t.directory r.symbol = none
                ∧ (∀ c, c ≠ r.symbol → lookup t.directory c = lookup u.directory c)
                ∧ t.line = lineWithDeletion n u.line
                ∧ BoardsMarked (deletionMark n) { u with records := t.records } t ∧ frame t)
            ∧ (∀ r, q.symbol ≠ blankSymbol → tableGet u.records n = some r → q.symbol ≠ r.symbol →
              lookup u.directory q.symbol = none →
              ∃ t, exec .loadSymbol s = .next t ∧ tableGet t.records n = some afresh
                ∧ lookup t.directory q.symbol = some n ∧ lookup t.directory r.symbol = none
                ∧ (∀ c, c ≠ q.symbol → c ≠ r.symbol → lookup t.directory c = lookup u.directory c)
                ∧ t.line = lineWithDeletion n u.line
                ∧ MarkReaches (fun kind => ∃ fields gap lamp flash,
                  kind = .quote n fields gap lamp flash) u t
                ∧ (let defined := quoteMark n allNames (param u 5)
                  MarksStand (fun sl => defined (deletionMark n sl)) u t
                    ∧ BoardsMarkedInTurn [{ reads := id, mark := deletionMark n },
                      { reads := id, mark := defined }] { u with records := t.records } t)
                ∧ frame t)
            ∧ (∀ r, q.symbol ≠ blankSymbol → tableGet u.records n = some r → q.symbol = r.symbol →
              lookup u.directory q.symbol = some n →
              ∃ t r' names, exec .loadSymbol s = .next t ∧ tableGet t.records n = some r'
                ∧ r' = { r with
                    tapeClass := q.tapeClass, denom := q.denom, prevClose := q.prevClose,
                    netChange := (match r.last with
                      | some p => (p : Int) - (q.prevClose : Int)
                      | none => 0) }
                ∧ t.directory = u.directory
                ∧ names = (nameIf
                    (r.denom ≠ r'.denom ∨ (r.prevClose ≠ r'.prevClose ∧ r.state = .notOpen)) nameLast
                  ||| nameIf (r.denom ≠ r'.denom ∨ r.netChange ≠ r'.netChange) nameChange
                  ||| nameIf (r.denom ≠ r'.denom) (nameHigh ||| nameLow ||| nameBid ||| nameAsk))
                ∧ t.line = lineWithNames n names u.line ∧ boards names t ∧ frame t)
            ∧ (q.symbol = blankSymbol → tableGet u.records n = none →
              exec .loadSymbol s = .next { u with
                intake := rest, mgmt := replied (seqTag e.body) [0] u.mgmt })
            ∧ ∀ m, q.symbol ≠ blankSymbol → lookup u.directory q.symbol = some m → m ≠ n → refuses

/-- R93, R94, Table 11-7: a LOAD of one SLOT entry of good values, whose cells no other slot claims, replaces the
slot's description, stops its flash, marks it dirty and sets resync on the chain it named before; an EMPTY entry
empties the slot; one whose values fail, or that would claim a cell of another slot, is refused. An IDLE chain
refreshes at once (R75), its snapshot composing the new claims. Where the gap-before marking of the frame itself starts
a refresh, its snapshot and the load come together: the snapshot composes the new claims, too, and the resync of the
load stays pending, for the second refresh of R94; that the load is the first of the two is the model's choice (log
entry 32). -/
def Obligations.LoadSlotReplaces : Prop :=
  ∀ (s : State) (e : IntakeEntry) (rest : List IntakeEntry) (n : Nat),
    let u := afterGap e s
    let x := entryOf e.body
    let sl := slotOf x
    let former (c : ChainId) : Bool := (tableGet u.slots n).any (fun old => old.chain == c)
    let asked (c : ChainId) : Chain :=
      { u.chains[c] with resync := (u.chains[c]).resync || former c }
    let begun (c : ChainId) : Prop := (s.chains[c]).state = .idle ∧ (u.chains[c]).state ≠ .idle
    let frame (marked : ChainId → Bool) (t : State) : Prop :=
      (∀ c : ChainId,
          ((u.chains[c]).state ≠ .idle → (s.chains[c]).state ≠ .idle → t.chains[c] = asked c)
            ∧ (begun c → t.chains[c] = { asked c with
                cycle := (u.chains[c]).cycle.map (fun cy => { cy with image := composeImage t c cy.list }) }
              ∧ ∀ m sl', tableGet t.slots m = some sl' → sl'.chain = c → sl'.dirty = false)
            ∧ ((u.chains[c]).state = .idle → former c = true ∨ marked c = true →
              RefreshStarted c { t with chains := u.chains.set c (asked c) } t)
            ∧ ((u.chains[c]).state = .idle → former c = false → marked c = false →
              (u.chains[c]).resync = false → (∀ e ∈ u.slots, e.2.chain = c → e.2.dirty = false) →
              t.chains[c] = u.chains[c]))
        ∧ (∀ m, m ≠ n → (tableGet t.slots m).map description = (tableGet u.slots m).map description)
        ∧ KeepsFeedAndTime u t ∧ t.intake = rest ∧ t.records = u.records
        ∧ t.directory = u.directory ∧ t.bulletins = u.bulletins ∧ t.ticker = u.ticker
        ∧ t.line = u.line ∧ t.mgmt = replied (seqTag e.body) [0] u.mgmt
    HeadIs s e rest .loadSlot → s.load = none → OneEntry e.body 15 n → n ≤ 255 →
      (at8 x 0 ≠ 0 → ¬ SlotValuesFail x → ¬ CellTaken u.slots n sl →
          ∃ t, exec .loadSlot s = .next t ∧ frame (fun c => sl.chain == c) t
            ∧ ∃ sl', tableGet t.slots n = some sl' ∧ description sl' = description sl
              ∧ sl'.flash = none
              ∧ ((s.chains[sl.chain]).state ≠ .idle → (u.chains[sl.chain]).state ≠ .idle → sl'.dirty = true)
              ∧ ((u.chains[sl.chain]).state = .idle ∨ begun sl.chain → sl'.dirty = false))
        ∧ (at8 x 0 = 0 →
          ∃ t, exec .loadSlot s = .next t ∧ frame (fun _ => false) t ∧ tableGet t.slots n = none)
        ∧ (SlotValuesFail x ∨ (at8 x 0 ≠ 0 ∧ CellTaken u.slots n sl) →
          exec .loadSlot s = .next { u with
            intake := rest, mgmt := replied (seqTag e.body) [4, 0, 0] u.mgmt })

/-- R70, R84, R85: a LOAD of one CHAIN entry stores the clamped values; a cycle in flight goes on with resync and
reload set; disabling takes an IDLE chain OFFLINE, before the refresh of R84 could start (the order is the model's
choice, log entry 13), and leaves an OFFLINE one there. R71, R84: a LOAD of one MODULE entry of chain c, module k
stores the kind, and acts on the chain as a load does; an unknown kind is refused with BAD ENTRY. -/
def Obligations.LoadChainAndModuleStore : Prop :=
  (∀ (s : State) (e : IntakeEntry) (rest : List IntakeEntry) (c : ChainId),
      let u := afterGap e s
      let x := entryOf e.body
      let entry : ChainEntry :=
        { enabled := decide (at8 x 0 ≠ 0), cellPeriod := max 10 (min 1000 (at16 x 1)),
          settle := max 1 (min 50 (at8 x 3)), keepalive := max 1 (min 60 (at8 x 4)),
          day := x.getD 5 0, night := x.getD 6 0 }
      HeadIs s e rest .loadChain → s.load = none → OneEntry e.body 7 c.val →
        ∃ t, exec .loadChain s = .next t ∧ (t.chains[c]).entry = entry
          ∧ ((u.chains[c]).state = .shifting ∨ (u.chains[c]).state = .settling →
            t.chains[c] = { u.chains[c] with entry := entry, resync := true, reload := true }
              ∧ t.slots = u.slots)
          ∧ ((u.chains[c]).state = .idle → (u.chains[c]).entry.enabled = true → entry.enabled = false →
            t.chains[c] = { u.chains[c] with
              entry := entry, resync := true, state := .offline, shadowValid := false, cycle := none,
              keepaliveTimer := none, settleTimer := none } ∧ t.slots = u.slots)
          ∧ ((u.chains[c]).state = .idle → (u.chains[c]).entry.enabled = false ∨ entry.enabled = true →
            let loaded : Chain := { u.chains[c] with entry := entry, shadowValid := false, resync := true }
            RefreshAlone c { u with chains := u.chains.set c loaded } t)
          ∧ ((u.chains[c]).state = .offline →
            (u.chains[c]).entry.enabled = entry.enabled ∨ entry.enabled = false →
            t.chains[c] = { u.chains[c] with entry := entry, resync := true } ∧ t.slots = u.slots)
          ∧ ((u.chains[c]).state = .offline → (u.chains[c]).entry.enabled = false →
            entry.enabled = true →
            if (u.chains[c]).senseLevel = true ∧ (u.chains[c]).faultCount < 3 then
              RefreshAlone c (withIdle c { u.chains[c] with entry := entry } u) t
            else t.chains[c] = { u.chains[c] with entry := entry, resync := true } ∧ t.slots = u.slots)
          ∧ (∀ d, d ≠ c → t.chains[d] = u.chains[d])
          ∧ (∀ n, (tableGet t.slots n).map description = (tableGet u.slots n).map description)
          ∧ KeepsFeedAndTime u t ∧ t.intake = rest ∧ t.records = u.records ∧ t.directory = u.directory
          ∧ t.bulletins = u.bulletins ∧ t.ticker = u.ticker ∧ t.line = u.line
          ∧ t.mgmt = replied (seqTag e.body) [0] u.mgmt)
    ∧ ∀ (s : State) (e : IntakeEntry) (rest : List IntakeEntry) (c : ChainId) (k : Fin 64),
      let u := afterGap e s
      let code := at8 (entryOf e.body) 0
      HeadIs s e rest .loadModule → s.load = none → OneEntry e.body 1 (c.val * 64 + k.val) →
        (∀ m, (code, m) ∈ [(0, ModuleKind.endOfList), (1, .char8), (2, .lamp), (3, .bypass)] →
            ∃ t, exec .loadModule s = .next t
              ∧ (let loaded : Chain := { u.chains[c] with modules := (u.chains[c]).modules.set k m, resync := true }
                ((u.chains[c]).state = .shifting ∨ (u.chains[c]).state = .settling →
                    t.chains[c] = { loaded with reload := true } ∧ t.slots = u.slots)
                  ∧ ((u.chains[c]).state = .offline → t.chains[c] = loaded ∧ t.slots = u.slots)
                  ∧ ((u.chains[c]).state = .idle → RefreshAlone c
                    { u with chains := u.chains.set c { loaded with shadowValid := false } } t))
              ∧ (∀ d, d ≠ c → t.chains[d] = u.chains[d])
              ∧ (∀ n, (tableGet t.slots n).map description = (tableGet u.slots n).map description)
              ∧ KeepsFeedAndTime u t ∧ t.intake = rest ∧ t.records = u.records
              ∧ t.directory = u.directory ∧ t.bulletins = u.bulletins ∧ t.ticker = u.ticker
              ∧ t.line = u.line ∧ t.mgmt = replied (seqTag e.body) [0] u.mgmt)
          ∧ (3 < code →
            exec .loadModule s = .next { u with
              intake := rest, mgmt := replied (seqTag e.body) [4, 0, 0] u.mgmt })

/-- R151, R164: a LOAD of one TERMINAL entry replaces the lock flag, the changed rows and the enabled flag, and is the
terminal's alone where it keeps that flag, clears it during a transaction with the terminal (whose state stands until
the end), or sets it again before that end. One that enables a DISABLED terminal makes it ABSENT with its probe due, and
a free line selects (R139); one that disables at once clears all but the rows' records. One is refused that names an
EMPTY record, or whose own values fail: a flag above 1, a row item that is neither FFFFh nor 0 to 511, a record in two
rows. -/
def Obligations.LoadTerminalReplaces : Prop :=
  ∀ (s : State) (e : IntakeEntry) (rest : List IntakeEntry) (x : TermId),
    let u := afterGap e s
    let term := u.line.terminals[x]
    let y := entryOf e.body
    let word (i : Fin 16) : Nat := at16 y (2 + 2 * i.val)
    let item (i : Fin 16) : Option Nat := if word i = 0xFFFF then none else some (word i)
    let fails : Prop := 1 < at8 y 0 ∨ 1 < at8 y 1 ∨ (∃ i, word i ≠ 0xFFFF ∧ 511 < word i)
      ∨ ∃ i j, i ≠ j ∧ word i = word j ∧ word i ≠ 0xFFFF
    let enabled : Bool := decide (at8 y 0 = 1)
    let lock : Bool := decide (at8 y 1 = 1)
    HeadIs s e rest .loadTerminal → s.load = none → OneEntry e.body 34 x.val →
      (¬ fails → (∀ i n, item i = some n → (tableGet u.records n).isSome = true) →
          ∃ t, exec .loadTerminal s = .next t
            ∧ (let loaded : Terminal :=
                { term with
                  enabled := enabled, lock := lock,
                  rows := Vector.ofFn (fun i => loadedRow (item i) term.rows[i]) }
              let becomes (term' : Terminal) : Prop :=
                t.line = { u.line with terminals := u.line.terminals.set x term' }
              (enabled = term.enabled → becomes loaded)
                ∧ (enabled = true → term.enabled = false → term.state = .disabled →
                  t.line = (select (withTerm x { loaded with
                      state := .absent, probeDue := true, misses := 0, nextNumber := 0, outstanding := none }
                    { u with records := t.records })).line)
                ∧ (enabled = true → term.enabled = false → term.state ≠ .disabled → becomes loaded)
                ∧ (enabled = false → term.enabled = true → inTransaction u x = true → becomes loaded)
                ∧ (enabled = false → term.enabled = true → inTransaction u x = false →
                  becomes { withoutSets loaded with
                    state := .disabled, outstanding := none, misses := 0, resetPending := false,
                    probeTimer := none, probeDue := false }))
            ∧ OnlyWatchChanges u t
            ∧ KeepsFeedAndTime u t ∧ t.chains = u.chains ∧ t.slots = u.slots ∧ t.intake = rest
            ∧ t.directory = u.directory ∧ t.bulletins = u.bulletins ∧ t.ticker = u.ticker
            ∧ t.mgmt = replied (seqTag e.body) [0] u.mgmt)
        ∧ ((fails ∨ ∃ i n, item i = some n ∧ tableGet u.records n = none) →
          exec .loadTerminal s = .next { u with
            intake := rest, mgmt := replied (seqTag e.body) [4, 0, 0] u.mgmt })

/-- R167: a LOAD takes its entries in order, each against the state that the earlier ones left, so that an event of
another block may fall between two of them; it ends with DONE at its last entry, with BAD ENTRY and the offset
at the first refused one, and with BAD LENGTH before its first entry where its length is wrong for its count.
That a command takes one entry is the model's choice (log entry 29); what a SLOT entry does where a snapshot comes
together with it is said by LoadSlotReplaces. -/
def Obligations.LoadsTakeEntriesInOrder : Prop :=
  ∀ (s : State) (e : IntakeEntry) (rest : List IntakeEntry) (table : LoadTable),
    let u := if s.load = none then afterGap e s else s
    let p := payload e.body
    let start := at16 p 1
    let count := at16 p 3
    let done := s.load.getD 0
    let entry := (p.drop (5 + done * table.entrySize)).take table.entrySize
    let ends (answer : List Byte) (v : State) : State :=
      { v with intake := rest, load := none, mgmt := replied (seqTag e.body) answer v.mgmt }
    HeadIs s e rest table.step → start + count ≤ table.size →
      (s.load = none → p.length ≠ 5 + count * table.entrySize →
          exec table.command s = .next (ends [3] u))
        ∧ (p.length = 5 + count * table.entrySize →
          (s.load = none → count = 0 → exec table.command s = .next (ends [0] u))
            ∧ (done < count →
              (table.apply s (start + done) entry u = none →
                exec table.command s
                  = .next (ends [4, byteOf (done / 256), byteOf done] u))
              ∧ ∀ v, table.apply s (start + done) entry u = some v →
                exec table.command s = .next (if done + 1 = count then ends [0] v
                  else { v with load := some (done + 1) })))

/-! ## READ, REPORT, CONTROL and refused frames (chapter 10) -/

/-- R169: a READ that passes its checks answers the entries from start onward, at most count and as many as fit in
79 bytes; one that fails is answered BAD LENGTH or BAD RANGE. R170: a REPORT of its length is answered DONE
with 69 bytes, laid out by Table 11-6. Neither changes any other state than the reply queue (the model's draw
counter apart, log entry 7). -/
def Obligations.ReadAndReportAnswer : Prop :=
  (∀ (s : State) (e : IntakeEntry) (rest : List IntakeEntry) (entries size : Nat),
      let u := afterGap e s
      let p := payload e.body
      let table := at8 p 0
      let start := at16 p 1
      let count := at16 p 3
      HeadIs s e rest .read →
        (table, entries, size) ∈ [(1, 20, 2), (2, 512, 11), (3, 256, 15), (4, 4, 7), (5, 256, 1), (6, 32, 34),
          (7, 512, 34), (8, 256, 34)] →
        exec .read s =
          .next (if p.length ≠ 5 then
              { u with intake := rest, mgmt := replied (seqTag e.body) [3] u.mgmt }
            else if entries < start + count then
              { u with intake := rest, mgmt := replied (seqTag e.body) [2] u.mgmt }
            else
              { u with
                intake := rest, draws := u.draws + 1,
                mgmt := replied (seqTag e.body)
                  ([0, byteOf table, byteOf (start / 256), byteOf start]
                    ++ (List.range (min count (79 / size))).flatMap
                      (fun i => readEntry u table (start + i))) u.mgmt }))
    ∧ ∀ (s : State) (e : IntakeEntry) (rest : List IntakeEntry),
      let u := afterGap e s
      let flag (b : Bool) : Byte := if b then 1 else 0
      HeadIs s e rest .report →
        ((payload e.body).length ≠ 1 →
            exec .report s = .next { u with
              intake := rest, mgmt := replied (seqTag e.body) [3] u.mgmt })
          ∧ ((payload e.body).length = 1 →
            ∃ report : List Byte,
              exec .report s = .next { u with
                intake := rest, draws := u.draws + 1,
                mgmt := replied (seqTag e.body) (0 :: report) u.mgmt }
              ∧ report.length = 69
              ∧ report[0]? = some (causeNumber u.mgmt.cause)
              ∧ report[1]? = some (feedNumber u.feed.feedState)
              ∧ (∀ x, u.feed.expected = some x → (report.drop 2).take 3 = 1 :: wordBytes x)
              ∧ (u.feed.expected = none → report[2]? = some 0)
              ∧ report[5]? = some (byteOf u.intake.length)
              ∧ report[6]? = some (sessionNumber u.time.session)
              ∧ (report.drop 7).take 4 = bytes3 u.time.clock ++ [flag u.time.clockSet]
              ∧ (report.drop 11).take 4 =
                wordBytes (u.mgmt.alertStatus.zeroExtend 16) ++ wordBytes (u.mgmt.alertMask.zeroExtend 16)
              ∧ (∀ c : ChainId, (report.drop (15 + 5 * c.val)).take 5 =
                [chainNumber (u.chains[c]).state, byteOf (u.chains[c]).faultCount,
                  byteOf ((u.chains[c]).firstMismatch.getD 0xFF), flag (u.chains[c]).senseLevel,
                  flag (u.chains[c]).senseLatch])
              ∧ (report.drop 35).take 4 = [tickerNumber u.ticker.state, byteOf u.ticker.level]
                ++ bytes2 u.ticker.queue.length
              ∧ (report.drop 39).take 12 = bytes3 u.ticker.admitted.toNat
                ++ bytes3 u.ticker.printed.toNat ++ bytes3 u.ticker.merged.toNat
                ++ bytes3 u.ticker.omitted.toNat
              ∧ (∀ (x y : TermId) (k : Fin 16), x.val = 2 * k.val → y.val = x.val + 1 →
                report[51 + k.val]? = some (byteOf (16 * terminalNumber (u.line.terminals[x]).state
                  + terminalNumber (u.line.terminals[y]).state)))
              ∧ report.drop 67 = bytes2 u.directory.length)

/-- R169, R176, R177, Tables 11-7 and 11-8: an entry of each table as READ returns it, of EMPTY records and slots and
of the ticker positions past the queue too (there 33 bytes of 00h: the model's choice, log entry 8). The two bytes
behind the FFh hour of an absent last trade time are open (log entry 7). -/
def Obligations.ReadEntriesAreLaidOut : Prop :=
  ∀ u : State,
    let price (p : Option Nat) : List Byte := match p with
      | some units => bytes3 units
      | none => [0xFF, 0xFF, 0xFF]
    let symbol (c : SymbolCode) : List Byte := [c.r0, c.r1, c.r2, c.r3, c.cls]
    let ofClass (k : TapeClass) : Byte := match k with
      | .none => 0
      | .a => 1
      | .b => 2
    let ofTick (k : Tick) : Byte := match k with
      | .none => 0
      | .up => 1
      | .down => 2
      | .zeroPlus => 3
      | .zeroMinus => 4
    let ofState (k : TradingState) : Byte := match k with
      | .notOpen => 0
      | .trading => 1
      | .halted => 2
    let flag (b : Bool) : Byte := if b then 1 else 0
    let blank : List Byte := List.replicate 5 0x20
    (∀ i : Fin 20, readEntry u 1 i.val = wordBytes u.mgmt.params[i])
      ∧ (∀ n r, tableGet u.records n = some r → readEntry u 2 n =
        symbol r.symbol ++ [ofClass r.tapeClass, if r.denom = .eighths then 8 else 16]
          ++ bytes2 (r.prevClose / 256) ++ [8, byteOf (r.prevClose % 256)])
      ∧ (∀ n, tableGet u.records n = none → readEntry u 2 n = blank ++ [0, 8, 0, 0, 8, 0])
      ∧ (∀ n, tableGet u.slots n = none → readEntry u 3 n = List.replicate 15 0)
      ∧ (∀ n sl, tableGet u.slots n = some sl →
        let place := byteOf sl.chain.val :: bytes2 sl.start
        (∀ record fields gap lamp flash, sl.kind = .quote record fields gap lamp flash →
            fields.length ≤ 6 → ∃ codes : List Byte, codes.map fieldOf = fields
              ∧ (∀ b ∈ codes, 1 ≤ b.toNat ∧ b.toNat ≤ 8)
              ∧ readEntry u 3 n = 1 :: place ++ bytes2 record ++ codes
                ++ List.replicate (6 - fields.length) 0
                ++ [byteOf gap, byteOf (lamp.getD 0xFF), flag flash])
          ∧ (∀ width k, sl.kind = .message width k → readEntry u 3 n =
            2 :: place ++ [byteOf width, byteOf k.val] ++ List.replicate 9 0)
          ∧ (sl.kind = .clock → readEntry u 3 n = 3 :: place ++ List.replicate 11 0)
          ∧ (sl.kind = .status → readEntry u 3 n = 4 :: place ++ List.replicate 11 0))
      ∧ (∀ c : ChainId, let entry := (u.chains[c]).entry
        readEntry u 4 c.val = flag entry.enabled :: bytes2 entry.cellPeriod
          ++ [byteOf entry.settle, byteOf entry.keepalive, entry.day, entry.night])
      ∧ (∀ (c : ChainId) (k : Fin 64), readEntry u 5 (64 * c.val + k.val) =
        [match (u.chains[c]).modules[k] with
          | .endOfList => 0
          | .char8 => 1
          | .lamp => 2
          | .bypass => 3])
      ∧ (∀ x : TermId, let term := u.line.terminals[x]
        readEntry u 6 x.val = [flag term.enabled, flag term.lock]
          ++ (List.finRange 16).flatMap (fun i => match (term.rows[i]).record with
            | some n => bytes2 n
            | none => [0xFF, 0xFF]))
      ∧ (∀ n r, tableGet u.records n = some r → ∃ time : List Byte, time.length = 3
        ∧ (∀ x, r.lastTime = some x → time = [byteOf x.hour, byteOf x.minute, byteOf x.second])
        ∧ (r.lastTime = none → time.head? = some 0xFF)
        ∧ readEntry u 7 n = [ofState r.state]
          ++ price r.last ++ [ofTick r.tick, ofTick r.carryTick]
          ++ bytes3 (BitVec.ofInt 24 r.netChange).toNat ++ price r.high ++ price r.low
          ++ bytes4 r.volume ++ price r.bid ++ price r.ask ++ time ++ [flag r.stale, byteOf r.watch]
          ++ (match r.tapeWhole with
            | some whole => bytes2 whole
            | none => [0xFF, 0xFF])
          ++ wordBytes r.tapeEpoch)
      ∧ (∀ n, tableGet u.records n = none → ∃ minute second : Byte, readEntry u 7 n =
        [0, 0xFF, 0xFF, 0xFF, 0, 0, 0, 0, 0] ++ List.replicate 6 0xFF ++ List.replicate 4 0
          ++ List.replicate 6 0xFF ++ [0xFF, minute, second, 0, 0, 0xFF, 0xFF, 0, 0])
      ∧ (∀ n p, u.ticker.queue[n]? = some (.print p) → readEntry u 8 n =
        1 :: bytes2 p.record ++ symbol p.symbol ++ bytes3 p.price ++ bytes4 p.volume
          ++ [byteOf p.time.hour, byteOf p.time.minute, byteOf p.time.second,
            match p.condition with
            | .regular => 0
            | .opening => 1
            | .outOfSequence => 2,
            ofClass p.tapeClass] ++ List.replicate 14 0)
      ∧ (∀ n text, u.ticker.queue[n]? = some (.announce text) → text.length ≤ 32 → readEntry u 8 n =
        [2, byteOf text.length] ++ text ++ List.replicate (32 - text.length) 0x20)
      ∧ ∀ n, u.ticker.queue.length ≤ n → readEntry u 8 n = List.replicate 34 0

/-- R173: an alert is set once, in its bit, with an ALERT frame where it is in the mask and none waits. R171, R173,
R81: CLEAR ALERTS removes the named alerts and, with a CHAIN SENSE, its latch; SET MASK replaces the
mask and queues an ALERT frame when it newly includes an alert that is set and none waits. -/
def Obligations.AlertsAreControlled : Prop :=
  (∀ (a : Alert) (m : Management),
      let set := { m with alertStatus := m.alertStatus ||| 1#15 <<< alertNumber a }
      (∀ status : AlertSet, alertIn a status = status.getLsbD (alertNumber a))
        ∧ alertSet a m = (if m.alertStatus.getLsbD (alertNumber a) then m
          else if m.alertMask.getLsbD (alertNumber a) ∧ .alert ∉ m.replyQueue then
            { set with replyQueue := m.replyQueue ++ [.alert] }
          else set))
    ∧ ∀ (s : State) (e : IntakeEntry) (rest : List IntakeEntry),
    let u := afterGap e s
    let named : AlertSet := (BitVec.ofNat 16 (at16 (payload e.body) 1)).truncate 15
    let status := u.mgmt.alertStatus
    (payload e.body).length = 3 →
      (HeadIs s e rest .clearAlerts → ∃ t, exec .clearAlerts s = .next t
          ∧ t.mgmt = replied (seqTag e.body) [0] { u.mgmt with alertStatus := status &&& ~~~named }
          ∧ (∀ c : ChainId, t.chains[c] =
            if named.getLsbD (7 + c.val) then { u.chains[c] with senseLatch := false } else u.chains[c])
          ∧ t = { u with intake := rest, chains := t.chains, mgmt := t.mgmt })
        ∧ (HeadIs s e rest .setMask →
          exec .setMask s = .next { u with
            intake := rest,
            mgmt := replied (seqTag e.body) [0]
              (if named &&& ~~~u.mgmt.alertMask &&& status ≠ 0 ∧ .alert ∉ u.mgmt.replyQueue then
                { u.mgmt with alertMask := named, replyQueue := u.mgmt.replyQueue ++ [.alert] }
              else { u.mgmt with alertMask := named }) })

/-- R86: CHAIN RESET waits for the end of a cycle in flight, and otherwise clears the count and brings an enabled,
present chain to an unverified refresh; an unknown chain is BAD COMMAND. R152: TERMINAL RESET changes nothing
of a DISABLED terminal, waits for the end of a transaction in flight (where a LOAD has cleared the enabled flag during
that transaction, the pending flag is the model's choice, log entry 33), and otherwise makes the terminal ABSENT
with its sets cleared and its rows kept, and the line selects; an unknown terminal is BAD COMMAND. -/
def Obligations.ChainAndTerminalAreReset : Prop :=
  (∀ (s : State) (e : IntakeEntry) (rest : List IntakeEntry),
      let u := afterGap e s
      let code := at8 (payload e.body) 1
      HeadIs s e rest .chainReset → (payload e.body).length = 2 →
        (∀ c : ChainId, code = c.val → ∃ t, exec .chainReset s = .next t
            ∧ ((u.chains[c]).state = .shifting ∨ (u.chains[c]).state = .settling →
              t.chains[c] = { u.chains[c] with resetPending := true } ∧ t.slots = u.slots)
            ∧ (let reset : Chain := { u.chains[c] with
                faultCount := 0, firstMismatch := none, shadowValid := false, resync := true,
                resetPending := false }
              (u.chains[c]).state = .idle ∨ (u.chains[c]).state = .offline →
                if (u.chains[c]).entry.enabled = true ∧ (u.chains[c]).senseLevel = true then
                  RefreshAlone c (withIdle c reset u) t
                else t.chains[c] = reset ∧ t.slots = u.slots)
            ∧ (∀ d, d ≠ c → t.chains[d] = u.chains[d])
            ∧ (∀ n, (tableGet t.slots n).map description = (tableGet u.slots n).map description)
            ∧ KeepsFeedAndTime u t ∧ t.intake = rest ∧ t.records = u.records
            ∧ t.directory = u.directory ∧ t.bulletins = u.bulletins ∧ t.ticker = u.ticker
            ∧ t.line = u.line ∧ t.mgmt = replied (seqTag e.body) [0] u.mgmt)
          ∧ (4 ≤ code → exec .chainReset s = .next { u with
              intake := rest, mgmt := replied (seqTag e.body) [5] u.mgmt }))
    ∧ ∀ (s : State) (e : IntakeEntry) (rest : List IntakeEntry),
      let u := afterGap e s
      let code := at8 (payload e.body) 1
      HeadIs s e rest .terminalReset → (payload e.body).length = 2 →
        (∀ x : TermId, code = x.val + 1 → ∃ t, exec .terminalReset s = .next t
            ∧ (let term := u.line.terminals[x]
              let term' := t.line.terminals[x]
              (term.state = .disabled → t.line = u.line)
                ∧ (term.state ≠ .disabled → inTransaction u x = true →
                  t.line = { u.line with
                    terminals := u.line.terminals.set x { term with resetPending := true } })
                ∧ (term.state ≠ .disabled → inTransaction u x = false →
                  t.line = (select (withTerm x { withoutSets term with
                      state := .absent, probeDue := true, probeTimer := none, outstanding := none,
                      misses := 0, resetPending := false } u)).line
                    ∧ term'.state = .absent ∧ term'.probeTimer = none ∧ term'.outstanding = none
                    ∧ term'.misses = 0 ∧ term'.resetPending = false ∧ term'.lock = term.lock
                    ∧ term'.statusPending = false ∧ term'.statusInFlight = false
                    ∧ term'.result = none
                    ∧ ∀ i : Fin 16, term'.rows[i] =
                      { record := (term.rows[i]).record, pending := 0, inFlight := 0 }))
            ∧ KeepsFeedAndTime u t ∧ t.chains = u.chains ∧ t.slots = u.slots ∧ t.intake = rest
            ∧ t.records = u.records ∧ t.directory = u.directory ∧ t.bulletins = u.bulletins
            ∧ t.ticker = u.ticker ∧ t.mgmt = replied (seqTag e.body) [0] u.mgmt)
          ∧ (code = 0 ∨ 33 ≤ code → exec .terminalReset s = .next { u with
              intake := rest, mgmt := replied (seqTag e.body) [5] u.mgmt })

/-- R130: TICKER FLUSH empties the queue, counting each PRINT entry as omitted, and keeps the rest of the
ticker. -/
def Obligations.TickerIsFlushed : Prop :=
  ∀ (s : State) (e : IntakeEntry) (rest : List IntakeEntry),
    let u := afterGap e s
    let prints := u.ticker.queue.countP isPrint
    HeadIs s e rest .tickerFlush → (payload e.body).length = 1 →
      exec .tickerFlush s = .next { u with
        intake := rest,
        ticker := { u.ticker with queue := [], omitted := u.ticker.omitted + BitVec.ofNat 24 prints },
        mgmt := replied (seqTag e.body) [0]
          (if prints = 0 then u.mgmt else alertSet .tapeOmit u.mgmt) }

/-- R172: the return transmitter takes the head of the reply queue when it is idle, and at the end of a frame; the
frame has the envelope of Table 11-1, and an ALERT is composed at its start. On the line the frame goes out byte by byte,
most significant bit first, and SYNC fill over and over while there is none. That a transmission start given while
a frame is being sent leaves the state as it is, is the model's choice (log entry 4). -/
def Obligations.ReturnLineSends : Prop :=
  ∀ s : State, s.phase = .running →
    let frameOf (entry : ReturnEntry) : List Byte :=
      let (type, tag, data) : Byte × BitVec 16 × List Byte := match entry with
        | .reply tag data => (0x61, tag, data)
        | .alert => (0x62, 0, wordBytes (s.mgmt.alertStatus.zeroExtend 16)
            ++ wordBytes (s.mgmt.alertMask.zeroExtend 16) ++ [causeNumber s.mgmt.cause])
      let covered := [byteOf (5 + data.length), 0, s.feed.station.zeroExtend 8, type]
        ++ wordBytes tag ++ data
      [0x5A, 0x5A] ++ covered ++ wordBytes (crcOf covered)
    let after : Management := match s.mgmt.replyQueue with
      | [] => { s.mgmt with sending := none }
      | entry :: rest => { s.mgmt with replyQueue := rest, sending := some (frameOf entry) }
    (s.mgmt.sending = none → exec .returnTransmissionStart s = .next { s with mgmt := after })
      ∧ (s.mgmt.sending ≠ none → exec .returnTransmissionStart s = .next s
        ∧ exec .returnFrameSent s = .next { s with mgmt := after })
      ∧ (∀ frame, s.mgmt.sending = some frame → returnBytes s = frame
        ∧ (∀ (i : Nat) (b : Byte) (j : Fin 8), frame[i]? = some b →
          returnLine s (8 * i + j.val) = b.getLsbD (7 - j.val)))
      ∧ (s.mgmt.sending = none → SendsFill s)

/-! ## Resets (chapter 10) -/

/-- R174: a RESET COLD frame, the rise of the supply and the release of the reset pin each take the part into
INIT with its cause; the end of INIT puts it in operation with every block cold (`ColdBlocks`, with the parameters of
Table 10-1), the pins sampled, RESET set and its ALERT frame queued. R174 gives the blocks' cold values at the end of
INIT: that they hold them from its start, as the first clause says, is the model's choice (log entry 26). -/
def Obligations.ColdResetIsTaken : Prop :=
  (∀ (s t : State) (e : IntakeEntry) (rest : List IntakeEntry) (cause : ResetCause),
      ((HeadIs s e rest .resetCold ∧ exec .resetCold s = .next t ∧ cause = .coldCommand)
        ∨ (s.phase ≠ .pinHeld ∧ exec .powerOn s = .next t ∧ cause = .powerOn)
        ∨ (s.phase = .pinHeld ∧ exec .resetPinRelease s = .next t ∧ cause = .pin)) →
      t.phase = .initRunning ∧ ColdBlocks t ∧ tickerPresents t = 0x20 ∧ t.pending = s.pending
        ∧ t.mgmt = { params := paramColdValues, alertStatus := 0, alertMask := 1, cause := cause,
                     replyQueue := [], sending := none })
    ∧ (∀ (s : State) (e : IntakeEntry) (rest : List IntakeEntry), HeadIs s e rest .resetCold →
      ∃ t, exec .resetCold s = .next t ∧ t.phase = .initRunning)
    ∧ (∀ s : State, s.phase ≠ .pinHeld → ∃ t, exec .powerOn s = .next t ∧ t.phase = .initRunning)
    ∧ (∀ s : State, s.phase = .pinHeld →
      ∃ t, exec .resetPinRelease s = .next t ∧ t.phase = .initRunning)
    ∧ ∀ (s : State) (straps : BitVec 6) (sense : Vector Bool 4), s.phase = .initRunning →
      ∃ t, exec (.initEnd straps sense) s = .next t ∧ t.phase = .running
        ∧ ColdBlocks t ∧ tickerPresents t = 0x20
        ∧ t.feed = { rx := huntReceiver, expected := none, gapOwed := false, feedState := .notYet,
                     silence := none, station := straps }
        ∧ (∀ c : ChainId, (t.chains[c]).senseLevel = sense[c])
        ∧ t.flashClock = { level := false, timer := some 250 }
        ∧ t.mgmt.alertStatus = 1 ∧ t.mgmt.alertMask = 1
        ∧ t.mgmt.replyQueue = [.alert] ∧ t.mgmt.cause = s.mgmt.cause ∧ t.mgmt.sending = none

/-- R175 with R5, R56, R69, R90, R111, R134, R154, R165: what a warm reset keeps and sets, with the refresh of each
enabled, present chain, the first selection of the terminal line, the REPLY and the ALERT frame behind it. Every flash
remaining is 0 and the dirty flags stand, but that the slots of a chain that refreshes are clean, and that a STATUS slot is
dirty where the reset changes the feed state or the level (R54, R56, R104; read from the rules, log entry 17). Of the
ticker's cursor, and of resync pending of a chain left OFFLINE, nothing is said (log entries 19 and 28). -/
def Obligations.WarmResetIsTaken : Prop :=
  ∀ (s : State) (e : IntakeEntry) (rest : List IntakeEntry) (straps : BitVec 6),
    let u := afterGap e s
    HeadIs s e rest .resetWarm →
      ∃ t, exec (.resetWarm straps) s = .next t ∧ t.phase = .running ∧ t.intake = []
        ∧ t.load = none
        ∧ t.feed = { rx := huntReceiver, expected := none, gapOwed := false, feedState := .notYet,
                     silence := none, station := straps }
        ∧ (∀ n r, tableGet u.records n = some r →
          tableGet t.records n = some { r with stale := true })
        ∧ (∀ n, tableGet u.records n = none → tableGet t.records n = none)
        ∧ t.directory = u.directory ∧ t.time = u.time ∧ t.flashClock = u.flashClock
        ∧ t.bulletins = u.bulletins
        ∧ (∀ n, (tableGet t.slots n).map description = (tableGet u.slots n).map description)
        ∧ (∀ n sl, tableGet t.slots n = some sl → sl.flash = none)
        ∧ (let shown : Prop := u.feed.feedState ≠ .notYet ∨ u.ticker.level ≠ 0
          ∀ n sl, tableGet u.slots n = some sl →
            let ch := u.chains[sl.chain]
            let refreshes : Prop := ch.entry.enabled = true ∧ ch.senseLevel = true
            ∃ sl', tableGet t.slots n = some sl' ∧ description sl' = description sl
              ∧ (refreshes → sl'.dirty = false)
              ∧ (¬ refreshes → shown → sl.kind = .status → sl'.dirty = true)
              ∧ (¬ refreshes → ¬ shown ∨ sl.kind ≠ .status → sl'.dirty = sl.dirty))
        ∧ (∀ c : ChainId,
          let warm : Chain := { u.chains[c] with
            faultCount := 0, firstMismatch := none, reload := false, resetPending := false,
            senseLatch := false }
          if (u.chains[c]).entry.enabled ∧ (u.chains[c]).senseLevel then
            RefreshStarted c (withIdle c warm t) t
          else t.chains[c] = { warm with
            state := .offline, shadowValid := false, cycle := none, keepaliveTimer := none,
            settleTimer := none, resync := (t.chains[c]).resync })
        ∧ t.ticker = { u.ticker with
            state := if u.time.session = .closed then .stopped else .running,
            queue := [], level := 0, lateMinutes := 0, text := [], cursor := t.ticker.cursor,
            separator := 0, stepTimer := if u.time.session = .closed then none else some (param u 7),
            admitted := 0, printed := 0, merged := 0, omitted := 0, out := t.ticker.out }
        ∧ (u.time.session = .closed → tickerPresents t = 0x20)
        ∧ t.line = (select { t with line := {
            terminals := u.line.terminals.map (fun term => { withoutSets term with
              state := if term.enabled then .absent else .disabled, probeDue := term.enabled,
              probeTimer := none, nextNumber := 0, outstanding := none, misses := 0,
              resetPending := false, rotation := 0 }),
            pollPointer := 31, transaction := none, gap := none } }).line
        ∧ (∀ x : TermId,
          (t.line.terminals[x]).state =
            (if (u.line.terminals[x]).enabled then .absent else .disabled)
            ∧ (t.line.terminals[x]).enabled = (u.line.terminals[x]).enabled
            ∧ (t.line.terminals[x]).lock = (u.line.terminals[x]).lock
            ∧ (t.line.terminals[x]).outstanding = none ∧ (t.line.terminals[x]).nextNumber = 0
            ∧ (t.line.terminals[x]).misses = 0 ∧ (t.line.terminals[x]).probeTimer = none
            ∧ (t.line.terminals[x]).resetPending = false ∧ (t.line.terminals[x]).rotation = 0
            ∧ (t.line.terminals[x]).statusPending = false ∧ (t.line.terminals[x]).statusInFlight = false
            ∧ (t.line.terminals[x]).result = none
            ∧ ∀ i : Fin 16, (t.line.terminals[x]).rows[i] =
              { record := ((u.line.terminals[x]).rows[i]).record, pending := 0, inFlight := 0 })
        ∧ t.line.gap = none
        ∧ t.mgmt = { u.mgmt with
            alertStatus := 1, cause := .warmCommand, sending := none,
            replyQueue := [.reply (seqTag e.body) [0]]
              ++ (if u.mgmt.alertMask.getLsbD 0 then [.alert] else []) }

/-- R41, R57, R89, R133, R135, R153, R174, R178: the reset pin makes the outputs inactive (the shift data and the flash
clock low, the blanking active, the ticker, the transmit data and the return line at marking), and while it is held
no command changes anything but its release and a rise of the supply (the model's choices, log entries 4 and 18). During
INIT the outputs stay as while the pin is held, and the return line carries SYNC fill; the receiver stays in HUNT, and
no command changes anything but the end of INIT, a rise of the supply, which begins INIT again, and the assertion of the
pin (the model's choice, log entries 4 and 26). Nothing counts in either. -/
def Obligations.ResetPinHoldsThePart : Prop :=
  (∀ s : State, s.phase ≠ .pinHeld → ∃ t, exec .resetPinAssert s = .next t ∧ t.phase = .pinHeld
      ∧ t.feed.rx = huntReceiver ∧ t.line.transaction = none ∧ t.mgmt.sending = none
      ∧ OutputsInactive t ∧ (∀ k, returnLine t k = true)
      ∧ (∀ c : ChainId, (t.chains[c]).latched = (s.chains[c]).latched)
      ∧ t.records = s.records ∧ t.directory = s.directory ∧ t.intake = s.intake ∧ t.load = s.load
      ∧ t.slots = s.slots ∧ t.time = s.time ∧ t.bulletins = s.bulletins)
    ∧ (∀ (c : Instr) (s : State), s.phase = .pinHeld → c ≠ .resetPinRelease → c ≠ .powerOn →
      exec c s = .next s)
    ∧ (∀ s : State, s.phase = .pinHeld → ∃ t, exec .powerOn s = .next t ∧ t.phase = .pinHeld
      ∧ ColdBlocks t ∧ t.mgmt.cause = .powerOn ∧ OutputsInactive t ∧ ∀ k, returnLine t k = true)
    ∧ (∀ (c : Instr) (s : State), s.phase = .initRunning → (∀ straps sense, c ≠ .initEnd straps sense) →
      c ≠ .powerOn → c ≠ .resetPinAssert → exec c s = .next s)
    ∧ (∀ s : State, s.phase = .pinHeld ∨ s.phase = .initRunning → OutputsInactive s
      ∧ (s.pending = [] → step s = .next s))
    ∧ (∀ s : State, s.phase = .pinHeld → returnBytes s = [] ∧ ∀ k, returnLine s k = true)
    ∧ ∀ s : State, s.phase = .initRunning → SendsFill s

/-! ## Boards (chapter 5) -/

/-- R75, R76, R80: the expiry of the keepalive timer of an IDLE chain starts a refresh: the list, the timings and the
image are captured, resync pending is cleared, the slots of the chain are clean, and no other chain is touched. R77,
R178: the image then goes out on the shift data line, stage by stage, most significant bit first. What an image holds
is said by BoardsAreRendered. -/
def Obligations.KeepaliveRefreshes : Prop :=
  ∀ (s : State) (c : ChainId) (k : Nat),
    let ch := s.chains[c]
    let list := inForce ch.modules
    let image := composeImage s c list
    let cycle : Cycle := { list := list, cellPeriod := ch.entry.cellPeriod, settle := ch.entry.settle,
                           image := image, verified := ch.shadowValid, returned := [] }
    s.phase = .running → ch.state = .idle → ch.keepaliveTimer = some k →
      ∃ t, exec (.keepaliveExpiry c) s = .next t
        ∧ RefreshAlone c s t ∧ (t.chains[c]).cycle = some cycle ∧ (t.chains[c]).keepaliveTimer = none
        ∧ (t.chains[c]).resync = false
        ∧ (image ≠ [] → (t.chains[c]).state = .shifting ∧ (t.chains[c]).shadow = ch.shadow
          ∧ (t.chains[c]).latched = ch.latched ∧ shiftClockRuns t c = true)
        ∧ (∀ (i : Nat) (stage : Byte) (j : Fin 8), image[i]? = some stage →
          shiftData t c (8 * i + j.val) = some (stage.getLsbD (7 - j.val)))
        ∧ (image = [] → (t.chains[c]).state = .settling ∧ (t.chains[c]).settleTimer = some ch.entry.settle)
        ∧ (∀ n sl, tableGet t.slots n = some sl → sl.chain = c → sl.dirty = false)
        ∧ (∀ n sl, tableGet s.slots n = some sl → sl.chain ≠ c → tableGet t.slots n = some sl)
        ∧ (∀ d, d ≠ c → t.chains[d] = s.chains[d])
        ∧ t = { s with chains := t.chains, slots := t.slots }

/-- R78: shift completion strobes the latch, takes the image as the shadow and starts settling; a verified cycle
counts a mismatch, with the lowest differing module and CHAIN FAULT, or clears the count; all else of the chain stands,
so that a resync, a reload or a reset that came during SHIFTING is there at settle completion (R84, R86). The returned bits
are taken eight to a stage, most significant first (R178). That the command carries them, and what stages that
did not come count as, is the model's choice (log entry 14). R79, R86: settle completion carries out a pending reload
and reset, then takes the chain OFFLINE where it is disabled or at the fault limit, and otherwise to IDLE, with a
refresh at once where a start condition holds (R75). -/
def Obligations.ShiftAndSettleComplete : Prop :=
  (∀ (s : State) (c : ChainId) (cy : Cycle) (stages : List Byte)
      (returned : List Bool),
      let ch := s.chains[c]
      let layout := stageLayout cy.list 0 0 0
      let differs (i m : Nat) : Prop := ∃ source, layout[i]? = some (m, source)
        ∧ (stages[i]? = none
          ∨ stages[i]? ≠ if source = .filler then some 0x20 else ch.shadow[i]?)
      returned.length = 8 * stages.length →
        (∀ i, (_ : i < stages.length) → ∀ j : Fin 8,
          returned[8 * i + j.val]? = some ((stages[i]).getLsbD (7 - j.val))) →
        s.phase = .running → ch.state = .shifting → ch.cycle = some cy →
        ∃ t, exec (.shiftCompletion c returned) s = .next t
          ∧ (let settling (count : Nat) (first : Option Nat) : Chain := { ch with
                latched := cy.image, shadow := cy.image, shadowValid := true, state := .settling,
                settleTimer := some cy.settle, cycle := some { cy with returned := stages },
                faultCount := count, firstMismatch := first }
            (cy.verified = false →
              t.chains[c] = settling ch.faultCount ch.firstMismatch ∧ t.mgmt = s.mgmt)
            ∧ (cy.verified = true → (∀ i m, ¬ differs i m) →
              t.chains[c] = settling 0 ch.firstMismatch ∧ t.mgmt = s.mgmt)
            ∧ (∀ m, cy.verified = true → (∃ i, differs i m) → (∀ i n, differs i n → m ≤ n) →
              t.chains[c] = settling (min 3 (ch.faultCount + 1)) (some m)
                ∧ t.mgmt = alertSet (.chainFault c) s.mgmt))
          ∧ (∀ d, d ≠ c → t.chains[d] = s.chains[d])
          ∧ t = { s with chains := t.chains, mgmt := t.mgmt })
    ∧ ∀ (s : State) (c : ChainId) (k : Nat),
      let ch := s.chains[c]
      let count := if ch.resetPending then 0 else ch.faultCount
      s.phase = .running → ch.state = .settling → ch.settleTimer = some k →
        ∃ t, exec (.settleCompletion c) s = .next t
          ∧ (let ended : Chain := { ch with
                reload := false, resetPending := false, faultCount := count,
                firstMismatch := if ch.resetPending then none else ch.firstMismatch,
                resync := ch.resync || ch.resetPending,
                shadowValid := ch.shadowValid && !ch.reload && !ch.resetPending, cycle := none,
                settleTimer := none }
            let idle : Chain := { ended with
                state := .idle, keepaliveTimer := some (ch.entry.keepalive * 1000) }
            (ch.entry.enabled = false ∨ 3 ≤ count →
                t.chains[c] = { ended with state := .offline, shadowValid := false, keepaliveTimer := none }
                  ∧ t.slots = s.slots
                  ∧ t.mgmt = (if ch.entry.enabled then alertSet (.chainFault c) s.mgmt else s.mgmt))
              ∧ (ch.entry.enabled = true → count < 3 → t.mgmt = s.mgmt
                ∧ if ch.resync = true ∨ ch.resetPending = true
                    ∨ ∃ e ∈ s.slots, e.2.chain = c ∧ e.2.dirty = true then
                  RefreshAlone c { s with chains := s.chains.set c idle } t
                else t.chains[c] = idle ∧ t.slots = s.slots))
          ∧ (∀ d, d ≠ c → t.chains[d] = s.chains[d])
          ∧ t = { s with chains := t.chains, slots := t.slots, mgmt := t.mgmt }

/-- R81 to R83: a change of the sense level sets the latch and CHAIN SENSE; to absent it takes the chain OFFLINE,
unlatched, with its count cleared; to present it brings an enabled OFFLINE chain below the
fault limit to an unverified refresh. That a change to the level already kept leaves the state as it is, is the
model's choice (log entry 4). -/
def Obligations.SenseChanges : Prop :=
  ∀ (s : State) (c : ChainId),
    let ch := s.chains[c]
    s.phase = .running →
      (ch.senseLevel = true → ∃ t, exec (.chainSenseChange c false) s = .next t
          ∧ t.chains[c] = { ch with
              senseLevel := false, senseLatch := true, state := .offline, shadowValid := false,
              cycle := none, faultCount := 0, reload := false, resetPending := false,
              keepaliveTimer := none, settleTimer := none }
          ∧ (∀ d, d ≠ c → t.chains[d] = s.chains[d])
          ∧ t = { s with chains := t.chains, mgmt := alertSet (.chainSense c) s.mgmt })
        ∧ (ch.senseLevel = false → ch.state = .offline → ∃ t,
          exec (.chainSenseChange c true) s = .next t
          ∧ (if ch.entry.enabled = true ∧ ch.faultCount < 3 then
              RefreshAlone c (withIdle c { ch with senseLevel := true, senseLatch := true } s) t
            else t.chains[c] = { ch with senseLevel := true, senseLatch := true } ∧ t.slots = s.slots)
          ∧ (∀ d, d ≠ c → t.chains[d] = s.chains[d])
          ∧ t = { s with chains := t.chains, slots := t.slots,
                         mgmt := alertSet (.chainSense c) s.mgmt })
        ∧ exec (.chainSenseChange c ch.senseLevel) s = .next s

/-- R87, R88, R99: a PWM period start takes the night brightness in CLOSED and the day brightness otherwise; a
half period of the flash clock inverts it, at the output too, and restarts its timer with PARAM 6; a LAMP module with
FLASH on lights UP and DOWN while the clock is high alone, and its other lamps steadily; a slot's flash running
out leaves its flash remaining 0, and its dirty mark stands or starts its chain's refresh. -/
def Obligations.BrightnessAndFlash : Prop :=
  ∀ s : State, s.phase = .running →
    (∀ c : ChainId, ∃ t, exec (.pwmPeriodStart c) s = .next t
        ∧ t.chains[c] = { s.chains[c] with
            pwmLevel := if s.time.session = .closed then (s.chains[c]).entry.night
              else (s.chains[c]).entry.day }
        ∧ (∀ k : Nat, k < 256 → (blankingActive t c k = false ↔
          (s.chains[c]).state ≠ .offline ∧ k < (t.chains[c]).pwmLevel.toNat))
        ∧ (∀ d, d ≠ c → t.chains[d] = s.chains[d]) ∧ t = { s with chains := t.chains })
      ∧ (∀ k, s.flashClock.timer = some k →
        ∃ t, exec .flashClockHalfPeriod s = .next t
          ∧ t = { s with flashClock := { level := !s.flashClock.level, timer := some (param s 6 * 50) } }
          ∧ flashOutput t = !flashOutput s)
      ∧ flashOutput s = s.flashClock.level
      ∧ (∀ (bits : Byte) (i : Nat), (lampsLit bits (flashOutput s)).getLsbD i =
        (bits.getLsbD i && (decide (i ∈ [2, 4, 5])
          || (decide (i ∈ [0, 1]) && (!bits.getLsbD 3 || s.flashClock.level)))))
      ∧ ∀ (n k : Nat) (sl : Slot), tableGet s.slots n = some sl → sl.flash = some k →
        ∃ t, exec (.flashExpiry n) s = .next t
          ∧ (∃ sl', tableGet t.slots n = some sl' ∧ description sl' = description sl
            ∧ sl'.flash = none ∧ ((s.chains[sl.chain]).state ≠ .idle → sl'.dirty = true)
            ∧ ((s.chains[sl.chain]).state = .idle →
              ((t.chains[sl.chain]).cycle).isSome = true ∧ sl'.dirty = false))
          ∧ BoardsOnlyRefresh s t ∧ t = { s with chains := t.chains, slots := t.slots }

/-! ## Ticker (chapter 7) -/

/-- R128, R129: a step within a text emits the next character, and a separator step a blank; the step timer restarts
with the interval of the level. R112, R178: the ticker output presents the emitted character, which goes out as one
asynchronous character, and the line then rests at marking (for the blank of the step that stops it: log entry
19). R114: a DRAINING ticker that finds nothing to compose
stops, with its text and its separator empty; its epoch number and its counters are kept, and a level that falls with it
marks the STATUS slots and the status lines. Of the cursor of an empty text nothing is said (log entry 19). -/
def Obligations.TickerStepEmits : Prop :=
  (∀ (s : State) (k : Nat),
      let tk := s.ticker
      let interval := if tk.level ≤ 2 then param s 7 else param s 8
      s.phase = .running → tk.state ≠ .stopped → tk.stepTimer = some k →
        (∀ x, tk.text[tk.cursor]? = some x →
            exec .step s = .next { s with ticker := { tk with
              out := some x, cursor := tk.cursor + 1,
              separator := if tk.cursor + 1 = tk.text.length then 2 else tk.separator,
              stepTimer := some interval } })
          ∧ (tk.text.length ≤ tk.cursor → 0 < tk.separator →
            exec .step s = .next { s with ticker := { tk with
              out := some 0x20, separator := tk.separator - 1, stepTimer := some interval } })
          ∧ (tk.text.length ≤ tk.cursor → tk.separator = 0 → tk.queue = [] → tk.state = .running →
            exec .step s = .next { s with ticker := { tk with
              out := some 0x20, stepTimer := some interval } })
          ∧ (tk.text.length ≤ tk.cursor → tk.separator = 0 → tk.queue = [] → tk.state = .draining →
            ∃ t, exec .step s = .next t
              ∧ t.ticker = { tk with
                state := .stopped, stepTimer := none, text := [], cursor := t.ticker.cursor, separator := 0,
                level := 0, lateMinutes := 0, out := some 0x20 }
              ∧ t = { s with ticker := t.ticker, line := t.line, chains := t.chains, slots := t.slots }
              ∧ (tk.level = 0 → t.chains = s.chains ∧ t.slots = s.slots ∧ t.line = s.line)
              ∧ (tk.level ≠ 0 → BoardsMarked statusMark { s with ticker := t.ticker } t
                ∧ t.line = lineWithStatus s.line)))
    ∧ ∀ (s : State) (x : Byte), s.phase = .running → s.ticker.out = some x →
      (s.ticker.state ≠ .stopped → tickerPresents s = x) ∧ (s.ticker.state = .stopped → tickerPresents s = 0x20)
        ∧ tickerLine s 0 = false ∧ (∀ j : Fin 8, tickerLine s (1 + j.val) = x.getLsbD j.val)
        ∧ ∀ k, 9 ≤ k → tickerLine s k = true

/-- R120, R123 to R127, R37: the composition at a step that finds the text and its separator done. An ANNOUNCE entry
gives its text. A PRINT entry updates the level by its lateness (R121, R122); at level 4 a class B print is then
discarded as omitted and composition goes on with the next entry; any other print absorbs its like at level 3
and 4 if it is REGULAR, loses a small volume from level 1 and its leading digits from level 2, becomes the text,
and sets the tape fields of the record that matches it. -/
def Obligations.TickerComposesAPrint : Prop :=
  ∀ (s : State) (k : Nat),
    let interval (level : Nat) : Timer := if level ≤ 2 then some (param s 7) else some (param s 8)
    s.phase = .running → s.ticker.state ≠ .stopped → s.ticker.stepTimer = some k →
      s.ticker.text.length ≤ s.ticker.cursor → s.ticker.separator = 0 →
      (∀ text queue, s.ticker.queue = .announce text :: queue →
          exec .step s = .next { s with ticker := { s.ticker with
            queue := queue, text := text, cursor := 1,
            separator := if text.length ≤ 1 then 2 else 0, out := some (text.headD 0x20),
            stepTimer := interval s.ticker.level } })
        ∧ ∀ p queue, s.ticker.queue = .print p :: queue →
          let raw := (s.time.clock + 86400
            - (p.time.hour * 3600 + p.time.minute * 60 + p.time.second)) % 86400
          let late := if s.time.clockSet = true ∧ raw ≤ 43200 then raw else 0
          let v := updateLevel late { s with ticker := { s.ticker with queue := queue } }
          let tk := v.ticker
          let omits : Prop := tk.level = 4 ∧ p.tapeClass = .b
          (omits → exec .step s = exec .step { v with
              ticker := { tk with omitted := tk.omitted + 1 },
              mgmt := alertSet .tapeOmit v.mgmt })
            ∧ (¬ omits → ∃ (match? : Option QuoteRecord) (t : State), exec .step s = .next t
              ∧ (∀ r, match? = some r ↔ tableGet s.records p.record = some r ∧ r.symbol = p.symbol)
              ∧ (let merges (e : TickerEntry) : Bool :=
                  decide (3 ≤ tk.level) && decide (p.condition = .regular) && takesUp p e
                let merged := tk.queue.filter merges
                let volume := if merged = [] then p.volume else
                  min 99999999 (p.volume + (merged.map (fun e => match e with
                    | .print q => q.volume
                    | .announce _ => 0)).sum)
                let d := (match?.map (fun r => r.denom)).getD .sixteenths
                let whole := min (roundWhole d p.price) 9999
                let shortened : Bool := match?.any (fun r => r.tapeWhole.any (fun w =>
                  decide (2 ≤ tk.level) && decide (r.tapeEpoch = tk.epoch)
                    && decide (w / 10 = whole / 10)))
                let part := if 1 ≤ tk.level ∧ volume < param s 14 * 100 then [] else volumePart volume
                let text := tapeSymbol p.symbol ++ [0x20]
                  ++ (if p.condition = .opening then textOpd else [])
                  ++ (if part = [] then [] else part ++ [0x20])
                  ++ tapePrice d p.price shortened
                  ++ (if p.condition = .outOfSequence then textSld else [])
                t.ticker = { tk with
                    queue := tk.queue.filter (fun e => !merges e),
                    merged := tk.merged + BitVec.ofNat 24 merged.length,
                    printed := tk.printed + 1, text := text, cursor := 1,
                    separator := if text.length ≤ 1 then 2 else 0, out := some (text.headD 0x20),
                    stepTimer := interval tk.level }
                  ∧ (∀ r, match? = some r → tableGet t.records p.record =
                    some { r with tapeWhole := some whole, tapeEpoch := tk.epoch })
                  ∧ (match? = none → t.records = s.records))
              ∧ KeepsOtherRecords p.record s t
              ∧ t = { v with records := t.records, ticker := t.ticker })

/-- R35, R36, R119, R126: the parts of the ribbon's texts. The tape symbol is the root without padding, with a point
and the class letter where there is one. The tape price is the whole part, or its last digit where it is shortened,
and the glyph of the fraction: a whole part of 0 with a fraction is the glyph alone, and one above 9999 is 9999 with
the glyph of (d - 1)/d. The volume part is in full from 10,000 shares on, and otherwise the round lots, of which
one goes unsaid. -/
def Obligations.TapeTextsAreMade : Prop :=
  let letters (t : String) : List Byte := t.toList.map (fun c => byteOf c.toNat)
  (∀ c : SymbolCode, GoodSymbol c → tapeSymbol c =
      [c.r0, c.r1, c.r2, c.r3].takeWhile (fun b => b ≠ 0x20)
        ++ (if c.cls = 0x20 then [] else letters "." ++ [c.cls]))
    ∧ (∀ (denom : Denom) (units : Nat) (shortened : Bool),
      let d := match denom with
        | .eighths => 8
        | .sixteenths => 16
      let q := (units + 256 / d / 2) / (256 / d)
      let whole := min (q / d) 9999
      let glyph : List Byte := if 9999 < q / d then [glyphCell d (d - 1)]
        else if q % d = 0 then [] else [glyphCell d (q % d)]
      tapeWholeOf denom units = whole
        ∧ (whole = 0 → q % d ≠ 0 → tapePrice denom units shortened = glyph)
        ∧ (whole ≠ 0 ∨ q % d = 0 → ∃ shown,
          IsDecimal (if shortened then whole % 10 else whole) shown
            ∧ tapePrice denom units shortened = shown ++ glyph))
    ∧ (∀ v : Nat,
      (10000 ≤ v → ∃ shown, IsDecimal v shown ∧ volumePart v = shown ++ letters "SHS")
        ∧ (v < 10000 → v / 100 = 1 → volumePart v = [])
        ∧ (v < 10000 → v / 100 ≠ 1 →
          ∃ shown, IsDecimal (v / 100) shown ∧ volumePart v = shown ++ letters "s"))
    ∧ (∀ n, IsDecimal n (digits n))
    ∧ textOpd = letters "OPD " ∧ textSld = letters " SLD" ∧ textHalted = letters " HALTED"
    ∧ textResumed = letters " RESUMED" ∧ textTapeLate = letters "TAPE LATE" ∧ textMin = letters " MIN"
    ∧ textTapeCurrent = letters "TAPE CURRENT" ∧ textFeedInterrupted = letters "FEED INTERRUPTED"

/-- R121, R122: the level update of a print's lateness: it rises at once to the level called for, and falls by
one below the threshold less the hysteresis; a change is announced at the head of the queue, sets TAPE LEVEL with its
ALERT frame (R173, by AlertsAreControlled), and reaches the STATUS slots (R104) and the status lines. Of the responder
nothing else changes but for the TAPE OMIT of what the announcement may drive out (R119, by TickerAdmitsOffers). -/
def Obligations.LevelFollowsLateness : Prop :=
  ∀ (s : State) (late : Nat),
    let u (i : Nat) : Nat := match i with
      | 1 => param s 9
      | 2 => param s 10
      | 3 => param s 11
      | _ => param s 12
    let old := s.ticker.level
    let t := updateLevel late s
    (∀ k, old < k → k ≤ 4 → u k ≤ late → (∀ j, k < j → j ≤ 4 → late < u j) → t.ticker.level = k)
      ∧ ((∀ j, old < j → j ≤ 4 → late < u j) → 0 < old → late + param s 13 < u old →
        t.ticker.level = old - 1)
      ∧ ((∀ j, old < j → j ≤ 4 → late < u j) → (old = 0 ∨ u old ≤ late + param s 13) → t = s)
      ∧ (t.ticker.level ≠ old → t.ticker.lateMinutes = late / 60
        ∧ t.ticker.epoch = (if old ≤ 1 ∧ 2 ≤ t.ticker.level then s.ticker.epoch + 1
          else s.ticker.epoch)
        ∧ (∃ text, t.ticker = { (offerText true text s).ticker with
            level := t.ticker.level, lateMinutes := t.ticker.lateMinutes, epoch := t.ticker.epoch }
          ∧ (old < t.ticker.level → text = if late / 60 = 0 then textTapeLate
            else textTapeLate ++ [0x20] ++ digits (late / 60) ++ textMin)
          ∧ (t.ticker.level < old → text = if t.ticker.level = 0 then textTapeCurrent else [])
          ∧ t.mgmt = (offerText true text { s with mgmt := alertSet .tapeLevel s.mgmt }).mgmt)
        ∧ alertIn .tapeLevel t.mgmt.alertStatus = true
        ∧ t.line = lineWithStatus s.line
        ∧ BoardsMarked statusMark { s with ticker := t.ticker } t)
      ∧ t.records = s.records ∧ t.directory = s.directory ∧ t.intake = s.intake
      ∧ t.bulletins = s.bulletins ∧ KeepsFeedAndTime s t ∧ BoardsOnlyRefresh s t
      ∧ t = { s with ticker := t.ticker, mgmt := t.mgmt, line := t.line, chains := t.chains,
                     slots := t.slots }

/-! ## Terminal line (chapters 8 and 9) -/

/-- R135, R136, R137: the primary frame goes out as asynchronous characters, and the line rests at marking when
nothing is sent; its end starts the response timeout; a character before the SOH, or while no response is
awaited, is passed over; a character that ends nothing joins the response and restarts the timeout, with the value
that it was started with (the model's choice, log entry 16); and a character does what TERMINAL_RESPONSE does with it,
where it ends the frame of a response (elsewhere it is a character to both rows: the model's choice, log entry 15). -/
def Obligations.CharactersAreTaken : Prop :=
  ∀ s : State, s.phase = .running →
    (∀ tx, s.line.transaction = some tx → tx.sending = true →
        lineDirectionActive s = true
          ∧ (∀ (i : Nat) (x : Byte), tx.frame[i]? = some x →
            transmitData s (10 * i) = false ∧ transmitData s (10 * i + 9) = true
              ∧ ∀ j : Fin 8, transmitData s (10 * i + 1 + j.val) = x.getLsbD j.val)
          ∧ exec .primaryFrameSent s = .next { s with line := { s.line with
            transaction := some { tx with
              sending := false, responseTicks := param s 16, timeout := some (param s 16) } } })
      ∧ ((s.line.transaction = none ∨ ∃ tx, s.line.transaction = some tx ∧ tx.sending = false) →
        lineDirectionActive s = false ∧ ∀ k, transmitData s k = true)
      ∧ (∀ b : Byte, (s.line.transaction = none
          ∨ ∃ tx, s.line.transaction = some tx ∧ (tx.sending = true ∨ (tx.received = [] ∧ b ≠ 0x01))) →
        exec (.terminalCharacterReceived b) s = .next s)
      ∧ (∀ b : Byte, exec (.terminalCharacterReceived b) s = exec (.terminalResponse b) s)
      ∧ ∀ (b : Byte) (tx : Transaction), s.line.transaction = some tx → tx.sending = false →
        (tx.received ≠ [] ∨ b = 0x01) →
        (tx.received.length = 3 → b.toNat ≤ 120) →
        (4 ≤ tx.received.length + 1 →
          tx.received.length + 1 ≠ at8 (tx.received ++ [b]) 3 + 6) →
        exec (.terminalCharacterReceived b) s = .next { s with line := { s.line with
          transaction := some { tx with
            received := tx.received ++ [b], timeout := some tx.responseTicks } } }

/-- R137, R146, R161: the ACK that carries the outstanding number, in every session: the in-flight items and the
outstanding number are cleared, the next number advances and the miss count is 0; the request part is handed to
the watch manager (R149); then the line is settled, with what waited for the end of the transaction, and the
night poll gap in CLOSED or the next selection (R139, R140). -/
def Obligations.UpdateIsAcknowledged : Prop :=
  ∀ (s : State) (low : Byte) (tx : Transaction) (number : BitVec 3) (request : Option Request),
    let x := tx.terminal
    let term := s.line.terminals[x]
    let settled := acceptedUpdate term
    EndsWith s tx low (.ack number request) → tx.kind = .update →
      term.outstanding = some number →
      exec (.terminalResponse low) s
          = .next (lineSettled x (applyRequest x request (withTerm x settled s)))
        ∧ settled.outstanding = none ∧ settled.nextNumber = term.nextNumber + 1 ∧ settled.misses = 0
        ∧ settled.state = term.state ∧ NothingInFlight settled
        ∧ (∀ i : Fin 16, (settled.rows[i]).record = (term.rows[i]).record
          ∧ (settled.rows[i]).pending = (term.rows[i]).pending)
        ∧ settled.statusPending = term.statusPending ∧ settled.result = term.result

/-- R142 to R147, R149: what the other responses do. CONFIRM of terminal type 1 makes the terminal ACTIVATING; the
ACK of the base number to a SCREEN INIT makes it ACTIVE with the full screen of R159; IDLE to a POLL clears the
miss count; BUSY leaves a SCREEN INIT or a POLL to be sent again and returns the items of an UPDATE to pending;
an ACK of another number leads to RECOVERY; and the NUMBER of an ENQUIRY tells whether the UPDATE was taken. The
request part is handed to the watch manager, and the line is settled. -/
def Obligations.ResponsesAreTaken : Prop :=
  ∀ (s : State) (low : Byte) (tx : Transaction) (response : Response),
    let x := tx.terminal
    let term := s.line.terminals[x]
    let becomes (t : State) : Prop := exec (.terminalResponse low) s = .next (lineSettled x t)
    EndsWith s tx low response →
      (tx.kind = .activate → response = .confirm 1 →
          becomes (withTerm x { term with
            state := .activating, nextNumber := 0, outstanding := none, misses := 0,
            probeDue := false, probeTimer := none } s))
        ∧ (∀ request, tx.kind = .screenInit → response = .ack (term.nextNumber - 1) request →
          becomes (applyRequest x request (withTerm x { term with
            state := .active, misses := 0, statusInFlight := false, statusPending := true,
            rotation := 0,
            rows := term.rows.map (fun r => { r with
              pending := if r.record = none then 0 else allNames, inFlight := 0 }) } s)))
        ∧ (∀ request, tx.kind = .poll → response = .idle request →
          becomes (applyRequest x request (withTerm x { term with misses := 0 } s)))
        ∧ (tx.kind = .screenInit ∨ tx.kind = .poll → response = .busy → becomes s)
        ∧ (tx.kind = .update → response = .busy → becomes (withTerm x (refusedUpdate term) s))
        ∧ (∀ n request, tx.kind = .update → response = .ack n request → term.outstanding ≠ some n →
          becomes (withTerm x { term with state := .recovery } s))
        ∧ (∀ n, tx.kind = .enquiry → response = .number n → term.outstanding = some n →
          becomes (withTerm x { acceptedUpdate term with
            state := .active, statusPending := true } s))
        ∧ (∀ n, tx.kind = .enquiry → response = .number n → term.outstanding ≠ some n →
          becomes (withTerm x { refusedUpdate term with
            nextNumber := term.nextNumber + 1, misses := 0, state := .active,
            statusPending := true } s))

/-- R162, R163: what an ADD and a DROP request do, by the first case that holds, with the row the result
carries. -/
def Obligations.RequestsAreApplied : Prop :=
  ∀ (s : State) (x : TermId),
    let term := s.line.terminals[x]
    let answers (t : State) (code : ResultCode) (row : Byte) : Prop :=
      t = { s with line := { s.line with
        terminals := s.line.terminals.set x { term with result := some { code, row } } } }
    let takes (t : State) (i : Fin 16) (row : Row) (carried : Byte) : Prop :=
      t.line = { s.line with
          terminals := s.line.terminals.set x { term with
            rows := term.rows.set i row, result := some { code := .accepted, row := carried } } }
        ∧ t = { s with records := t.records, line := t.line }
    (∀ (row : Nat) (c : SymbolCode), row ≤ 16 →
        let t := applyRequest x (some (.add row c)) s
        (term.lock = true → answers t .locked (byteOf row))
          ∧ (term.lock = false → lookup s.directory c = none → answers t .unknown (byteOf row))
          ∧ ∀ n, term.lock = false → lookup s.directory c = some n →
            (∀ i : Fin 16, (term.rows[i]).record = some n →
                (∀ j, j < i → (term.rows[j]).record ≠ some n) →
                answers t .duplicate (byteOf (i.val + 1)))
              ∧ ((∀ i : Fin 16, (term.rows[i]).record ≠ some n) →
                ((∀ i : Fin 16, row = 0 ∨ row = i.val + 1 → (term.rows[i]).record ≠ none) →
                    answers t .full (byteOf row))
                  ∧ ∀ i : Fin 16, (term.rows[i]).record = none →
                    (row = i.val + 1 ∨ (row = 0 ∧ ∀ j, j < i → (term.rows[j]).record ≠ none)) →
                    takes t i { record := some n, pending := allNames, inFlight := 0 }
                        (byteOf (i.val + 1))
                      ∧ KeepsOtherRecords n s t
                      ∧ tableGet t.records n =
                        (tableGet s.records n).map (fun r => { r with watch := r.watch + 1 })))
      ∧ ∀ row : Byte,
        let t := applyRequest x (some (.drop row)) s
        (term.lock = true → answers t .locked row)
          ∧ (term.lock = false → (row = 0 ∨ 16 < row.toNat) → answers t .badRow row)
          ∧ ∀ i : Fin 16, term.lock = false → row.toNat = i.val + 1 →
            ((term.rows[i]).record = none → answers t .emptyRow row)
              ∧ ∀ n, (term.rows[i]).record = some n →
                takes t i { record := none, pending := nameClear, inFlight := 0 } row
                  ∧ KeepsOtherRecords n s t
                  ∧ tableGet t.records n =
                    (tableGet s.records n).map (fun r => { r with watch := r.watch - 1 })

/-- R136, R137, R142 to R148: a response timeout, a bad frame and a response that does not fit what was sent. A bad
frame is one that is no valid response (`IsResponse`: its ADDR, LEN and CRC, its TYPE and body by Table 11-9); a LEN
above 120 makes it bad at that byte. Of an ACTIVATE it starts the probe timer again. Of any other frame it is
a miss: the count rises, an UPDATE or ENQUIRY leads to RECOVERY, and at 3 the terminal is lost, with TERMINAL LOST. -/
def Obligations.FailuresAreMisses : Prop :=
  ∀ (s : State) (tx : Transaction),
    let x := tx.terminal
    let term := s.line.terminals[x]
    let after : State := match tx.kind with
      | .activate => withTerm x { term with probeTimer := some (param s 17 * 1000) } s
      | .screenInit => missed x .activating s
      | .poll => missed x .active s
      | .update => missed x .recovery s
      | .enquiry => missed x .recovery s
    let fails (c : Instr) : Prop := exec c s = .next (lineSettled x after)
    let unfit (r : Response) : Prop := match tx.kind, r with
      | .activate, .confirm n => n ≠ 1
      | .screenInit, .ack n _ => n ≠ term.nextNumber - 1
      | .screenInit, .busy => False
      | .poll, .idle _ => False
      | .poll, .busy => False
      | .update, .ack _ _ => False
      | .update, .busy => False
      | .enquiry, .number _ => False
      | _, _ => True
    s.phase = .running → s.line.transaction = some tx →
      (∀ k, tx.timeout = some k → fails .responseTimeout)
        ∧ (∀ low, EndsBadly s tx low → fails (.terminalResponse low))
        ∧ (∀ low r, EndsWith s tx low r → unfit r → fails (.terminalResponse low))
        ∧ ∀ b : Byte, tx.sending = false → tx.received.length = 3 → 120 < b.toNat →
          fails (.terminalCharacterReceived b)

/-- R139, R140, R141: a probe timer running out makes its terminal due, the night poll gap running out frees the line,
and a free line then serves the terminal that R139 selects: the one that holds an outstanding number, or else the
first that may be served from the poll pointer + 1 on. The frame is the one its state calls for (Table 8-1); an
ACTIVE terminal with something pending is the matter of UpdateIsComposed. -/
def Obligations.LineSelects : Prop :=
  ∀ s : State,
    (s.phase = .running → (∀ (x : TermId) (k : Nat), (s.line.terminals[x]).probeTimer = some k →
          exec (.probeTimerExpiry x) s = .next (select (withTerm x
            { s.line.terminals[x] with probeTimer := none, probeDue := true } s)))
        ∧ ∀ k, s.line.gap = some k →
          exec .nightPollGapExpiry s
            = .next (select { s with line := { s.line with gap := none } }))
      ∧ (s.line.transaction ≠ none ∨ s.line.gap ≠ none → select s = s)
      ∧ ((∀ y : TermId, ¬ Selected y s) → select s = s)
      ∧ ∀ y : TermId, s.line.transaction = none → s.line.gap = none → Selected y s →
        let term := s.line.terminals[y]
        (term.state = .absent →
            select s = begun y .activate 0x10 [] (withTerm y { term with probeDue := false } s))
          ∧ (term.state = .activating →
            select s = begun y .screenInit 0x11 [(term.nextNumber - 1).zeroExtend 8] s)
          ∧ (term.state = .active → ¬ SomethingPending term → select s = begun y .poll 0x12 [] s)
          ∧ (term.state = .recovery → select s = begun y .enquiry 0x14 [] s)

/-- R145, R160: the UPDATE to the selected terminal: the next frame number, the status line where it is pending, the
request result where there is one, then rows with something pending, from the rotation on, until four are taken,
none is left, or the next would pass 120 bytes. What is taken moves to in flight, the number is outstanding, and
the next composition begins behind the last row taken. -/
def Obligations.UpdateIsComposed : Prop :=
  ∀ (s : State) (y : TermId),
    let term := s.line.terminals[y]
    let waiting := ((List.finRange 16).map (fun i => term.rotation + i)).filter
      (fun i => (term.rows[i]).pending ≠ 0)
    let item (i : Fin 16) : List Byte := itemOf s i (term.rows[i])
    s.line.transaction = none → s.line.gap = none → Selected y s → term.state = .active →
      SomethingPending term →
      ∃ m body, m ≤ 4 ∧ m ≤ waiting.length
        ∧ body = itemsBeforeRows s term ++ (waiting.take m).flatMap item ∧ body.length ≤ 120
        ∧ (m = 4 ∨ m = waiting.length
          ∨ ∃ i, waiting[m]? = some i ∧ 120 < body.length + (item i).length)
        ∧ select s = begun y .update 0x13 body (withTerm y { term with
            rows := Vector.ofFn (fun i =>
              if i ∈ waiting.take m then
                { term.rows[i] with pending := 0, inFlight := (term.rows[i]).pending }
              else term.rows[i]),
            statusPending := false, statusInFlight := term.statusPending, result := none,
            outstanding := some term.nextNumber,
            rotation := match (waiting.take m).getLast? with
              | some i => i + 1
              | none => term.rotation } s)

/-! ## What a board shows (chapters 2, 5 and 6) -/

/-- R26 to R32, R71 (the list in force), R72, R73, R100 to R103, R105: the text of every field of a record; the cells of
every kind of slot; the lamp bits of a QUOTE slot (Table 6-2), FLASH on until its flash timer has expired (R99); and
the image of a list: the stages of a module stand after those of every module behind it, a CHAR8 module from its
position 7 down, a cell showing what the slot that claims it renders there, and a blank or dark where none does. -/
def Obligations.BoardsAreRendered : Prop :=
  (∀ (r : QuoteRecord) (f : BoardField), FieldShown r f (fieldCells r f))
    ∧ (∀ modules : Vector ModuleKind 64,
      inForce modules = modules.toList.takeWhile (fun m => m ≠ .endOfList))
    ∧ (∀ s : State,
      (∀ n fields gap lamp flash,
          (∀ r, tableGet s.records n = some r →
              slotCells s (.quote n fields gap lamp flash)
                = List.intercalate (List.replicate gap 0x20) (fields.map (fieldCells r)))
            ∧ (tableGet s.records n = none → slotCells s (.quote n fields gap lamp flash)
              = List.replicate (spanWidth (.quote n fields gap lamp flash)) 0x20))
        ∧ (∀ width k, LeftShown width (((s.bulletins[k]).head?.map (fun top => top.text)).getD [])
          (slotCells s (.message width k)))
        ∧ (∃ text, StatusShown s text ∧ LeftShown 16 text (slotCells s .status))
        ∧ (s.time.clockSet = false → slotCells s .clock = [0x2D, 0x2D, 0x3A, 0x2D, 0x2D])
        ∧ (s.time.clockSet = true → s.time.clock < 86400 →
          let hour := s.time.clock / 3600
          let minute := s.time.clock % 3600 / 60
          slotCells s .clock = [byteOf (0x30 + hour / 10), byteOf (0x30 + hour % 10), 0x3A,
            byteOf (0x30 + minute / 10), byteOf (0x30 + minute % 10)])
        ∧ ∀ sl n fields gap lamp flash, sl.kind = .quote n fields gap lamp flash →
          (tableGet s.records n = none → slotLamp s sl = 0)
            ∧ ∀ r, tableGet s.records n = some r → ∀ i : Fin 8, (slotLamp s sl).getLsbD i.val =
              ([decide (r.tick = .up ∨ r.tick = .zeroPlus),
                decide (r.tick = .down ∨ r.tick = .zeroMinus), decide (r.state = .halted),
                sl.flash.isSome, r.stale, false, false, false][i]))
    ∧ ∀ (s : State) (c : ChainId) (before after : List ModuleKind) (m : ModuleKind),
      let image := composeImage s c (before ++ m :: after)
      let behind := (after.map stageCount).sum
      let cellNow (cell : Nat) (x : Byte) : Prop :=
        (∀ e ∈ s.slots, claimsCell c cell e.2 = true → (∀ e' ∈ s.slots,
            claimsCell c cell e'.2 = true → e' = e) →
            x = (slotCells s e.2.kind).getD (cell - e.2.start) 0x20)
          ∧ ((∀ e ∈ s.slots, claimsCell c cell e.2 = false) → x = 0x20)
      let lampNow (cell : Nat) (x : Byte) : Prop :=
        (∀ e ∈ s.slots, claimsLamp c cell e.2 = true → (∀ e' ∈ s.slots,
            claimsLamp c cell e'.2 = true → e' = e) → x = slotLamp s e.2)
          ∧ ((∀ e ∈ s.slots, claimsLamp c cell e.2 = false) → x = 0)
      image.length = ((before ++ m :: after).map stageCount).sum
        ∧ (m = .char8 → ∀ j : Fin 8, ∃ x, image[behind + j.val]? = some x
          ∧ cellNow (8 * before.count .char8 + 7 - j.val) x)
        ∧ (m = .lamp → ∃ x, image[behind]? = some x ∧ lampNow (before.count .lamp) x)
        ∧ (m = .bypass → image[behind]? = some 0x20)

/-! ## Arithmetic (chapter 2) -/

/-- R23, R24, R25: the conversion of a price field; rounding is to the nearest multiple of 1/d, half away from
zero; and the glyph of a numerator that is not 0 is its value in sixteenths. -/
def Obligations.PricesConvertAndRound : Prop :=
  (∀ whole code numerator : Nat,
      (whole ≤ 9999 → 1 ≤ code → code ≤ 8 → numerator < 2 ^ code →
          ∃ units, priceField whole code numerator = .units units
            ∧ units * 2 ^ code = (whole * 2 ^ code + numerator) * 256 ∧ units ≤ 2559999)
        ∧ (whole = 0xFFFF → priceField whole code numerator = .absent)
        ∧ (whole ≠ 0xFFFF → (9999 < whole ∨ code = 0 ∨ 8 < code ∨ 2 ^ code ≤ numerator) →
          priceField whole code numerator = .failed))
    ∧ ∀ (d : Denom) (m : Nat),
      let s := 256 / denomValue d
      let q := roundUnits d m
      2 * m < (2 * q + 1) * s ∧ 2 * q * s ≤ 2 * m + s
        ∧ roundWhole d m * denomValue d + roundNumerator d m = q
        ∧ roundNumerator d m < denomValue d
        ∧ (roundNumerator d m ≠ 0 →
          (glyphOf d (roundNumerator d m)).toNat * denomValue d = roundNumerator d m * 16)

/-! ## Laws that every step keeps -/

/-- R3: the directory stays sorted and exact. -/
def Obligations.DirectoryStaysExact : Prop :=
  ∀ s t : State, DirectoryExact s → step s = .next t → DirectoryExact t

/-- R19, R20, R21 and Table 1-2: the net change, the relation of low, last and high, the stale marks while the
feed state is LOST, and the ranges of every DEFINED record's fields are kept. -/
def Obligations.RecordsStaySound : Prop :=
  ∀ s t : State, step s = .next t →
    (NetChangeExact s → NetChangeExact t) ∧ (RangeHoldsLast s → RangeHoldsLast t)
      ∧ (LostIsStale s → LostIsStale t) ∧ (RecordsInRange s → RecordsInRange t)

/-- R93, R74, R79, R80, R82 and the numbering of Table 11-5: no cell is claimed by two slots; the cycle, the
timers, the shadow and the sense level fit each chain's state; the tables stay in order and in range, as long as
a LOAD under way has passed its checks, which BoundsAreKept keeps. -/
def Obligations.BoardsStaySound : Prop :=
  ∀ s t : State, step s = .next t →
    (ClaimsDisjoint s → ClaimsDisjoint t) ∧ (ChainsFit s → ChainsFit t)
      ∧ (LoadPlaced s → TablesCanonical s → TablesCanonical t)

/-- R47, R106, R115, R172, R59 and R168: the queues and stacks stay within their capacity, the clock within its
range, and the parameters legal; R50, R167: a LOAD under way stays at the head of the intake
queue, its checks passed. -/
def Obligations.BoundsAreKept : Prop :=
  ∀ s t : State, step s = .next t →
    (IntakeBounded s → IntakeBounded t) ∧ (LoadPlaced s → LoadPlaced t) ∧ (StacksBounded s → StacksBounded t)
      ∧ (TickerBounded s → TickerBounded t) ∧ (RepliesBounded s → RepliesBounded t)
      ∧ (TimeInRange s → TimeInRange t) ∧ (ParamsLegal s → ParamsLegal t)

/-- R132 and R112: the ticker's counters balance after every step, and a STOPPED ticker is at rest. -/
def Obligations.TickerCountsBalance : Prop :=
  ∀ s t : State, step s = .next t →
    (CountersBalance s → CountersBalance t) ∧ (TickerStoppedRests s → TickerStoppedRests t)

/-- R155, R156: every row's sets keep the form that fits it, no terminal names a record twice, and the watch
counts stay exact while the directory is exact (R3). -/
def Obligations.WatchCountsStayExact : Prop :=
  ∀ s t : State, step s = .next t →
    (RowsFormed s → RowsFormed t) ∧ (DirectoryExact s → WatchExact s → WatchExact t)

/-- R138: at most one UPDATE is outstanding, and nothing is in flight elsewhere; with how the outstanding number
goes with the terminal states and the transaction in flight. -/
def Obligations.LineLawIsKept : Prop :=
  ∀ s t : State, LineLaw s → step s = .next t → LineLaw t

/-- R5, R55, R68, R88, R89, R111, R133, R153, R165, R174: the state after reset meets every law, and holds the cold
values the manual gives (`ColdBlocks`), the twenty parameters of Table 10-1 (`paramColdValues`) among them. -/
def Obligations.ResetIsSafe : Prop :=
  let s := State.reset
  Safe s ∧ s.phase = .running ∧ ColdBlocks s ∧ s.flashClock = { level := false, timer := some 250 }
    ∧ s.mgmt.alertStatus = 1 ∧ s.mgmt.alertMask = 1 ∧ s.mgmt.replyQueue = [.alert] ∧ s.mgmt.sending = none

/-! ## Rules of the whole machine -/

/-- R62, R173: the session changes only through SESSION frames and cold reset, and an alert leaves the status
only by CLEAR ALERTS and by a reset. R21: a stale mark is cleared only by a RECAP or a SESSION frame (the day
reset), and by whatever empties or redefines the record: a SYMBOL load or a cold reset. So a tick, which is a step
with no command waiting, does none of these. -/
def Obligations.SessionAlertsAndStaleMarksStand : Prop :=
  ∀ s t : State, step s = .next t →
    let taken (ok : Instr → Prop) : Prop := ∃ c, s.pending.head? = some c ∧ ok c
    let begins (c : Instr) : Prop := c = .resetCold ∨ c = .powerOn ∨ c = .resetPinRelease
      ∨ ∃ straps sense, c = .initEnd straps sense
    (t.time.session ≠ s.time.session →
        taken (fun c => c = .session ∨ (t.time.session = .closed ∧ begins c)))
      ∧ (∀ a : Alert, alertIn a s.mgmt.alertStatus = true → alertIn a t.mgmt.alertStatus = false →
        taken (fun c => c = .clearAlerts ∨ begins c ∨ ∃ straps, c = .resetWarm straps))
      ∧ ∀ (n : Nat) (r r' : QuoteRecord), tableGet s.records n = some r → tableGet t.records n = some r' →
        r.stale = true → r'.stale = false →
        taken (fun c => c = .recap ∨ c = .session ∨ c = .loadSymbol)

/-- Chapter 5, with R83, R85, R86 and R90: a chain leaves OFFLINE only at a change of its sense level, a load of its
entry, a CHAIN RESET or a warm reset, and never at a tick. -/
def Obligations.OfflineIsLeftByFourSteps : Prop :=
  ∀ (s t : State) (c : ChainId), step s = .next t →
    (s.chains[c]).state = .offline → (t.chains[c]).state ≠ .offline →
    ∃ i, s.pending.head? = some i
      ∧ (i = .chainSenseChange c true ∨ i = .loadChain ∨ i = .chainReset
        ∨ ∃ straps, i = .resetWarm straps)
end

