-- ==== Sys2Proof/Laws/Tables.lean ====
section
/-!
SUPPORT. The laws of the numbered tables: what is read after a write, and that every operation keeps the
canonical form of `tableWf`.
-/

namespace Sys2Proof.Machine

variable {α : Type}

/-! ## Reading -/

/-- The entry written is read back. -/
@[simp] theorem tableGet_tableSet_self (t : Table α) (n : Nat) (x : α) :
    tableGet (tableSet t n x) n = some x := by
  induction t with
  | nil => simp [tableSet, tableGet]
  | cons e rest ih =>
    obtain ⟨k, v⟩ := e
    simp only [tableSet]
    split
    · simp [tableGet]
    · split
      · simp [tableGet]
      · rename_i h
        simp [tableGet, Ne.symm h, ih]

/-- A write leaves every other number as it reads. -/
theorem tableGet_tableSet_of_ne (t : Table α) {n m : Nat} (x : α) (h : m ≠ n) :
    tableGet (tableSet t n x) m = tableGet t m := by
  induction t with
  | nil => simp [tableSet, tableGet, Ne.symm h]
  | cons e rest ih =>
    obtain ⟨k, v⟩ := e
    simp only [tableSet]
    split
    · simp [tableGet, Ne.symm h]
    · split
      · rename_i hk
        subst hk
        simp [tableGet, Ne.symm h]
      · simp [tableGet, ih]

/-- What is read after a write. -/
theorem tableGet_tableSet (t : Table α) (n m : Nat) (x : α) :
    tableGet (tableSet t n x) m = if m = n then some x else tableGet t m := by
  split
  · subst_vars
    simp
  · exact tableGet_tableSet_of_ne t x ‹_›

/-- What is read after an entry is made EMPTY. -/
theorem tableGet_tableErase (t : Table α) (n m : Nat) :
    tableGet (tableErase t n) m = if m = n then none else tableGet t m := by
  induction t with
  | nil => simp [tableErase, tableGet]
  | cons e rest ih =>
    obtain ⟨k, v⟩ := e
    simp only [tableErase, List.filter_cons] at *
    by_cases hk : k = n
    · subst hk
      by_cases hm : m = k
      · subst hm
        simpa using ih
      · simpa [tableGet, hm, Ne.symm hm] using ih
    · by_cases hm : m = n
      · subst hm
        simpa [tableGet, hk] using ih
      · simp only [ne_eq, hk, not_false_eq_true, decide_true, if_true, tableGet, hm, if_false] at *
        rw [ih]

/-- What is read after every entry is changed. -/
theorem tableGet_map {β : Type} (f : α → β) (t : Table α) (n : Nat) :
    tableGet (t.map (fun e => (e.1, f e.2))) n = (tableGet t n).map f := by
  induction t with
  | nil => rfl
  | cons e rest ih =>
    obtain ⟨k, v⟩ := e
    simp only [List.map_cons, tableGet]
    split
    · rfl
    · exact ih

/-- What is read stands in the table. -/
theorem mem_of_tableGet {t : Table α} {n : Nat} {x : α} (h : tableGet t n = some x) : (n, x) ∈ t := by
  induction t with
  | nil => simp [tableGet] at h
  | cons e rest ih =>
    obtain ⟨k, v⟩ := e
    simp only [tableGet] at h
    split at h
    · simp_all
    · exact List.mem_cons_of_mem _ (ih h)

/-- A number is listed exactly when it reads as something. -/
theorem tableGet_isSome (t : Table α) (n : Nat) :
    (tableGet t n).isSome = true ↔ n ∈ t.map Prod.fst := by
  induction t with
  | nil => simp [tableGet]
  | cons e rest ih =>
    obtain ⟨k, v⟩ := e
    simp only [tableGet, List.map_cons, List.mem_cons]
    split
    · simp_all
    · rw [ih]
      constructor
      · exact Or.inr
      · rintro (h | h)
        · exact absurd h.symm ‹_›
        · exact h

/-- In canonical form, what stands in the table is what is read. -/
theorem tableGet_of_mem {t : Table α} (hs : (t.map Prod.fst).Nodup) {n : Nat} {x : α}
    (h : (n, x) ∈ t) : tableGet t n = some x := by
  induction t with
  | nil => simp at h
  | cons e rest ih =>
    obtain ⟨k, v⟩ := e
    simp only [List.map_cons, List.nodup_cons] at hs
    simp only [tableGet]
    rcases List.mem_cons.mp h with h | h
    · cases h
      simp
    · have : k ≠ n := fun hk => hs.1 (hk ▸ List.mem_map_of_mem (f := Prod.fst) h)
      simp [this, ih hs.2 h]

/-! ## The canonical form -/

/-- The numbers of a table after a write: those before it, and the one written. -/
theorem mem_keys_tableSet (t : Table α) (n : Nat) (x : α) (k : Nat) :
    k ∈ (tableSet t n x).map Prod.fst ↔ k = n ∨ k ∈ t.map Prod.fst := by
  rw [← tableGet_isSome, ← tableGet_isSome, tableGet_tableSet]
  by_cases h : k = n <;> simp [h]

/-- A write keeps the numbers rising. -/
theorem pairwise_tableSet (t : Table α) (n : Nat) (x : α)
    (h : (t.map Prod.fst).Pairwise (· < ·)) :
    ((tableSet t n x).map Prod.fst).Pairwise (· < ·) := by
  induction t with
  | nil => simp [tableSet]
  | cons e rest ih =>
    obtain ⟨k, v⟩ := e
    simp only [List.map_cons, List.pairwise_cons] at h
    simp only [tableSet]
    split
    · rename_i hn
      simp only [List.map_cons, List.pairwise_cons, List.mem_cons]
      refine ⟨?_, h.1, h.2⟩
      rintro a (ha | ha)
      · omega
      · exact lt_trans hn (h.1 a ha)
    · split
      · rename_i hk
        subst hk
        simpa using h
      · simp only [List.map_cons, List.pairwise_cons]
        refine ⟨fun a ha => ?_, ih h.2⟩
        rcases (mem_keys_tableSet rest n x a).mp ha with ha | ha
        · omega
        · exact h.1 a ha

/-- A write below the table's size keeps the canonical form. -/
theorem tableWf_tableSet {size : Nat} {t : Table α} {n : Nat} (x : α) (h : tableWf size t)
    (hn : n < size) : tableWf size (tableSet t n x) := by
  refine ⟨pairwise_tableSet t n x h.1, fun k hk => ?_⟩
  rcases (mem_keys_tableSet t n x k).mp hk with hk | hk
  · omega
  · exact h.2 k hk

/-- Making an entry EMPTY keeps the canonical form. -/
theorem tableWf_tableErase {size : Nat} {t : Table α} (n : Nat) (h : tableWf size t) :
    tableWf size (tableErase t n) := by
  have hsub : ((tableErase t n).map Prod.fst).Sublist (t.map Prod.fst) :=
    List.Sublist.map _ List.filter_sublist
  exact ⟨h.1.sublist hsub, fun k hk => h.2 k (hsub.subset hk)⟩

/-- Changing the entries keeps the canonical form. -/
theorem tableWf_map {β : Type} {size : Nat} {t : Table α} (f : α → β) (h : tableWf size t) :
    tableWf size (t.map (fun e => (e.1, f e.2))) := by
  simpa [tableWf, List.map_map, Function.comp_def] using h

end Sys2Proof.Machine
end

