-- ==== Sys2Proof/Laws/Operations.lean ====
section
/-!
SUPPORT. For each shared operation, one lemma that says which blocks of the state it can change: the answer is
the state itself with those blocks replaced. With them, what alerts and replies do, and what a refresh start
does to the boards.
-/

namespace Sys2Proof.Machine

open Sys2Proof.Safety

/-! ## The model's tests as the statements spell them -/

/-- R43: market data by TYPE. -/
theorem isMarketData_iff (body : List Byte) : isMarketData (frameType body) = true ↔ MarketData body := by
  rw [isMarketData, Bool.and_eq_true]
  exact and_congr decide_eq_true_iff decide_eq_true_iff

/-- R45: a TYPE that is taken. -/
theorem typeTaken_iff (body : List Byte) : typeTaken (frameType body) = true ↔ TypeIsTaken body := by
  rw [typeTaken, Bool.or_eq_true, Bool.and_eq_true, Bool.and_eq_true]
  exact or_congr (and_congr decide_eq_true_iff decide_eq_true_iff) (and_congr decide_eq_true_iff decide_eq_true_iff)

/-- R40: a receiver before the second CRC byte. -/
theorem frameEnds_iff (s : State) : FrameEnds s ↔ s.phase = .running ∧ awaitsLastByte s.feed.rx = true := by
  simp only [FrameEnds, awaitsLastByte, Bool.and_eq_true, beq_iff_eq]
  tauto

/-- R117, R118: the entry that takes up a print. -/
theorem mergesWith_eq_takesUp (p : Print) (e : TickerEntry) : mergesWith p e = takesUp p e := by
  rw [Bool.eq_iff_iff]
  cases e <;> simp [mergesWith, takesUp, samePrint, and_assoc]

/-- A class B print. -/
theorem isClassB_eq_inClassB (e : TickerEntry) : isClassB e = inClassB e := by
  rw [Bool.eq_iff_iff]
  cases e <;> simp [isClassB, inClassB]

/-- R150: the status lines of the ACTIVE terminals. -/
theorem statusLinesPending_line (s : State) : (statusLinesPending s).line = lineWithStatus s.line := rfl

/-! ## Alerts and replies -/

/-- An alert set by its owner reaches the management responder alone. -/
theorem raiseAlert_frame (a : Alert) (s : State) :
    raiseAlert a s = { s with mgmt := alertSet a s.mgmt } := rfl

/-- A REPLY reaches the management responder alone. -/
theorem queueReply_frame (tag : BitVec 16) (p : List Byte) (s : State) :
    queueReply tag p s = { s with mgmt := replied tag p s.mgmt } := by
  simp only [queueReply, replied, State.setMgmt, raiseAlert]
  split <;> rfl

/-- A REPLY to a frame carries its tag. -/
theorem replyTo_frame (body answer : List Byte) (s : State) :
    replyTo body answer s = { s with mgmt := replied (seqTag body) answer s.mgmt } :=
  queueReply_frame _ _ _

/-- The end of a LOAD, told whole. -/
theorem loadEnds_frame (body answer : List Byte) (s : State) :
    loadEnds body answer s
      = { s with intake := s.intake.drop 1, load := none,
                 mgmt := replied (seqTag body) answer s.mgmt } := by
  simp only [loadEnds, replyTo_frame, State.setLoad, State.setIntake]

/-- What a step of a LOAD can do: nothing; or, after the gap-before marking where it begins the LOAD, end it
before or at an entry, or apply one entry and keep the place or end the LOAD. -/
theorem takeLoad_cases (step : FrameStep) (size entrySize : Nat)
    (apply : Nat → List Byte → State → Option State) (s : State) :
    takeLoad step size entrySize apply s = s
      ∨ ∃ e rest u v, s.intake = e :: rest ∧ frameStep e.body = step
        ∧ u = (if s.load = none then afterGap e s else s)
        ∧ (v = u ∨ ∃ n bytes, apply n bytes u = some v)
        ∧ ((∃ answer, takeLoad step size entrySize apply s = loadEnds e.body answer v)
          ∨ ∃ done, takeLoad step size entrySize apply s = v.setLoad (some (done + 1))
            ∧ done + 1 < at16 (payload e.body) 3) := by
  have next : ∀ (body : List Byte) (done : Nat) (u : State),
      ∃ v, (v = u ∨ ∃ n bytes, apply n bytes u = some v)
        ∧ ((∃ answer, loadNext entrySize apply body done u = loadEnds body answer v)
          ∨ ∃ k, loadNext entrySize apply body done u = v.setLoad (some (k + 1))
            ∧ k + 1 < at16 (payload body) 3) := by
    intro body done u
    simp only [loadNext]
    split
    · exact ⟨u, .inl rfl, .inl ⟨_, rfl⟩⟩
    · split
      · exact ⟨u, .inl rfl, .inl ⟨_, rfl⟩⟩
      · rename_i v hv
        refine ⟨v, .inr ⟨_, _, hv⟩, ?_⟩
        split
        · exact .inl ⟨_, rfl⟩
        · exact .inr ⟨done, rfl, by omega⟩
  cases hi : s.intake with
  | nil => left; simp only [takeLoad, hi]
  | cons e rest =>
    by_cases hs : frameStep e.body = step
    · right
      cases hl : s.load with
      | some done =>
        obtain ⟨v, hv, ht⟩ := next e.body done s
        refine ⟨e, rest, s, v, rfl, hs, by simp, hv, ?_⟩
        simpa only [takeLoad, hi, hs, hl, if_true] using ht
      | none =>
        cases hc : loadCheck size entrySize (payload e.body) with
        | some code =>
          refine ⟨e, rest, afterGap e s, afterGap e s, rfl, hs, by simp, .inl rfl, .inl ⟨[code], ?_⟩⟩
          simp only [takeLoad, hi, hs, hl, hc, if_true, afterGap]
        | none =>
          obtain ⟨v, hv, ht⟩ := next e.body 0 (afterGap e s)
          refine ⟨e, rest, afterGap e s, v, rfl, hs, by simp, hv, ?_⟩
          simpa only [takeLoad, hi, hs, hl, hc, if_true, afterGap] using ht
    · left; simp only [takeLoad, hi, hs, if_false]

/-! ## Bits on the chain lines (R178) -/

/-- A byte sent most significant bit first, and taken so, is the byte. -/
theorem byteOfBits_bitsOf : ∀ b : Byte, byteOfBits (bitsOf b) = b := by decide +kernel

/-- What a chain returns of the stages shifted to it is those stages. -/
theorem stagesOf_shiftBits (image : List Byte) : stagesOf (shiftBits image) = image := by
  induction image with
  | nil => rfl
  | cons b rest ih =>
    have h : stagesOf (shiftBits (b :: rest)) = byteOfBits (bitsOf b) :: stagesOf (shiftBits rest) := rfl
    rw [h, ih, byteOfBits_bitsOf]

/-- The bit places of two alerts are the same only for the same alert. -/
theorem alertIndex_injective : ∀ a b : Alert, alertIndex a = alertIndex b → a = b := by
  intro a b h
  cases a <;> cases b <;> simp only [alertIndex] at h <;>
    first
      | rfl
      | omega
      | exact congrArg _ (Fin.ext (Nat.add_left_cancel h))

/-- Every alert has a bit place below 15. -/
theorem alertIndex_lt (a : Alert) : alertIndex a < 15 := by
  cases a <;> simp [alertIndex] <;> omega

/-- The set of one alert holds that alert alone. -/
theorem alertIn_alertBit (a b : Alert) : alertIn b (alertBit a) = decide (b = a) := by
  have hb := alertIndex_lt b
  by_cases h : b = a
  · subst h
    simp [alertIn, alertBit, hb]
  · have hne : alertIndex b ≠ alertIndex a := fun he => h (alertIndex_injective _ _ he)
    simp only [alertIn, alertBit, BitVec.getLsbD_shiftLeft, h, decide_false, Bool.and_eq_false_iff]
    by_cases hlt : alertIndex b < alertIndex a
    · simp [hlt]
    · have h1 : alertIndex b - alertIndex a ≠ 0 := by omega
      simp [h1]

/-- Queueing an ALERT frame changes the reply queue alone. -/
theorem queueAlert_status (m : Management) : (queueAlert m).alertStatus = m.alertStatus := by
  simp only [queueAlert]
  split <;> rfl

/-- After an alert is set, the status holds it and what it held. -/
theorem alertIn_alertSet (a b : Alert) (m : Management) :
    alertIn b (alertSet a m).alertStatus = (decide (b = a) || alertIn b m.alertStatus) := by
  by_cases ha : alertIn a m.alertStatus = true
  · have : alertSet a m = m := by simp [alertSet, ha]
    rw [this]
    by_cases hb : b = a
    · subst hb
      simp [ha]
    · simp [hb]
  · have hs : (alertSet a m).alertStatus = m.alertStatus ||| alertBit a := by
      simp only [alertSet, ha]
      simp only [Bool.false_eq_true, if_false]
      split
      · rw [queueAlert_status]
      · rfl
    rw [hs, ← alertIn_alertBit a b]
    simp only [alertIn, BitVec.getLsbD_or]
    exact Bool.or_comm _ _

/-! ## The boards -/

/-- Shift completion changes its chain, and may set an alert. -/
theorem shiftComplete_frame (c : ChainId) (returned : List Byte) (s : State) :
    shiftComplete c returned s
      = { s with chains := (shiftComplete c returned s).chains,
                 mgmt := (shiftComplete c returned s).mgmt } := by
  simp only [shiftComplete]
  split
  · split <;> rfl
  · rfl

/-- A layout of no stages differs nowhere. -/
theorem differingModules_of_image_nil {s : State} {c : ChainId} {list : List ModuleKind}
    (h : composeImage s c list = []) (shadow returned : List Byte) :
    differingModules (stageLayout list 0 0 0) shadow returned = [] := by
  have : stageLayout list 0 0 0 = [] := by simpa [composeImage] using h
  rw [this]
  rfl

/-- What a refresh start captures. -/
theorem capturedCycle_eq (c : ChainId) (s : State) : capturedCycle c s = cycleOf c s := rfl

/-- Refresh start changes its chain and the dirty flags of the slots on it, and nothing else. -/
theorem refreshStart_frame (c : ChainId) (s : State) :
    refreshStart c s
      = { s with chains := s.chains.set c (startedChain c s), slots := clearDirty c s.slots } := by
  simp only [refreshStart, startedChain, capturedCycle_eq]
  by_cases himg : (cycleOf c s).image = []
  · have hd : ∀ shadow returned, differingModules (stageLayout (cycleOf c s).list 0 0 0)
        shadow returned = [] := by
      intro shadow returned
      exact differingModules_of_image_nil (s := s) (c := c) himg shadow returned
    have hv : (cycleOf c s).verified = (s.chains[c]).shadowValid := rfl
    have hr : { cycleOf c s with returned := [] } = cycleOf c s := rfl
    have ht : (cycleOf c s).settle = (s.chains[c]).entry.settle := rfl
    simp only [himg, if_true, shiftComplete, State.setChain, State.setChains, State.setSlots,
      Fin.getElem_fin, Vector.getElem_set_self, hd, ne_eq, not_true_eq_false, and_false, if_false,
      latchAndSettle, echoChecked, lowestOf, Vector.set_set, hv, ht]
    cases hsv : (s.chains[c]).shadowValid <;> simp_all [startTimer]
  · simp only [himg, if_false]
    rfl

/-- A chain told of an event changes itself and the slots' dirty flags alone. -/
theorem wakeChain_frame (c : ChainId) (s : State) :
    wakeChain c s = { s with chains := (wakeChain c s).chains, slots := (wakeChain c s).slots } := by
  simp only [wakeChain]
  split
  · rw [refreshStart_frame]
  · rfl

/-- All chains told of an event change themselves and the slots' dirty flags alone. -/
theorem wakeChains_frame (s : State) :
    wakeChains s = { s with chains := (wakeChains s).chains, slots := (wakeChains s).slots } := by
  simp only [wakeChains]
  rw [wakeChain_frame 3, wakeChain_frame 2, wakeChain_frame 1, wakeChain_frame 0]

/-- A change of the chains and the slots after the slots are replaced is one of both. -/
theorem boards_of_setSlots {s t : State} {x : Table Slot}
    (h : t = { s.setSlots x with chains := t.chains, slots := t.slots }) :
    t = { s with chains := t.chains, slots := t.slots } := h

/-- Marking slots changes the slots and the chains alone. -/
theorem markSlots_frame (pick : Slot → Bool) (f : Slot → Slot) (s : State) :
    markSlots pick f s
      = { s with chains := (markSlots pick f s).chains, slots := (markSlots pick f s).slots } :=
  boards_of_setSlots (wakeChains_frame _)

/-! ## Rows, records and hand-offs -/

/-- The status lines' flags are the terminal line's alone. -/
theorem statusLinesPending_frame (s : State) :
    statusLinesPending s = { s with line := (statusLinesPending s).line } := rfl

/-- A change set handed to the watch manager (R157). -/
theorem rowsTakeNames_frame (n : Nat) (names : NameSet) (s : State) :
    rowsTakeNames n names s = { s with line := lineWithNames n names s.line } := rfl

/-- A deletion handed to the watch manager (R158). -/
theorem rowsTakeDeletion_frame (n : Nat) (s : State) :
    rowsTakeDeletion n s = { s with line := lineWithDeletion n s.line } := rfl

/-- No names change no row. -/
theorem lineWithNames_zero (n : Nat) (l : TerminalLine) : lineWithNames n 0 l = l := by
  simp [lineWithNames]

/-- A change set handed on reaches the chains, the slots and the rows alone. -/
theorem handNames_frame (n : Nat) (names : NameSet) (s : State) :
    handNames n names s
      = { s with chains := (handNames n names s).chains, slots := (handNames n names s).slots,
                 line := lineWithNames n names s.line } := by
  simp only [handNames]
  split
  · rename_i h
    rw [h, lineWithNames_zero]
  · rw [rowsTakeNames_frame]
    simp only [slotsTakeNames]
    rw [markSlots_frame]

/-- A deletion handed on reaches the chains, the slots and the rows alone. -/
theorem handDeletion_frame (n : Nat) (s : State) :
    handDeletion n s
      = { s with chains := (handDeletion n s).chains, slots := (handDeletion n s).slots,
                 line := lineWithDeletion n s.line } := by
  simp only [handDeletion]
  rw [rowsTakeDeletion_frame]
  simp only [slotsTakeDeletion]
  rw [markSlots_frame]

/-- A record update changes its record, and what its change set reaches. -/
theorem updateRecord_frame (n : Nat) (r : QuoteRecord) (names : NameSet) (s : State) :
    updateRecord n r names s
      = { s with
          records := tableSet s.records n r, chains := (updateRecord n r names s).chains,
          slots := (updateRecord n r names s).slots, line := lineWithNames n names s.line } := by
  simp only [updateRecord]
  rw [handNames_frame]
  rfl

/-- Stale marking changes the records, the chains, the slots and the rows alone. -/
theorem markStale_frame (n : Nat) (s : State) :
    markStale s n
      = { s with records := (markStale s n).records, chains := (markStale s n).chains,
                 slots := (markStale s n).slots, line := (markStale s n).line } := by
  simp only [markStale]
  split
  · split
    · rfl
    · rw [updateRecord_frame]
  · rfl

/-- Two changes of the records, the chains, the slots and the rows alone are one. -/
theorem frame_trans {s t u : State}
    (h : t = { s with records := t.records, chains := t.chains, slots := t.slots, line := t.line })
    (h' : u = { t with records := u.records, chains := u.chains, slots := u.slots, line := u.line }) :
    u = { s with records := u.records, chains := u.chains, slots := u.slots, line := u.line } := by
  rw [h] at h'
  exact h'

/-- Stale marking of a list of records, as of one. -/
theorem markStale_fold_frame (ns : List Nat) : ∀ s : State,
    ns.foldl markStale s
      = { s with
          records := (ns.foldl markStale s).records, chains := (ns.foldl markStale s).chains,
          slots := (ns.foldl markStale s).slots, line := (ns.foldl markStale s).line } := by
  induction ns with
  | nil => exact fun _ => rfl
  | cons n rest ih =>
    exact fun s => frame_trans (markStale_frame n s) (ih (markStale s n))

/-- Marking every record stale changes the records, the chains, the slots and the rows alone. -/
theorem markAllStale_frame (s : State) :
    markAllStale s
      = { s with records := (markAllStale s).records, chains := (markAllStale s).chains,
                 slots := (markAllStale s).slots, line := (markAllStale s).line } :=
  markStale_fold_frame _ s

/-- What a stale marking does to every record. -/
theorem tableGet_markStale (n m : Nat) (s : State) :
    tableGet (markStale s n).records m
      = (tableGet s.records m).map (fun r => if m = n then { r with stale := true } else r) := by
  simp only [markStale]
  split
  · rename_i r hr
    split
    · rename_i hst
      by_cases h : m = n
      · subst h
        rw [hr]
        cases r
        simp_all
      · simp [h]
    · rw [updateRecord_frame]
      simp only [tableGet_tableSet]
      by_cases h : m = n
      · subst h
        simp [hr]
      · simp [h]
  · rename_i hr
    by_cases h : m = n
    · subst h
      simp [hr]
    · simp [h]

/-- A watch count changed is a change of the records alone. -/
theorem changeWatch_frame (f : Nat → Nat) (n : Nat) (s : State) :
    changeWatch f n s = { s with records := (changeWatch f n s).records } := by
  simp only [changeWatch]
  split <;> rfl

/-- A row changed is a change of the terminal line and of watch counts alone. -/
theorem changeRow_frame (t : TermId) (i : Fin 16) (item : Option Nat) (s : State) :
    changeRow t i item s
      = { s with records := (changeRow t i item s).records,
                 line := (changeRow t i item s).line } := by
  simp only [changeRow, raiseWatch, lowerWatch]
  cases item <;> cases ((s.line.terminals[t]).rows[i]).record <;> simp only [] <;>
    first
      | rfl
      | (rw [changeWatch_frame, changeWatch_frame]; rfl)

/-! ## The terminal line -/

/-- Serving a terminal changes the terminal line alone. -/
theorem serve_frame (t : TermId) (s : State) : serve t s = { s with line := (serve t s).line } := by
  simp only [serve]
  split <;> try rfl
  split <;> rfl

/-- Selection changes the terminal line alone. -/
theorem select_frame (s : State) : select s = { s with line := (select s).line } := by
  simp only [select]
  split
  · split
    · exact serve_frame _ _
    · rfl
  · rfl

/-! ## The ticker -/

/-- A print offered reaches the ticker, and the responder where it brings an omission. -/
theorem offerPrint_frame (p : Print) (s : State) :
    offerPrint p s
      = { s with ticker := (offerPrint p s).ticker, mgmt := (offerPrint p s).mgmt } := by
  simp only [offerPrint, admitToFull]
  split
  · rfl
  · split
    · rfl
    · split
      · rfl
      · split
        · rfl
        · split <;> rfl

/-- A text offered reaches the ticker, and the responder where it brings an omission. -/
theorem offerText_frame (atHead : Bool) (text : List Byte) (s : State) :
    offerText atHead text s
      = { s with ticker := (offerText atHead text s).ticker,
                 mgmt := (offerText atHead text s).mgmt } := by
  simp only [offerText]
  split
  · rfl
  · split
    · rfl
    · split <;> rfl

/-- The status lines' flags after a change of the boards alone. -/
theorem statusLinesPending_of_boards {s t : State}
    (h : t = { s with chains := t.chains, slots := t.slots }) :
    statusLinesPending t
      = { s with chains := t.chains, slots := t.slots, line := (statusLinesPending s).line } := by
  have hl : t.line = s.line := by rw [h]
  rw [statusLinesPending_frame t]
  simp only [statusLinesPending, mapTerms, State.setLine, hl]
  rw [h]

/-- A level change handed on reaches the chains, the slots and the status lines alone. -/
theorem handLevel_frame (s : State) :
    handLevel s
      = { s with chains := (markStatus s).chains, slots := (markStatus s).slots,
                 line := (statusLinesPending s).line } :=
  statusLinesPending_of_boards (markSlots_frame _ _ s)

/-! ## The interval tick and the sequence check -/

/-- A tick counts every timer of Table 4-1 down by one. -/
theorem countTimers_eq (s : State) : countTimers s = tickedOnce s := rfl

/-- What the sequence check can do: pass a frame that is no market data by; stop an old one; or set the expected
number past the frame, with a gap owed and FEED GAP set where numbers are missing. -/
theorem sequenceChecked_cases (body : List Byte) (s : State) :
    let next : Feed := { s.feed with expected := some (seqTag body + 1) }
    let ahead := match s.feed.expected with
      | none => 0
      | some x => (seqTag body - x).toNat
    (isMarketData (frameType body) = false → sequenceChecked body s = some s)
      ∧ (isMarketData (frameType body) = true →
        (ahead = 0 → sequenceChecked body s = some { s with feed := next })
          ∧ (0 < ahead → ahead ≤ 32767 → sequenceChecked body s = some { s with
              feed := { next with gapOwed := true }, mgmt := alertSet .feedGap s.mgmt })
          ∧ (32768 ≤ ahead → sequenceChecked body s = none)) := by
  simp only [sequenceChecked, judgeSequence, State.setFeed, raiseAlert_frame]
  refine ⟨fun h => by simp [h], fun h => ?_⟩
  simp only [h, if_true]
  cases hx : s.feed.expected with
  | none => simp
  | some x =>
    have hz : (seqTag body - x = 0) ↔ (seqTag body - x).toNat = 0 := by
      rw [← BitVec.toNat_inj]; rfl
    dsimp only
    refine ⟨fun h0 => by simp [hz.mpr h0], fun h0 h1 => ?_, fun h1 => ?_⟩
    · have : ¬ seqTag body - x = 0 := fun e => by rw [hz.mp e] at h0; omega
      simp only [this, if_false, h1, if_true]
    · have : ¬ seqTag body - x = 0 := fun e => by rw [hz.mp e] at h1; omega
      have h2 : ¬ (seqTag body - x).toNat ≤ 32767 := by omega
      simp only [this, if_false, h2]

end Sys2Proof.Machine
end

