-- ==== Sys2Proof/Laws/Boards.lean ====
section
/-!
SUPPORT. What marking slots can bring about at the boards: `BoardsOnlyRefresh` holds of one mark, of a run of
marks, and of every operation that hands on changes. With it, when two slots claim a common cell (R93).
-/

namespace Sys2Proof.Machine

open Sys2Proof.Safety

/-- Nothing done is no more than refreshes started. -/
theorem boardsOnlyRefresh_refl (s : State) : BoardsOnlyRefresh s s := by
  simp [BoardsOnlyRefresh]

/-- States with the same chains and slots are alike for the boards. -/
theorem boardsOnlyRefresh_of_eq {s t : State} (hc : t.chains = s.chains) (hs : t.slots = s.slots) :
    BoardsOnlyRefresh s t := by
  simp [BoardsOnlyRefresh, hc, hs]

/-- Refreshes started one after the other are refreshes started. -/
theorem boardsOnlyRefresh_trans {s t u : State} (h : BoardsOnlyRefresh s t)
    (h' : BoardsOnlyRefresh t u) : BoardsOnlyRefresh s u := by
  refine ⟨fun c => ?_, fun n => (h'.2 n).trans (h.2 n)⟩
  obtain ⟨a, b, d, e, f, g⟩ := h.1 c
  obtain ⟨a', b', d', e', f', g'⟩ := h'.1 c
  refine ⟨fun hi => ?_, b'.trans b, d'.trans d, e'.trans e, f'.trans f, g'.trans g⟩
  have ht := a hi
  rw [a' (by rw [ht]; exact hi), ht]

/-- Cleaning the slots of a chain is one mark of every slot (R76). -/
theorem clearDirty_eq_map (c : ChainId) (slots : Table Slot) :
    clearDirty c slots
      = slots.map (fun e => (e.1, if e.2.chain = c then { e.2 with dirty := false } else e.2)) := by
  simp only [clearDirty]
  congr 1
  funext e
  split <;> rfl

/-- A slot's dirty flag is no part of its description. -/
theorem tableGet_clearDirty (c : ChainId) (slots : Table Slot) (n : Nat) :
    tableGet (clearDirty c slots) n
      = (tableGet slots n).map (fun sl => if sl.chain = c then { sl with dirty := false } else sl) := by
  rw [clearDirty_eq_map, tableGet_map (fun sl : Slot => if sl.chain = c then { sl with dirty := false } else sl)]

/-- The chain started keeps its entry, list, sense and first mismatched module. -/
theorem startedChain_keeps (c : ChainId) (s : State) :
    (startedChain c s).entry = (s.chains[c]).entry
      ∧ (startedChain c s).modules = (s.chains[c]).modules
      ∧ (startedChain c s).senseLevel = (s.chains[c]).senseLevel
      ∧ (startedChain c s).senseLatch = (s.chains[c]).senseLatch
      ∧ (startedChain c s).firstMismatch = (s.chains[c]).firstMismatch := by
  simp only [startedChain]
  split <;> simp

/-- A refresh start of an IDLE chain. -/
theorem refreshStart_boards {c : ChainId} {s : State} (hi : (s.chains[c]).state = .idle) :
    BoardsOnlyRefresh s (refreshStart c s) := by
  rw [refreshStart_frame]
  refine ⟨fun d => ?_, fun n => ?_⟩
  · by_cases h : d = c
    · subst h
      refine ⟨fun hn => absurd hi hn, ?_⟩
      simpa using startedChain_keeps d s
    · have hv : c.val ≠ d.val := fun hv => h (Fin.ext hv.symm)
      simp [Vector.getElem_set_ne _ _ hv]
  · simp only [tableGet_clearDirty]
    cases tableGet s.slots n with
    | none => rfl
    | some sl =>
      simp only [Option.map_some]
      split <;> rfl

/-- One chain told of an event. -/
theorem wakeChain_boards (c : ChainId) (s : State) : BoardsOnlyRefresh s (wakeChain c s) := by
  simp only [wakeChain]
  split
  · rename_i h
    simp only [wantsRefresh, Bool.and_eq_true, beq_iff_eq] at h
    exact refreshStart_boards h.1
  · exact boardsOnlyRefresh_refl s

/-- Every chain told of an event. -/
theorem wakeChains_boards (s : State) : BoardsOnlyRefresh s (wakeChains s) :=
  boardsOnlyRefresh_trans (wakeChain_boards 0 s)
    (boardsOnlyRefresh_trans (wakeChain_boards 1 _)
      (boardsOnlyRefresh_trans (wakeChain_boards 2 _) (wakeChain_boards 3 _)))

/-- Marking slots, by a change that keeps their descriptions. -/
theorem markSlots_boards (pick : Slot → Bool) {f : Slot → Slot}
    (hf : ∀ sl, description (f sl) = description sl) (s : State) :
    BoardsOnlyRefresh s (markSlots pick f s) := by
  refine boardsOnlyRefresh_trans ⟨fun c => by simp [State.setSlots], fun n => ?_⟩
    (wakeChains_boards _)
  have : s.slots.map (fun e => if pick e.2 then (e.1, f e.2) else e)
      = s.slots.map (fun e => (e.1, if pick e.2 then f e.2 else e.2)) := by
    congr 1
    funext e
    split <;> rfl
  show ((tableGet (s.slots.map (fun e => if pick e.2 then (e.1, f e.2) else e)) n).map description) = _
  rw [this, tableGet_map (fun sl => if pick sl then f sl else sl)]
  cases tableGet s.slots n with
  | none => rfl
  | some sl =>
    simp only [Option.map_some]
    split
    · rw [hf]
    · rfl

/-- What a change set does to a slot keeps its description. -/
theorem description_slotTakes (names : NameSet) (period : Nat) (sl : Slot) :
    description (slotTakes names period sl) = description sl := by
  simp only [slotTakes]
  split <;> split <;> rfl

/-- What a record update does to the rows leaves the boards alone. -/
theorem rowsTakeNames_boards (n : Nat) (names : NameSet) (s : State) :
    BoardsOnlyRefresh s (rowsTakeNames n names s) := by
  rw [rowsTakeNames_frame]
  exact boardsOnlyRefresh_of_eq rfl rfl

/-- What a deletion does to the rows leaves the boards alone. -/
theorem rowsTakeDeletion_boards (n : Nat) (s : State) :
    BoardsOnlyRefresh s (rowsTakeDeletion n s) := boardsOnlyRefresh_of_eq rfl rfl

/-- A change set handed on. -/
theorem handNames_boards (n : Nat) (names : NameSet) (s : State) :
    BoardsOnlyRefresh s (handNames n names s) := by
  simp only [handNames]
  split
  · exact boardsOnlyRefresh_refl s
  · refine boardsOnlyRefresh_trans ?_ (rowsTakeNames_boards n names _)
    simp only [slotsTakeNames]
    exact markSlots_boards _ (description_slotTakes names _) s

/-- What a deletion does to the slots. -/
theorem slotsTakeDeletion_boards (n : Nat) (s : State) :
    BoardsOnlyRefresh s (slotsTakeDeletion n s) :=
  markSlots_boards (quotesRecord n) (f := fun sl => { dirtied sl with flash := none })
    (fun _ => rfl) s

/-- A deletion handed on. -/
theorem handDeletion_boards (n : Nat) (s : State) : BoardsOnlyRefresh s (handDeletion n s) := by
  have h := rowsTakeDeletion_boards n (slotsTakeDeletion n s)
  rw [show rowsTakeDeletion n (slotsTakeDeletion n s) = handDeletion n s by rw [handDeletion]] at h
  exact boardsOnlyRefresh_trans (slotsTakeDeletion_boards n s) h

/-- A record update. -/
theorem updateRecord_boards (n : Nat) (r : QuoteRecord) (names : NameSet) (s : State) :
    BoardsOnlyRefresh s (updateRecord n r names s) :=
  boardsOnlyRefresh_trans (boardsOnlyRefresh_of_eq (t := s.setRecords (tableSet s.records n r)) rfl rfl)
    (handNames_boards n names _)

/-- Stale marking of one record. -/
theorem markStale_boards (n : Nat) (s : State) : BoardsOnlyRefresh s (markStale s n) := by
  simp only [markStale]
  split
  · split
    · exact boardsOnlyRefresh_refl s
    · exact updateRecord_boards _ _ _ _
  · exact boardsOnlyRefresh_refl s

/-- Stale marking of every record. -/
theorem markAllStale_boards (s : State) : BoardsOnlyRefresh s (markAllStale s) := by
  have h : ∀ (ns : List Nat) (u : State), BoardsOnlyRefresh u (ns.foldl markStale u) := by
    intro ns
    induction ns with
    | nil => exact boardsOnlyRefresh_refl
    | cons n rest ih => exact fun u => boardsOnlyRefresh_trans (markStale_boards n u) (ih _)
  exact h _ s

/-! ## Snapshots that come together with a slot load (R94) -/

/-- A lookup in a table by what a mark leaves as it was. -/
theorem find?_mark (mark : Slot → Slot) (p : Slot → Bool) (h : ∀ sl, p (mark sl) = p sl) (slots : Table Slot) :
    (slots.map (fun e => (e.1, mark e.2))).find? (fun e => p e.2)
      = (slots.find? (fun e => p e.2)).map (fun e => (e.1, mark e.2)) := by
  induction slots with
  | nil => rfl
  | cons e rest ih =>
    by_cases hp : p e.2 = true
    · simp [h, hp]
    · simp [h, hp, ih]

/-- A snapshot reads no dirty flag, and nothing of a chain or of the terminal line: what changes no more of the state
leaves what it would show (R73, R76). -/
theorem composeImage_map (d : ChainId) (s : State) (chains : Vector Chain 4) (line : TerminalLine) {clean : Slot → Slot}
    (same : ∀ sl, (clean sl).chain = sl.chain ∧ (clean sl).start = sl.start ∧ (clean sl).kind = sl.kind
      ∧ (clean sl).flash = sl.flash) (list : List ModuleKind) :
    composeImage { s with chains := chains, line := line, slots := s.slots.map (fun e => (e.1, clean e.2)) } d list
      = composeImage s d list := by
  have text (k : SlotKind) : slotCells
      { s with chains := chains, line := line, slots := s.slots.map (fun e => (e.1, clean e.2)) } k = slotCells s k := by
    cases k <;> rfl
  have lamp (sl : Slot) : slotLamp
      { s with chains := chains, line := line, slots := s.slots.map (fun e => (e.1, clean e.2)) } (clean sl)
      = slotLamp s sl := by
    simp only [slotLamp, flashing, same]
  simp only [composeImage]
  congr 1
  funext x
  rcases x with ⟨m, cell | cell | _⟩
  · simp only [renderStage, renderCell]
    rw [find?_mark clean (claimsCell d cell) (fun sl => by simp only [claimsCell, same])]
    cases s.slots.find? (fun e => claimsCell d cell e.2) <;> simp only [Option.map_some, Option.map_none, text, same]
  · simp only [renderStage, renderLamp]
    rw [find?_mark clean (claimsLamp d cell) (fun sl => by simp only [claimsLamp, same])]
    cases s.slots.find? (fun e => claimsLamp d cell e.2) <;> simp only [Option.map_some, Option.map_none, lamp]
  · rfl

/-- Cleaning slots leaves what a snapshot would show. -/
theorem composeImage_clearDirty (c d : ChainId) (s : State) (chains : Vector Chain 4) (list : List ModuleKind) :
    composeImage { s with chains := chains, slots := clearDirty c s.slots } d list = composeImage s d list := by
  rw [clearDirty_eq_map]
  exact composeImage_map d s chains s.line
    (clean := fun sl => if sl.chain = c then { sl with dirty := false } else sl)
    (fun sl => by split <;> simp) list

/-- What a snapshot taken now changes. -/
theorem snapshotNow_frame (c : ChainId) (s : State) :
    snapshotNow c s = { s with
      slots := clearDirty c s.slots,
      chains := s.chains.set c { s.chains[c] with
        cycle := s.chains[c].cycle.map (fun cy => { cy with image := composeImage s c cy.list }) } } := rfl

/-- Where a command starts no refresh before its SLOT entry, no snapshot comes together with the entry. -/
theorem applySlotTable_of_none {s u : State} (h : ∀ c, begunBetween s u c = false) (n : Nat) (e : List Byte) :
    applySlotTable s n e u = applySlotEntry n e u := by
  simp only [applySlotTable, snapshotAfterLoad, h]
  cases applySlotEntry n e u <;> rfl

/-- An entry of a LOAD that is already under way meets no such snapshot. -/
theorem applySlotTable_self (s : State) (n : Nat) (e : List Byte) :
    applySlotTable s n e s = applySlotEntry n e s :=
  applySlotTable_of_none (fun c => by simp [begunBetween]) n e

/-! ## Claims -/

/-- Two slots cross where they claim a common character cell or a common lamp cell of one chain. -/
theorem claimsCross_iff (a b : Slot) :
    claimsCross a b = true ↔ ∃ cell,
      (claimsCell b.chain cell a = true ∧ claimsCell b.chain cell b = true)
        ∨ (claimsLamp b.chain cell a = true ∧ claimsLamp b.chain cell b = true) := by
  simp only [claimsCross, claimsCell, claimsLamp, Bool.and_eq_true, Bool.or_eq_true, beq_iff_eq,
    decide_eq_true_eq, beq_self_eq_true, true_and]
  constructor
  · rintro ⟨hc, ⟨⟨⟨h1, h2⟩, h3⟩, h4⟩ | ⟨h1, h2⟩⟩
    · exact ⟨max a.start b.start, .inl ⟨⟨⟨hc, by omega⟩, by omega⟩, by omega, by omega⟩⟩
    · obtain ⟨cell, h⟩ := Option.isSome_iff_exists.mp h2
      exact ⟨cell, .inr ⟨⟨hc, h⟩, h1 ▸ h⟩⟩
  · rintro ⟨cell, ⟨⟨⟨hc, h1⟩, h2⟩, h3, h4⟩ | ⟨⟨hc, h1⟩, h2⟩⟩
    · exact ⟨hc, .inl ⟨⟨⟨by omega, by omega⟩, by omega⟩, by omega⟩⟩
    · exact ⟨hc, .inr ⟨h1.trans h2.symm, by simp [h1]⟩⟩

/-- What R93 asks of the cells of a SLOT entry. -/
theorem claimTaken_iff (slots : Table Slot) (n : Nat) (sl : Slot) :
    claimTaken slots n sl = true ↔ CellTaken slots n sl := by
  simp [claimTaken, CellTaken, claimsCross_iff]

end Sys2Proof.Machine
end

