-- ==== Sys2Proof/Laws/Marks.lean ====
section
/-!
SUPPORT. What a mark of the slots brings about at the boards, told whole: the state that `markedBoards` spells. With
it, the marks of a stale marking and of the day reset in turn, as `BoardsMarkedInTurn` tells of them.
-/

namespace Sys2Proof.Machine

open Sys2Proof.Safety

/-! ## Marks told whole (R75, R76, R95) -/

/-- Whether chain c, told of an event in the state s, starts a refresh. -/
theorem wantsRefresh_eq (s : State) (c : ChainId) :
    wantsRefresh s c = (decide ((s.chains[c]).state = .idle)
      && ((s.chains[c]).resync || s.slots.any (fun e => decide (e.2.chain = c) && e.2.dirty))) := by
  simp only [wantsRefresh, chainDirty]
  rfl

/-- A slot cleaned where a snapshot of its chain is taken. -/
def cleanedIf (b : Prop) [Decidable b] (sl : Slot) : Slot := if b then { sl with dirty := false } else sl

@[simp] theorem cleanedIf_chain (b : Prop) [Decidable b] (sl : Slot) : (cleanedIf b sl).chain = sl.chain := by
  simp only [cleanedIf]; split <;> rfl

@[simp] theorem cleanedIf_start (b : Prop) [Decidable b] (sl : Slot) : (cleanedIf b sl).start = sl.start := by
  simp only [cleanedIf]; split <;> rfl

@[simp] theorem cleanedIf_kind (b : Prop) [Decidable b] (sl : Slot) : (cleanedIf b sl).kind = sl.kind := by
  simp only [cleanedIf]; split <;> rfl

@[simp] theorem cleanedIf_flash (b : Prop) [Decidable b] (sl : Slot) : (cleanedIf b sl).flash = sl.flash := by
  simp only [cleanedIf]; split <;> rfl

/-- The chains of `done` told of an event in the state s, and no other. -/
def toldOf (s : State) (done : List ChainId) : State :=
  { s with
    chains := Vector.ofFn (fun c : ChainId =>
      if c ∈ done ∧ wantsRefresh s c = true then startedChain c s else s.chains[c]),
    slots := s.slots.map (fun e => (e.1, cleanedIf (e.2.chain ∈ done ∧ wantsRefresh s e.2.chain = true) e.2)) }

/-- Chains told of an event one after the other start what each would start alone. -/
theorem wakeChain_toldOf (s : State) (d : ChainId) (done : List ChainId) (hd : d ∉ done) :
    wakeChain d (toldOf s done) = toldOf s (d :: done) := by
  have hch : (toldOf s done).chains[d] = s.chains[d] := by simp [toldOf, hd]
  have hwant : wantsRefresh (toldOf s done) d = wantsRefresh s d := by
    rw [wantsRefresh_eq, wantsRefresh_eq, hch]
    congr 2
    simp only [toldOf, List.any_map]
    congr 1
    funext e
    by_cases he : e.2.chain = d
    · simp [he, hd, cleanedIf]
    · simp [he]
  have himg (list : List ModuleKind) : composeImage (toldOf s done) d list = composeImage s d list :=
    composeImage_map d s _ s.line
      (clean := fun sl => cleanedIf (sl.chain ∈ done ∧ wantsRefresh s sl.chain = true) sl) (fun sl => by simp) list
  have hcy : cycleOf d (toldOf s done) = cycleOf d s := by simp only [cycleOf, hch, himg]
  have hstart : startedChain d (toldOf s done) = startedChain d s := by simp only [startedChain, hcy, hch]
  simp only [wakeChain, hwant]
  split
  · rename_i hw
    rw [refreshStart_frame, hstart, clearDirty_eq_map]
    simp only [toldOf, List.map_map]
    congr 1
    · ext1 i hi
      by_cases h : i = d.val
      · subst h
        simp [hw]
      · have hne : ¬ (⟨i, hi⟩ : ChainId) = d := fun e => h (congrArg Fin.val e)
        simp [Vector.getElem_set_ne _ _ (fun e => h e.symm), hne]
    · apply List.map_congr_left
      intro e _
      by_cases he : e.2.chain = d
      · simp [he, hw, hd, cleanedIf]
      · simp [he]
  · rename_i hw
    simp only [toldOf]
    congr 1
    · ext1 i hi
      by_cases h : i = d.val
      · subst h
        simp [hw]
      · have hne : ¬ (⟨i, hi⟩ : ChainId) = d := fun e => h (congrArg Fin.val e)
        simp [hne]
    · apply List.map_congr_left
      intro e _
      by_cases he : e.2.chain = d
      · simp [he, hw]
      · simp [he]

/-- The chains told of an event, told whole. -/
theorem wakeChains_eq (s : State) : wakeChains s = chainsTold s := by
  have h0 : toldOf s [] = s := by simp [toldOf, cleanedIf]
  have h4 : ∀ c : ChainId, c ∈ ([3, 2, 1, 0] : List ChainId) := by decide
  have h : wakeChains s = toldOf s [3, 2, 1, 0] := by
    rw [← wakeChain_toldOf s 3 [2, 1, 0] (by decide), ← wakeChain_toldOf s 2 [1, 0] (by decide),
      ← wakeChain_toldOf s 1 [0] (by decide), ← wakeChain_toldOf s 0 [] (by decide), h0]
    rfl
  rw [h]
  simp only [toldOf, h4, true_and, wantsRefresh_eq]
  rfl

/-- Marking slots, told whole. -/
theorem markSlots_eq (pick : Slot → Bool) (f : Slot → Slot) (s : State) :
    markSlots pick f s = markedBoards (fun sl => if pick sl then f sl else sl) s := by
  simp only [markSlots, wakeChains_eq, markedBoards, State.setSlots]
  congr 3
  funext e
  split <;> rfl

/-- The terminal line is no part of what a mark reads or changes. -/
theorem markedBoards_line (mark : Slot → Slot) (s : State) (l : TerminalLine) :
    markedBoards mark { s with line := l } = { markedBoards mark s with line := l } := rfl

/-- `BoardsMarked` tells of the state that a mark leaves. -/
theorem boardsMarked_markedBoards (mark : Slot → Slot) (v : State) : BoardsMarked mark v (markedBoards mark v) := by
  let slots := v.slots.map (fun e => (e.1, mark e.2))
  have woken (c : ChainId) : (decide ((v.chains[c]).state = .idle)
      && ((v.chains[c]).resync || slots.any (fun e => decide (e.2.chain = c) && e.2.dirty))) = true
      ↔ (v.chains[c]).state = .idle
        ∧ ((v.chains[c]).resync = true ∨ ∃ e ∈ slots, e.2.chain = c ∧ e.2.dirty = true) := by
    simp only [Bool.and_eq_true, Bool.or_eq_true, decide_eq_true_eq, List.any_eq_true]
  have chain (c : ChainId) : (markedBoards mark v).chains[c]
      = if (v.chains[c]).state = .idle
          ∧ ((v.chains[c]).resync = true ∨ ∃ e ∈ slots, e.2.chain = c ∧ e.2.dirty = true)
        then startedChain c { v with slots := slots } else v.chains[c] := by
    simp only [markedBoards, chainsTold, Fin.getElem_fin, Vector.getElem_ofFn, Fin.eta]
    exact if_congr (woken c) rfl rfl
  have slot (n : Nat) : tableGet (markedBoards mark v).slots n
      = (tableGet v.slots n).map (fun sl =>
        if (v.chains[(mark sl).chain]).state = .idle
          ∧ ((v.chains[(mark sl).chain]).resync = true
            ∨ ∃ e ∈ slots, e.2.chain = (mark sl).chain ∧ e.2.dirty = true)
        then { mark sl with dirty := false } else mark sl) := by
    rw [← tableGet_map]
    simp only [markedBoards, chainsTold, List.map_map]
    congr 1
    apply List.map_congr_left
    intro e _
    exact congrArg _ (if_congr (woken (mark e.2).chain) rfl rfl)
  refine ⟨fun c => ⟨fun h => ?_, fun h => ?_⟩, fun n => ⟨fun sl hsl => ⟨fun h => ?_, fun h => ?_⟩, fun h => ?_⟩⟩
  · exact (chain c).trans (if_pos h)
  · exact (chain c).trans (if_neg h)
  · rw [slot, hsl]
    exact congrArg some (if_pos h)
  · rw [slot, hsl]
    exact congrArg some (if_neg h)
  · rw [slot, h]
    rfl

/-! ## The marks of the manual -/

/-- The names of a board field. -/
theorem fieldNames_eq (f : BoardField) : fieldNames f = alteredBy f := by
  cases f <;> rfl

/-- Two sets together meet a third where one of them does. -/
theorem namesMeet_or (a b names : NameSet) : namesMeet (a ||| b) names = (namesMeet a names || namesMeet b names) := by
  have h : (a ||| b) &&& names = a &&& names ||| b &&& names := by
    ext i
    simp [Bool.and_or_distrib_right]
  have hz : (a &&& names ||| b &&& names = 0) ↔ a &&& names = 0 ∧ b &&& names = 0 := BitVec.or_eq_zero_iff
  simp only [namesMeet, h, ne_eq, hz, Bool.decide_and, decide_not, Bool.not_and]

/-- Names gathered from a list meet a set where one of the list does. -/
theorem namesMeet_foldl (l : List NameSet) (names : NameSet) : ∀ acc : NameSet,
    namesMeet (l.foldl (· ||| ·) acc) names = (namesMeet acc names || l.any (fun x => namesMeet x names)) := by
  induction l with
  | nil => simp
  | cons x rest ih => exact fun acc => by rw [List.foldl_cons, ih, List.any_cons, namesMeet_or, Bool.or_assoc]

/-- A change set at a slot (R96, R98). -/
theorem quoteMark_eq (n : Nat) (names : NameSet) (period : Nat) (sl : Slot) :
    (if quotesRecord n sl then slotTakes names period sl else sl) = quoteMark n names period sl := by
  obtain ⟨chain, start, kind, dirty, flash⟩ := sl
  cases kind with
  | quote record fields gap lamp enabled =>
    have hmeet : namesMeet (slotNames { chain, start, kind := .quote record fields gap lamp enabled, dirty, flash })
        names = (fields.any (fun f => alteredBy f &&& names ≠ 0) || (lamp.isSome && decide (names &&& 0x412 ≠ 0))) := by
      have hz : namesMeet 0 names = false := by simp [namesMeet]
      simp only [slotNames, namesMeet_or, namesMeet_foldl, hz, Bool.false_or, List.any_map]
      have hf : (fun x => namesMeet x names) ∘ fieldNames = fun f => decide (alteredBy f &&& names ≠ 0) := by
        funext f
        simp [namesMeet, fieldNames_eq]
      rw [hf]
      congr 1
      · cases lamp
        · simpa [nameIf] using hz
        · simp [nameIf, namesMeet, nameTick, nameState, nameStale, BitVec.and_comm]
    by_cases hr : record = n
    · simp only [quotesRecord, hr, beq_self_eq_true, if_true, slotTakes, quoteMark] at hmeet ⊢
      rw [hmeet]
      have hl : namesMeet names nameLast = decide (names &&& 0x004 ≠ 0) := rfl
      rw [hl]
      generalize (fields.any _ || _) = touched
      generalize decide (names &&& 0x004 ≠ 0) = last
      generalize decide (period ≠ 0) = period'
      cases touched <;> cases last <;> cases enabled <;> cases period' <;>
        simp [flashEnabled, dirtied, startTimer]
    · simp [quotesRecord, quoteMark, hr]
  | message width stack => rfl
  | clock => rfl
  | status => rfl

/-- A change set that is not empty, handed on: the marks of the QUOTE slots and of the rows of its record. -/
theorem handNames_eq (n : Nat) {names : NameSet} (h : names ≠ 0) (s : State) :
    handNames n names s
      = { markedBoards (quoteMark n names (param s 5)) s with line := lineWithNames n names s.line } := by
  simp only [handNames, h, if_false, rowsTakeNames_frame, slotsTakeNames, markSlots_eq, quoteMark_eq]
  rfl

/-- A deletion handed on: the marks of the QUOTE slots and of the rows of its record. -/
theorem handDeletion_eq (n : Nat) (s : State) :
    handDeletion n s = { markedBoards (deletionMark n) s with line := lineWithDeletion n s.line } := by
  have h : (fun sl => if quotesRecord n sl then { dirtied sl with flash := none } else sl) = deletionMark n := by
    funext sl
    obtain ⟨chain, start, kind, dirty, flash⟩ := sl
    cases kind <;> simp [quotesRecord, deletionMark, dirtied]
  simp only [handDeletion, rowsTakeDeletion_frame, slotsTakeDeletion, markSlots_eq, h]
  rfl

/-- The mark of the STATUS slots. -/
theorem markStatus_eq (s : State) : markStatus s = markedBoards statusMark s := by
  simp only [markStatus, markSlots_eq]
  congr 1
  funext sl
  simp [statusMark, dirtied]

/-- The mark of every slot. -/
theorem markAllSlots_eq (s : State) : markAllSlots s = markedBoards (fun sl => { sl with dirty := true }) s := by
  simp only [markAllSlots, markSlots_eq]
  rfl

/-! ## Marks in turn -/

/-- One turn taken: the state brought to what a snapshot reads, and the slots marked. -/
def turnTaken (v : State) (turn : Turn) : State := markedBoards turn.mark (turn.reads v)

/-- A turn that leaves the terminal line alone, and does the same whatever the line holds. -/
abbrev LineBlind (turn : Turn) : Prop :=
  ∀ (v : State) (l : TerminalLine), turn.reads { v with line := l } = { turn.reads v with line := l }

/-- Turns taken leave the terminal line alone. -/
theorem turnsTaken_line (turns : List Turn) (h : ∀ turn ∈ turns, LineBlind turn) (l : TerminalLine) : ∀ v : State,
    turns.foldl turnTaken { v with line := l } = { turns.foldl turnTaken v with line := l } := by
  induction turns with
  | nil => exact fun _ => rfl
  | cons turn rest ih =>
    intro v
    have hturn : turnTaken { v with line := l } turn = { turnTaken v turn with line := l } := by
      simp only [turnTaken, h turn List.mem_cons_self v l, markedBoards_line]
    rw [List.foldl_cons, hturn, ih (fun t ht => h t (List.mem_cons_of_mem _ ht)), List.foldl_cons]

/-- A change of every record in turn is the turns of each, with what the line comes to. `one` changes a record `e` of
a state that it finds as `good` says, by the turns `turnsOf e`, and the others find it so, too. -/
theorem turns_of_records {one : State → Nat → State} {turnsOf : Nat × QuoteRecord → List Turn} {good : State → Prop}
    (hblind : ∀ e, ∀ turn ∈ turnsOf e, LineBlind turn)
    (hone : ∀ e v, good v → tableGet v.records e.1 = some e.2 →
      ∃ l, one v e.1 = { (turnsOf e).foldl turnTaken v with line := l } ∧ good (one v e.1)
        ∧ ∀ m, m ≠ e.1 → tableGet (one v e.1).records m = tableGet v.records m) :
    ∀ (es : List (Nat × QuoteRecord)) (v : State), (es.map Prod.fst).Nodup → good v →
      (∀ e ∈ es, tableGet v.records e.1 = some e.2) →
      ∃ l, (es.map Prod.fst).foldl one v = { (es.flatMap turnsOf).foldl turnTaken v with line := l } := by
  intro es
  induction es with
  | nil => exact fun v _ _ _ => ⟨v.line, rfl⟩
  | cons e rest ih =>
    intro v hn hg hget
    obtain ⟨l, hl, hg', hothers⟩ := hone e v hg (hget e List.mem_cons_self)
    have hnot : e.1 ∉ rest.map Prod.fst := (List.nodup_cons.mp hn).1
    obtain ⟨l', hl'⟩ := ih (one v e.1) (List.nodup_cons.mp hn).2 hg' (fun x hx => by
      rw [hothers x.1 (fun he => hnot (he ▸ List.mem_map_of_mem hx))]
      exact hget x (List.mem_cons_of_mem _ hx))
    refine ⟨l', ?_⟩
    have hrest : ∀ turn ∈ rest.flatMap turnsOf, LineBlind turn := by
      intro turn ht
      obtain ⟨x, _, hx⟩ := List.mem_flatMap.mp ht
      exact hblind x turn hx
    rw [List.map_cons, List.foldl_cons, hl', hl, turnsTaken_line _ hrest, List.flatMap_cons, List.foldl_append]

/-- A record update with a change set that is not empty is one turn, and the mark of the rows. -/
theorem updateRecord_turn (n : Nat) (r : QuoteRecord) {names : NameSet} (h : names ≠ 0) (v : State) :
    updateRecord n r names v
      = { turnTaken v (recordTurn n r names (param v 5)) with line := lineWithNames n names v.line } :=
  handNames_eq n h _

/-- The stale marking of every record, told whole but for the line: the turns of `staleTurns`. -/
theorem markAllStale_turns {s : State} (h : (s.records.map Prod.fst).Nodup) :
    ∃ l, markAllStale s = { (staleTurns s).foldl turnTaken s with line := l } := by
  let turnsOf (e : Nat × QuoteRecord) : List Turn :=
    if e.2.stale then [] else [recordTurn e.1 { e.2 with stale := true } nameStale (param s 5)]
  have hturns : staleTurns s = s.records.flatMap turnsOf := by
    simp only [staleTurns, turnsOf]
    induction s.records with
    | nil => rfl
    | cons e rest ih => cases he : e.2.stale <;> simp [he, ih]
  rw [hturns]
  refine turns_of_records (good := fun v => param v 5 = param s 5) ?_ ?_ s.records s h rfl
    (fun e he => tableGet_of_mem h he)
  · intro e turn ht v l
    cases he : e.2.stale
    · simp only [turnsOf, he, Bool.false_eq_true, if_false, List.mem_singleton] at ht
      subst ht
      rfl
    · simp [turnsOf, he] at ht
  · intro e v hg hget
    cases he : e.2.stale
    · have hone : markStale v e.1 = updateRecord e.1 { e.2 with stale := true } nameStale v := by
        simp [markStale, hget, he]
      rw [hone]
      refine ⟨lineWithNames e.1 nameStale v.line, ?_, ?_, fun m hm => ?_⟩
      · rw [updateRecord_turn _ _ (by decide), hg]
        simp [turnsOf, he]
      · rw [updateRecord_frame]
        exact hg
      · rw [updateRecord_frame]
        exact tableGet_tableSet_of_ne _ _ hm
    · have hone : markStale v e.1 = v := by simp [markStale, hget, he]
      rw [hone]
      exact ⟨v.line, by simp [turnsOf, he], hg, fun _ _ => rfl⟩

/-- The record after the day reset, as the model and as the manual spell it (R22). -/
theorem dayResetRecord_eq (lost : Bool) (r : QuoteRecord) : dayResetRecord lost r = dayRecord lost r := by
  obtain ⟨_, _, _, _, _, last, _, _, _, _, _, _, _, _, _, stale, _, _, _⟩ := r
  cases last <;> cases lost <;> simp [dayResetRecord, dayRecord]

/-- The day reset of the records, told whole but for the line: the turns of its records. -/
theorem recordsDayReset_turns {s : State} (h : (s.records.map Prod.fst).Nodup) :
    ∃ l, recordsDayReset s = { (s.records.map (fun e =>
      recordTurn e.1 (dayRecord (decide (s.feed.feedState = .lost)) e.2) allNames (param s 5))).foldl turnTaken s
        with line := l } := by
  rw [← List.flatMap_singleton' (l := s.records.map _), List.flatMap_map]
  refine turns_of_records (good := fun v => param v 5 = param s 5 ∧ feedLost v = decide (s.feed.feedState = .lost))
    ?_ ?_ s.records s h ⟨rfl, rfl⟩ (fun e he => tableGet_of_mem h he)
  · intro e turn ht v l
    rw [List.mem_singleton] at ht
    subst ht
    rfl
  · intro e v hg hget
    have hone : dayResetOne v e.1 = updateRecord e.1 (dayRecord (decide (s.feed.feedState = .lost)) e.2) allNames v := by
      simp only [dayResetOne, hget, dayResetRecord_eq, hg.2]
    rw [hone]
    refine ⟨lineWithNames e.1 allNames v.line, ?_, ?_, fun m hm => ?_⟩
    · rw [updateRecord_turn _ _ (by decide), hg.1]
      rfl
    · rw [updateRecord_frame]
      exact hg
    · rw [updateRecord_frame]
      exact tableGet_tableSet_of_ne _ _ hm

/-! ## What a snapshot reads -/

/-- Two states in which a snapshot reads the same, with the same boards. -/
structure SameShown (v w : State) : Prop where
  records : w.records = v.records
  feedState : w.feed.feedState = v.feed.feedState
  time : w.time = v.time
  bulletins : w.bulletins = v.bulletins
  level : w.ticker.level = v.ticker.level
  lateMinutes : w.ticker.lateMinutes = v.ticker.lateMinutes
  chains : w.chains = v.chains
  slots : w.slots = v.slots

/-- A snapshot reads no more of the state (R100 to R105). -/
theorem SameShown.composeImage_eq {v w : State} (h : SameShown v w) (c : ChainId) (list : List ModuleKind) :
    composeImage w c list = composeImage v c list := by
  have hs : statusText w = statusText v := by
    simp only [statusText, h.feedState, h.time, h.level, h.lateMinutes]
  have hk (k : SlotKind) : slotCells w k = slotCells v k := by
    cases k <;> simp only [slotCells, hs, h.records, h.bulletins, h.time]
  have hl (sl : Slot) : slotLamp w sl = slotLamp v sl := by simp only [slotLamp, h.records]
  simp only [composeImage]
  congr 1
  funext x
  rcases x with ⟨m, cell | cell | _⟩
  · simp only [renderStage, renderCell, h.slots, hk]
  · simp only [renderStage, renderLamp, h.slots, hl]
  · rfl

/-- A refresh starts alike. -/
theorem SameShown.startedChain_eq {v w : State} (h : SameShown v w) (c : ChainId) :
    startedChain c w = startedChain c v := by
  have hch : w.chains[c] = v.chains[c] := by rw [h.chains]
  have hcy : cycleOf c w = cycleOf c v := by simp only [cycleOf, h.composeImage_eq, hch]
  simp only [startedChain, hcy, hch]

/-- The chains told of an event do alike. -/
theorem SameShown.told {v w : State} (h : SameShown v w) : SameShown (chainsTold v) (chainsTold w) :=
  { h with
    chains := by simp only [chainsTold, h.startedChain_eq, h.chains, h.slots]
    slots := by simp only [chainsTold, h.chains, h.slots] }

/-- A mark does alike. -/
theorem SameShown.marked {v w : State} (h : SameShown v w) (mark : Slot → Slot) :
    SameShown (markedBoards mark v) (markedBoards mark w) :=
  SameShown.told { h with slots := by rw [h.slots] }

/-- Turns do alike. -/
theorem SameShown.turns {v w : State} (h : SameShown v w) {turns : List Turn}
    (hr : ∀ turn ∈ turns, ∀ v w, SameShown v w → SameShown (turn.reads v) (turn.reads w)) :
    SameShown (turns.foldl turnTaken v) (turns.foldl turnTaken w) := by
  induction turns generalizing v w with
  | nil => exact h
  | cons turn rest ih =>
    exact ih ((hr turn List.mem_cons_self v w h).marked turn.mark)
      (fun t ht => hr t (List.mem_cons_of_mem _ ht))

/-- The terminal line is nothing that a snapshot reads. -/
theorem sameShown_line (v : State) (l : TerminalLine) : SameShown v { v with line := l } :=
  { records := rfl, feedState := rfl, time := rfl, bulletins := rfl, level := rfl, lateMinutes := rfl, chains := rfl,
    slots := rfl }

/-- What is shown alike twice is shown alike. -/
theorem SameShown.trans {u v w : State} (h : SameShown u v) (h' : SameShown v w) : SameShown u w :=
  { records := h'.records.trans h.records, feedState := h'.feedState.trans h.feedState, time := h'.time.trans h.time,
    bulletins := h'.bulletins.trans h.bulletins, level := h'.level.trans h.level,
    lateMinutes := h'.lateMinutes.trans h.lateMinutes, chains := h'.chains.trans h.chains,
    slots := h'.slots.trans h.slots }

/-- What the ticker does at a session change is nothing that a snapshot reads. -/
theorem sameShown_tickerSession (old new : SessionState) (v : State) : SameShown v (tickerSession old new v) := by
  simp only [tickerSession]
  split
  · split <;> exact ⟨rfl, rfl, rfl, rfl, rfl, rfl, rfl, rfl⟩
  · split <;> exact ⟨rfl, rfl, rfl, rfl, rfl, rfl, rfl, rfl⟩

/-- What the line does at a session change is its own alone. -/
theorem lineSession_frame (old : SessionState) (v : State) :
    lineSession old v = { v with line := (lineSession old v).line } := by
  simp only [lineSession]
  split
  · simp only [nightEnds]
    rw [select_frame]
    rfl
  · rfl

/-- Turns that leave the ticker alone leave it alone together. -/
theorem turnsTaken_ticker (turns : List Turn) (h : ∀ turn ∈ turns, ∀ v : State, (turn.reads v).ticker = v.ticker) :
    ∀ v : State, (turns.foldl turnTaken v).ticker = v.ticker := by
  induction turns with
  | nil => exact fun _ => rfl
  | cons turn rest ih =>
    exact fun v => (ih (fun t ht => h t (List.mem_cons_of_mem _ ht)) _).trans (h turn List.mem_cons_self v)

/-- The SESSION PRE_OPEN of a new day, at the boards: the turns of `dayTurns`. -/
theorem preOpen_turns {u : State} (h : (u.records.map Prod.fst).Nodup) :
    let v : State := { u with time := { u.time with session := .preOpen } }
    BoardsMarkedInTurn (dayTurns u) v (dayReset (handSession .closed .preOpen v)) := by
  intro v
  have h1 : SameShown (turnTaken v statusTurn) (handSession .closed .preOpen v) := by
    simp only [handSession, markStatus_eq]
    rw [lineSession_frame]
    exact (sameShown_tickerSession _ _ _).trans (sameShown_line _ _)
  have hmgmt : (handSession .closed .preOpen v).mgmt = u.mgmt := by
    simp only [handSession]
    rw [lineSession_frame]
    simp only [tickerSession]
    split <;> try split
    all_goals (simp only [onTicker, State.setTicker, markStatus]; rw [markSlots_frame])
  have hlevel : (handSession .closed .preOpen v).ticker.level = u.ticker.level := h1.level
  have hturns : dayTurns u = [statusTurn] ++ ((handSession .closed .preOpen v).records.map (fun e =>
      recordTurn e.1 (dayRecord (decide ((handSession .closed .preOpen v).feed.feedState = .lost)) e.2) allNames
        (param (handSession .closed .preOpen v) 5))
      ++ ((if (handSession .closed .preOpen v).ticker.level = 0 then [] else
          [{ reads := fun v : State => { v with ticker := { v.ticker with level := 0, lateMinutes := 0 } }, mark := statusMark }])
        ++ [{ reads := fun v : State => { v with ticker := { v.ticker with level := 0, lateMinutes := 0 } },
              mark := fun sl => { sl with dirty := true } }])) := by
    have hp : param (handSession .closed .preOpen v) 5 = param u 5 := by simp only [param, hmgmt]
    have hf : (handSession .closed .preOpen v).feed.feedState = u.feed.feedState := h1.feedState
    have hr : (handSession .closed .preOpen v).records = u.records := h1.records
    rw [hlevel, hp, hf, hr]
    simp only [dayTurns, List.append_assoc]
  obtain ⟨l, hl⟩ := recordsDayReset_turns (s := handSession .closed .preOpen v) (by rw [h1.records]; exact h)
  rw [hturns]
  generalize handSession .closed .preOpen v = s at *
  let records : List Turn := s.records.map (fun e =>
    recordTurn e.1 (dayRecord (decide (s.feed.feedState = .lost)) e.2) allNames (param s 5))
  have h2 : SameShown (records.foldl turnTaken (turnTaken v statusTurn)) (recordsDayReset s) := by
    rw [hl]
    refine (h1.turns (turns := records) fun turn ht x y hxy => ?_).trans (sameShown_line _ l)
    obtain ⟨e, _, rfl⟩ := List.mem_map.mp ht
    exact { hxy with records := by simp only [recordTurn, hxy.records] }
  have h3 : (recordsDayReset s).ticker.level = s.ticker.level := by
    rw [hl]
    exact congrArg Ticker.level (turnsTaken_ticker records (fun turn ht x => by
      obtain ⟨e, _, rfl⟩ := List.mem_map.mp ht
      rfl) s)
  let levelGone (x : State) : State := { x with ticker := { x.ticker with level := 0, lateMinutes := 0 } }
  have h4 : SameShown
      (levelGone ((if s.ticker.level = 0 then [] else [{ reads := levelGone, mark := statusMark }]).foldl turnTaken
        (records.foldl turnTaken (turnTaken v statusTurn))))
      (tickerDayReset (recordsDayReset s)) := by
    have h5 : SameShown (levelGone (records.foldl turnTaken (turnTaken v statusTurn)))
        (onTicker (fun t =>
          { t with queue := [], admitted := 0, printed := 0, merged := 0, omitted := 0, level := 0,
                   lateMinutes := 0 }) (recordsDayReset s)) :=
      { h2 with level := rfl, lateMinutes := rfl }
    simp only [tickerDayReset, h3]
    split
    · exact h5
    · simp only [handLevel, markStatus_eq]
      exact (h5.marked statusMark).trans (sameShown_line _ _)
  have h6 := h4.marked (fun sl => { sl with dirty := true })
  simp only [BoardsMarkedInTurn, List.foldl_append, dayReset, markAllSlots_eq]
  exact ⟨h6.chains, h6.slots⟩

/-- The loss of the feed, at the boards: the stale marks, and then the STATUS slots. -/
theorem feedLoss_turns {s : State} (h : (s.records.map Prod.fst).Nodup) :
    BoardsMarkedInTurn (staleTurns s ++ [statusTurn]) s (handFeedState .lost (markAllStale s)) := by
  obtain ⟨l, hl⟩ := markAllStale_turns h
  have h1 : SameShown ((staleTurns s).foldl turnTaken s) (markAllStale s) := by
    rw [hl]
    exact sameShown_line _ l
  have h2 := h1.marked statusMark
  simp only [handFeedState, if_true]
  rw [offerText_frame, statusLinesPending_frame, markStatus_eq]
  simp only [BoardsMarkedInTurn, List.foldl_append]
  exact ⟨h2.chains, h2.slots⟩

/-- A rename, at the boards: the deletion, and then the set of every name. -/
theorem rename_turns (n : Nat) (v : State) :
    BoardsMarkedInTurn [{ reads := id, mark := deletionMark n }, { reads := id, mark := quoteMark n allNames (param v 5) }] v
      (handNames n allNames (handDeletion n v)) := by
  rw [handNames_eq n (by decide), handDeletion_eq]
  exact ⟨rfl, rfl⟩

/-! ## What several marks leave at the slots -/

/-- A mark that keeps what a slot is, and whose flash hangs on that and on the flash before. -/
structure Marks (mark : Slot → Slot) : Prop where
  keeps : ∀ sl, description (mark sl) = description sl
  flash : ∀ a b, description a = description b → a.flash = b.flash → (mark a).flash = (mark b).flash

/-- One mark stands. -/
theorem marksStand_marked {mark : Slot → Slot} (h : Marks mark) (v : State) : MarksStand mark v (markedBoards mark v) := by
  intro n sl hsl
  obtain ⟨hw, hn⟩ := ((boardsMarked_markedBoards mark v).2 n).1 sl hsl
  have hc : (mark sl).chain = sl.chain := congrArg Prod.fst (h.keeps sl)
  by_cases hwoken : (v.chains[(mark sl).chain]).state = .idle
      ∧ ((v.chains[(mark sl).chain]).resync = true
        ∨ ∃ e ∈ v.slots.map (fun e => (e.1, mark e.2)), e.2.chain = (mark sl).chain ∧ e.2.dirty = true)
  · refine ⟨_, hw hwoken, h.keeps sl, rfl, fun hi => absurd ?_ hi⟩
    simpa only [hc] using hwoken.1
  · exact ⟨_, hn hwoken, h.keeps sl, rfl, fun _ => rfl⟩

/-- Marks that stand one after the other stand together. -/
theorem marksStand_then {m₁ m₂ : Slot → Slot} {u v w : State} (h₁ : MarksStand m₁ u v) (h₂ : MarksStand m₂ v w)
    (hm₁ : Marks m₁) (hm₂ : Marks m₂) (hc : ∀ c : ChainId, (u.chains[c]).state ≠ .idle → v.chains[c] = u.chains[c]) :
    MarksStand (fun sl => m₂ (m₁ sl)) u w := by
  intro n sl hsl
  obtain ⟨sl', hget', hd', hf', hs'⟩ := h₁ n sl hsl
  obtain ⟨sl'', hget'', hd'', hf'', hs''⟩ := h₂ n sl' hget'
  have hchain : sl'.chain = sl.chain := congrArg Prod.fst hd'
  refine ⟨sl'', hget'', hd''.trans hd', ?_, fun hi => ?_⟩
  · rw [hf'']
    exact hm₂.flash _ _ (hd'.trans (hm₁.keeps sl).symm) hf'
  · show sl'' = m₂ (m₁ sl)
    rw [← hs' hi]
    refine hs'' ?_
    simpa only [hchain, hc _ hi] using hi

/-- A mark of slots leaves a chain that is not IDLE as it was. -/
theorem markedBoards_busy (mark : Slot → Slot) {v : State} {c : ChainId} (h : (v.chains[c]).state ≠ .idle) :
    (markedBoards mark v).chains[c] = v.chains[c] :=
  ((boardsMarked_markedBoards mark v).1 c).2 (fun hw => h hw.1)

/-- A change set is such a mark. -/
theorem marks_quoteMark (n : Nat) (names : NameSet) (period : Nat) : Marks (quoteMark n names period) := by
  refine ⟨fun sl => ?_, fun a b hd hf => ?_⟩
  · obtain ⟨_, _, kind, _, _⟩ := sl
    cases kind
    all_goals simp only [quoteMark]
    all_goals try split
    all_goals rfl
  · obtain ⟨_, _, kind, _, _⟩ := a
    obtain ⟨_, _, kind', _, _⟩ := b
    obtain ⟨-, -, rfl⟩ : _ ∧ _ ∧ kind = kind' := by simpa [description] using hd
    cases kind
    all_goals simp only [quoteMark]
    all_goals try split
    all_goals simp_all

/-- A deletion is such a mark. -/
theorem marks_deletionMark (n : Nat) : Marks (deletionMark n) := by
  refine ⟨fun sl => ?_, fun a b hd hf => ?_⟩
  · obtain ⟨_, _, kind, _, _⟩ := sl
    cases kind
    all_goals simp only [deletionMark]
    all_goals try split
    all_goals rfl
  · obtain ⟨_, _, kind, _, _⟩ := a
    obtain ⟨_, _, kind', _, _⟩ := b
    obtain ⟨-, -, rfl⟩ : _ ∧ _ ∧ kind = kind' := by simpa [description] using hd
    cases kind
    all_goals simp only [deletionMark]
    all_goals try split
    all_goals simp_all

/-- The mark of the STATUS slots is such a mark. -/
theorem marks_statusMark : Marks statusMark := by
  refine ⟨fun sl => ?_, fun a b _ hf => ?_⟩
  · simp only [statusMark]
    split <;> rfl
  · simp only [statusMark]
    split <;> split <;> exact hf

/-- A slot after a stale marking of the records of a list: that of `staleMark`, for a record that the list names. -/
def staleMarkOf (ns : List Nat) (v : State) (sl : Slot) : Slot :=
  match sl.kind with
  | .quote n _ _ (some _) _ =>
    { sl with dirty := sl.dirty || (decide (n ∈ ns) && (tableGet v.records n).any (fun r => !r.stale)) }
  | .quote _ _ _ none _ => sl
  | .message _ _ => sl
  | .clock => sl
  | .status => sl

/-- A stale marking is such a mark. -/
theorem marks_staleMarkOf (ns : List Nat) (v : State) : Marks (staleMarkOf ns v) := by
  refine ⟨fun sl => ?_, fun a b _ hf => ?_⟩
  · simp only [staleMarkOf]
    split <;> rfl
  · simp only [staleMarkOf]
    split <;> split <;> exact hf

/-- What STALE alone does to a slot (R96, R98). -/
theorem quoteMark_stale (n period : Nat) (sl : Slot) :
    quoteMark n nameStale period sl = match sl.kind with
      | .quote m _ _ (some _) _ => if m = n then { sl with dirty := true } else sl
      | .quote _ _ _ none _ => sl
      | .message _ _ => sl
      | .clock => sl
      | .status => sl := by
  obtain ⟨chain, start, kind, dirty, flash⟩ := sl
  have hf (f : BoardField) : alteredBy f &&& 1024#12 = 0#12 := by cases f <;> rfl
  cases kind with
  | quote m fields gap lamp enabled =>
    cases lamp <;> by_cases h : m = n <;> simp [quoteMark, h, hf, nameStale]
  | message _ _ => rfl
  | clock => rfl
  | status => rfl

/-- The stale marking of a run of records, at the slots. -/
theorem marksStand_markStale (ns : List Nat) : ∀ v : State, MarksStand (staleMarkOf ns v) v (ns.foldl markStale v) := by
  induction ns with
  | nil =>
    intro v n sl hsl
    have h : staleMarkOf [] v sl = sl := by
      obtain ⟨_, _, kind, _, _⟩ := sl
      rcases kind with ⟨_, _, _, _ | _, _⟩ | _ | _ | _ <;> simp [staleMarkOf]
    exact ⟨sl, hsl, rfl, by rw [h], fun _ => h.symm⟩
  | cons n rest ih =>
    intro v
    rw [List.foldl_cons]
    by_cases hfresh : (tableGet v.records n).any (fun r => !r.stale) = true
    · obtain ⟨r, hr, hst⟩ := (Option.any_eq_true _ _).mp hfresh
      have hone : markStale v n = updateRecord n { r with stale := true } nameStale v := by
        simp only [Bool.not_eq_true'] at hst
        simp [markStale, hr, hst]
      have hfirst : MarksStand (quoteMark n nameStale (param v 5)) v (markStale v n) := by
        rw [hone, updateRecord_turn _ _ (by decide)]
        exact marksStand_marked (marks_quoteMark n nameStale _) { v with records := tableSet v.records n { r with stale := true } }
      have hbusy (c : ChainId) (h : (v.chains[c]).state ≠ .idle) : (markStale v n).chains[c] = v.chains[c] := by
        rw [hone, updateRecord_turn _ _ (by decide)]
        exact markedBoards_busy (v := { v with records := tableSet v.records n { r with stale := true } }) _ h
      have h := marksStand_then hfirst (ih _) (marks_quoteMark _ _ _) (marks_staleMarkOf _ _) hbusy
      have heq : (fun sl => staleMarkOf rest (markStale v n) (quoteMark n nameStale (param v 5) sl))
          = staleMarkOf (n :: rest) v := by
        funext sl
        rw [quoteMark_stale]
        obtain ⟨chain, start, kind, dirty, flash⟩ := sl
        rcases kind with ⟨m, fields, gap, lamp | lamp, enabled⟩ | _ | _ | _
        · rfl
        · by_cases hm : m = n
          · subst hm
            simp [staleMarkOf, hfresh]
          · simp [staleMarkOf, hm, tableGet_markStale]
        · rfl
        · rfl
        · rfl
      rwa [heq] at h
    · have hone : markStale v n = v := by
        simp only [markStale]
        cases hr : tableGet v.records n with
        | none => rfl
        | some r => simp_all
      have heq : staleMarkOf (n :: rest) v = staleMarkOf rest v := by
        funext sl
        obtain ⟨chain, start, kind, dirty, flash⟩ := sl
        rcases kind with ⟨m, fields, gap, lamp | lamp, enabled⟩ | _ | _ | _
        · rfl
        · by_cases hm : m = n
          · subst hm
            simp [staleMarkOf, hfresh]
          · simp [staleMarkOf, hm]
        · rfl
        · rfl
        · rfl
      rw [hone, heq]
      exact ih v

/-- The stale marking of every record, at the slots. -/
theorem marksStand_markAllStale (s : State) : MarksStand (staleMark s) s (markAllStale s) := by
  have h : staleMark s = staleMarkOf (definedNumbers s) s := by
    funext sl
    obtain ⟨chain, start, kind, dirty, flash⟩ := sl
    rcases kind with ⟨m, fields, gap, lamp | lamp, enabled⟩ | _ | _ | _
    · rfl
    · simp only [staleMark, staleMarkOf, definedNumbers, ← tableGet_isSome]
      cases tableGet s.records m <;> simp
    · rfl
    · rfl
    · rfl
  rw [h]
  exact marksStand_markStale _ s

end Sys2Proof.Machine
end

