-- ==== Sys2Proof/Laws/State.lean ====
section
/-!
SUPPORT. What each field of the state reads as after each field update: one lemma per field per update, all by
`rfl`, so that no proof unfolds a record update. `setChain`, `setTerm` and `setStack` follow, with what they
leave alone.
-/

namespace Sys2Proof.Machine

variable (s : State)

/-! ### `setPhase` -/

@[simp] theorem setPhase_phase (x : Phase) : (s.setPhase x).phase = x := rfl
@[simp] theorem setPhase_feed (x : Phase) : (s.setPhase x).feed = s.feed := rfl
@[simp] theorem setPhase_intake (x : Phase) : (s.setPhase x).intake = s.intake := rfl
@[simp] theorem setPhase_load (x : Phase) : (s.setPhase x).load = s.load := rfl
@[simp] theorem setPhase_records (x : Phase) : (s.setPhase x).records = s.records := rfl
@[simp] theorem setPhase_directory (x : Phase) : (s.setPhase x).directory = s.directory := rfl
@[simp] theorem setPhase_time (x : Phase) : (s.setPhase x).time = s.time := rfl
@[simp] theorem setPhase_chains (x : Phase) : (s.setPhase x).chains = s.chains := rfl
@[simp] theorem setPhase_flashClock (x : Phase) : (s.setPhase x).flashClock = s.flashClock := rfl
@[simp] theorem setPhase_slots (x : Phase) : (s.setPhase x).slots = s.slots := rfl
@[simp] theorem setPhase_bulletins (x : Phase) : (s.setPhase x).bulletins = s.bulletins := rfl
@[simp] theorem setPhase_ticker (x : Phase) : (s.setPhase x).ticker = s.ticker := rfl
@[simp] theorem setPhase_line (x : Phase) : (s.setPhase x).line = s.line := rfl
@[simp] theorem setPhase_mgmt (x : Phase) : (s.setPhase x).mgmt = s.mgmt := rfl
@[simp] theorem setPhase_draws (x : Phase) : (s.setPhase x).draws = s.draws := rfl
@[simp] theorem setPhase_pending (x : Phase) : (s.setPhase x).pending = s.pending := rfl

/-! ### `setFeed` -/

@[simp] theorem setFeed_phase (x : Feed) : (s.setFeed x).phase = s.phase := rfl
@[simp] theorem setFeed_feed (x : Feed) : (s.setFeed x).feed = x := rfl
@[simp] theorem setFeed_intake (x : Feed) : (s.setFeed x).intake = s.intake := rfl
@[simp] theorem setFeed_load (x : Feed) : (s.setFeed x).load = s.load := rfl
@[simp] theorem setFeed_records (x : Feed) : (s.setFeed x).records = s.records := rfl
@[simp] theorem setFeed_directory (x : Feed) : (s.setFeed x).directory = s.directory := rfl
@[simp] theorem setFeed_time (x : Feed) : (s.setFeed x).time = s.time := rfl
@[simp] theorem setFeed_chains (x : Feed) : (s.setFeed x).chains = s.chains := rfl
@[simp] theorem setFeed_flashClock (x : Feed) : (s.setFeed x).flashClock = s.flashClock := rfl
@[simp] theorem setFeed_slots (x : Feed) : (s.setFeed x).slots = s.slots := rfl
@[simp] theorem setFeed_bulletins (x : Feed) : (s.setFeed x).bulletins = s.bulletins := rfl
@[simp] theorem setFeed_ticker (x : Feed) : (s.setFeed x).ticker = s.ticker := rfl
@[simp] theorem setFeed_line (x : Feed) : (s.setFeed x).line = s.line := rfl
@[simp] theorem setFeed_mgmt (x : Feed) : (s.setFeed x).mgmt = s.mgmt := rfl
@[simp] theorem setFeed_draws (x : Feed) : (s.setFeed x).draws = s.draws := rfl
@[simp] theorem setFeed_pending (x : Feed) : (s.setFeed x).pending = s.pending := rfl

/-! ### `setIntake` -/

@[simp] theorem setIntake_phase (x : List IntakeEntry) : (s.setIntake x).phase = s.phase := rfl
@[simp] theorem setIntake_feed (x : List IntakeEntry) : (s.setIntake x).feed = s.feed := rfl
@[simp] theorem setIntake_intake (x : List IntakeEntry) : (s.setIntake x).intake = x := rfl
@[simp] theorem setIntake_load (x : List IntakeEntry) : (s.setIntake x).load = s.load := rfl
@[simp] theorem setIntake_records (x : List IntakeEntry) : (s.setIntake x).records = s.records := rfl
@[simp] theorem setIntake_directory (x : List IntakeEntry) : (s.setIntake x).directory = s.directory := rfl
@[simp] theorem setIntake_time (x : List IntakeEntry) : (s.setIntake x).time = s.time := rfl
@[simp] theorem setIntake_chains (x : List IntakeEntry) : (s.setIntake x).chains = s.chains := rfl
@[simp] theorem setIntake_flashClock (x : List IntakeEntry) : (s.setIntake x).flashClock = s.flashClock := rfl
@[simp] theorem setIntake_slots (x : List IntakeEntry) : (s.setIntake x).slots = s.slots := rfl
@[simp] theorem setIntake_bulletins (x : List IntakeEntry) : (s.setIntake x).bulletins = s.bulletins := rfl
@[simp] theorem setIntake_ticker (x : List IntakeEntry) : (s.setIntake x).ticker = s.ticker := rfl
@[simp] theorem setIntake_line (x : List IntakeEntry) : (s.setIntake x).line = s.line := rfl
@[simp] theorem setIntake_mgmt (x : List IntakeEntry) : (s.setIntake x).mgmt = s.mgmt := rfl
@[simp] theorem setIntake_draws (x : List IntakeEntry) : (s.setIntake x).draws = s.draws := rfl
@[simp] theorem setIntake_pending (x : List IntakeEntry) : (s.setIntake x).pending = s.pending := rfl

/-! ### `setLoad` -/

@[simp] theorem setLoad_phase (x : Option Nat) : (s.setLoad x).phase = s.phase := rfl
@[simp] theorem setLoad_feed (x : Option Nat) : (s.setLoad x).feed = s.feed := rfl
@[simp] theorem setLoad_intake (x : Option Nat) : (s.setLoad x).intake = s.intake := rfl
@[simp] theorem setLoad_load (x : Option Nat) : (s.setLoad x).load = x := rfl
@[simp] theorem setLoad_records (x : Option Nat) : (s.setLoad x).records = s.records := rfl
@[simp] theorem setLoad_directory (x : Option Nat) : (s.setLoad x).directory = s.directory := rfl
@[simp] theorem setLoad_time (x : Option Nat) : (s.setLoad x).time = s.time := rfl
@[simp] theorem setLoad_chains (x : Option Nat) : (s.setLoad x).chains = s.chains := rfl
@[simp] theorem setLoad_flashClock (x : Option Nat) : (s.setLoad x).flashClock = s.flashClock := rfl
@[simp] theorem setLoad_slots (x : Option Nat) : (s.setLoad x).slots = s.slots := rfl
@[simp] theorem setLoad_bulletins (x : Option Nat) : (s.setLoad x).bulletins = s.bulletins := rfl
@[simp] theorem setLoad_ticker (x : Option Nat) : (s.setLoad x).ticker = s.ticker := rfl
@[simp] theorem setLoad_line (x : Option Nat) : (s.setLoad x).line = s.line := rfl
@[simp] theorem setLoad_mgmt (x : Option Nat) : (s.setLoad x).mgmt = s.mgmt := rfl
@[simp] theorem setLoad_draws (x : Option Nat) : (s.setLoad x).draws = s.draws := rfl
@[simp] theorem setLoad_pending (x : Option Nat) : (s.setLoad x).pending = s.pending := rfl

/-! ### `setRecords` -/

@[simp] theorem setRecords_phase (x : Table QuoteRecord) : (s.setRecords x).phase = s.phase := rfl
@[simp] theorem setRecords_feed (x : Table QuoteRecord) : (s.setRecords x).feed = s.feed := rfl
@[simp] theorem setRecords_intake (x : Table QuoteRecord) : (s.setRecords x).intake = s.intake := rfl
@[simp] theorem setRecords_load (x : Table QuoteRecord) : (s.setRecords x).load = s.load := rfl
@[simp] theorem setRecords_records (x : Table QuoteRecord) : (s.setRecords x).records = x := rfl
@[simp] theorem setRecords_directory (x : Table QuoteRecord) : (s.setRecords x).directory = s.directory := rfl
@[simp] theorem setRecords_time (x : Table QuoteRecord) : (s.setRecords x).time = s.time := rfl
@[simp] theorem setRecords_chains (x : Table QuoteRecord) : (s.setRecords x).chains = s.chains := rfl
@[simp] theorem setRecords_flashClock (x : Table QuoteRecord) : (s.setRecords x).flashClock = s.flashClock := rfl
@[simp] theorem setRecords_slots (x : Table QuoteRecord) : (s.setRecords x).slots = s.slots := rfl
@[simp] theorem setRecords_bulletins (x : Table QuoteRecord) : (s.setRecords x).bulletins = s.bulletins := rfl
@[simp] theorem setRecords_ticker (x : Table QuoteRecord) : (s.setRecords x).ticker = s.ticker := rfl
@[simp] theorem setRecords_line (x : Table QuoteRecord) : (s.setRecords x).line = s.line := rfl
@[simp] theorem setRecords_mgmt (x : Table QuoteRecord) : (s.setRecords x).mgmt = s.mgmt := rfl
@[simp] theorem setRecords_draws (x : Table QuoteRecord) : (s.setRecords x).draws = s.draws := rfl
@[simp] theorem setRecords_pending (x : Table QuoteRecord) : (s.setRecords x).pending = s.pending := rfl

/-! ### `setDirectory` -/

@[simp] theorem setDirectory_phase (x : List (SymbolCode × Nat)) : (s.setDirectory x).phase = s.phase := rfl
@[simp] theorem setDirectory_feed (x : List (SymbolCode × Nat)) : (s.setDirectory x).feed = s.feed := rfl
@[simp] theorem setDirectory_intake (x : List (SymbolCode × Nat)) : (s.setDirectory x).intake = s.intake := rfl
@[simp] theorem setDirectory_load (x : List (SymbolCode × Nat)) : (s.setDirectory x).load = s.load := rfl
@[simp] theorem setDirectory_records (x : List (SymbolCode × Nat)) : (s.setDirectory x).records = s.records := rfl
@[simp] theorem setDirectory_directory (x : List (SymbolCode × Nat)) : (s.setDirectory x).directory = x := rfl
@[simp] theorem setDirectory_time (x : List (SymbolCode × Nat)) : (s.setDirectory x).time = s.time := rfl
@[simp] theorem setDirectory_chains (x : List (SymbolCode × Nat)) : (s.setDirectory x).chains = s.chains := rfl
@[simp] theorem setDirectory_flashClock (x : List (SymbolCode × Nat)) : (s.setDirectory x).flashClock = s.flashClock := rfl
@[simp] theorem setDirectory_slots (x : List (SymbolCode × Nat)) : (s.setDirectory x).slots = s.slots := rfl
@[simp] theorem setDirectory_bulletins (x : List (SymbolCode × Nat)) : (s.setDirectory x).bulletins = s.bulletins := rfl
@[simp] theorem setDirectory_ticker (x : List (SymbolCode × Nat)) : (s.setDirectory x).ticker = s.ticker := rfl
@[simp] theorem setDirectory_line (x : List (SymbolCode × Nat)) : (s.setDirectory x).line = s.line := rfl
@[simp] theorem setDirectory_mgmt (x : List (SymbolCode × Nat)) : (s.setDirectory x).mgmt = s.mgmt := rfl
@[simp] theorem setDirectory_draws (x : List (SymbolCode × Nat)) : (s.setDirectory x).draws = s.draws := rfl
@[simp] theorem setDirectory_pending (x : List (SymbolCode × Nat)) : (s.setDirectory x).pending = s.pending := rfl

/-! ### `setTime` -/

@[simp] theorem setTime_phase (x : TimeBase) : (s.setTime x).phase = s.phase := rfl
@[simp] theorem setTime_feed (x : TimeBase) : (s.setTime x).feed = s.feed := rfl
@[simp] theorem setTime_intake (x : TimeBase) : (s.setTime x).intake = s.intake := rfl
@[simp] theorem setTime_load (x : TimeBase) : (s.setTime x).load = s.load := rfl
@[simp] theorem setTime_records (x : TimeBase) : (s.setTime x).records = s.records := rfl
@[simp] theorem setTime_directory (x : TimeBase) : (s.setTime x).directory = s.directory := rfl
@[simp] theorem setTime_time (x : TimeBase) : (s.setTime x).time = x := rfl
@[simp] theorem setTime_chains (x : TimeBase) : (s.setTime x).chains = s.chains := rfl
@[simp] theorem setTime_flashClock (x : TimeBase) : (s.setTime x).flashClock = s.flashClock := rfl
@[simp] theorem setTime_slots (x : TimeBase) : (s.setTime x).slots = s.slots := rfl
@[simp] theorem setTime_bulletins (x : TimeBase) : (s.setTime x).bulletins = s.bulletins := rfl
@[simp] theorem setTime_ticker (x : TimeBase) : (s.setTime x).ticker = s.ticker := rfl
@[simp] theorem setTime_line (x : TimeBase) : (s.setTime x).line = s.line := rfl
@[simp] theorem setTime_mgmt (x : TimeBase) : (s.setTime x).mgmt = s.mgmt := rfl
@[simp] theorem setTime_draws (x : TimeBase) : (s.setTime x).draws = s.draws := rfl
@[simp] theorem setTime_pending (x : TimeBase) : (s.setTime x).pending = s.pending := rfl

/-! ### `setChains` -/

@[simp] theorem setChains_phase (x : Vector Chain 4) : (s.setChains x).phase = s.phase := rfl
@[simp] theorem setChains_feed (x : Vector Chain 4) : (s.setChains x).feed = s.feed := rfl
@[simp] theorem setChains_intake (x : Vector Chain 4) : (s.setChains x).intake = s.intake := rfl
@[simp] theorem setChains_load (x : Vector Chain 4) : (s.setChains x).load = s.load := rfl
@[simp] theorem setChains_records (x : Vector Chain 4) : (s.setChains x).records = s.records := rfl
@[simp] theorem setChains_directory (x : Vector Chain 4) : (s.setChains x).directory = s.directory := rfl
@[simp] theorem setChains_time (x : Vector Chain 4) : (s.setChains x).time = s.time := rfl
@[simp] theorem setChains_chains (x : Vector Chain 4) : (s.setChains x).chains = x := rfl
@[simp] theorem setChains_flashClock (x : Vector Chain 4) : (s.setChains x).flashClock = s.flashClock := rfl
@[simp] theorem setChains_slots (x : Vector Chain 4) : (s.setChains x).slots = s.slots := rfl
@[simp] theorem setChains_bulletins (x : Vector Chain 4) : (s.setChains x).bulletins = s.bulletins := rfl
@[simp] theorem setChains_ticker (x : Vector Chain 4) : (s.setChains x).ticker = s.ticker := rfl
@[simp] theorem setChains_line (x : Vector Chain 4) : (s.setChains x).line = s.line := rfl
@[simp] theorem setChains_mgmt (x : Vector Chain 4) : (s.setChains x).mgmt = s.mgmt := rfl
@[simp] theorem setChains_draws (x : Vector Chain 4) : (s.setChains x).draws = s.draws := rfl
@[simp] theorem setChains_pending (x : Vector Chain 4) : (s.setChains x).pending = s.pending := rfl

/-! ### `setFlashClock` -/

@[simp] theorem setFlashClock_phase (x : FlashClock) : (s.setFlashClock x).phase = s.phase := rfl
@[simp] theorem setFlashClock_feed (x : FlashClock) : (s.setFlashClock x).feed = s.feed := rfl
@[simp] theorem setFlashClock_intake (x : FlashClock) : (s.setFlashClock x).intake = s.intake := rfl
@[simp] theorem setFlashClock_load (x : FlashClock) : (s.setFlashClock x).load = s.load := rfl
@[simp] theorem setFlashClock_records (x : FlashClock) : (s.setFlashClock x).records = s.records := rfl
@[simp] theorem setFlashClock_directory (x : FlashClock) : (s.setFlashClock x).directory = s.directory := rfl
@[simp] theorem setFlashClock_time (x : FlashClock) : (s.setFlashClock x).time = s.time := rfl
@[simp] theorem setFlashClock_chains (x : FlashClock) : (s.setFlashClock x).chains = s.chains := rfl
@[simp] theorem setFlashClock_flashClock (x : FlashClock) : (s.setFlashClock x).flashClock = x := rfl
@[simp] theorem setFlashClock_slots (x : FlashClock) : (s.setFlashClock x).slots = s.slots := rfl
@[simp] theorem setFlashClock_bulletins (x : FlashClock) : (s.setFlashClock x).bulletins = s.bulletins := rfl
@[simp] theorem setFlashClock_ticker (x : FlashClock) : (s.setFlashClock x).ticker = s.ticker := rfl
@[simp] theorem setFlashClock_line (x : FlashClock) : (s.setFlashClock x).line = s.line := rfl
@[simp] theorem setFlashClock_mgmt (x : FlashClock) : (s.setFlashClock x).mgmt = s.mgmt := rfl
@[simp] theorem setFlashClock_draws (x : FlashClock) : (s.setFlashClock x).draws = s.draws := rfl
@[simp] theorem setFlashClock_pending (x : FlashClock) : (s.setFlashClock x).pending = s.pending := rfl

/-! ### `setSlots` -/

@[simp] theorem setSlots_phase (x : Table Slot) : (s.setSlots x).phase = s.phase := rfl
@[simp] theorem setSlots_feed (x : Table Slot) : (s.setSlots x).feed = s.feed := rfl
@[simp] theorem setSlots_intake (x : Table Slot) : (s.setSlots x).intake = s.intake := rfl
@[simp] theorem setSlots_load (x : Table Slot) : (s.setSlots x).load = s.load := rfl
@[simp] theorem setSlots_records (x : Table Slot) : (s.setSlots x).records = s.records := rfl
@[simp] theorem setSlots_directory (x : Table Slot) : (s.setSlots x).directory = s.directory := rfl
@[simp] theorem setSlots_time (x : Table Slot) : (s.setSlots x).time = s.time := rfl
@[simp] theorem setSlots_chains (x : Table Slot) : (s.setSlots x).chains = s.chains := rfl
@[simp] theorem setSlots_flashClock (x : Table Slot) : (s.setSlots x).flashClock = s.flashClock := rfl
@[simp] theorem setSlots_slots (x : Table Slot) : (s.setSlots x).slots = x := rfl
@[simp] theorem setSlots_bulletins (x : Table Slot) : (s.setSlots x).bulletins = s.bulletins := rfl
@[simp] theorem setSlots_ticker (x : Table Slot) : (s.setSlots x).ticker = s.ticker := rfl
@[simp] theorem setSlots_line (x : Table Slot) : (s.setSlots x).line = s.line := rfl
@[simp] theorem setSlots_mgmt (x : Table Slot) : (s.setSlots x).mgmt = s.mgmt := rfl
@[simp] theorem setSlots_draws (x : Table Slot) : (s.setSlots x).draws = s.draws := rfl
@[simp] theorem setSlots_pending (x : Table Slot) : (s.setSlots x).pending = s.pending := rfl

/-! ### `setBulletins` -/

@[simp] theorem setBulletins_phase (x : Vector (List BulletinEntry) 8) : (s.setBulletins x).phase = s.phase := rfl
@[simp] theorem setBulletins_feed (x : Vector (List BulletinEntry) 8) : (s.setBulletins x).feed = s.feed := rfl
@[simp] theorem setBulletins_intake (x : Vector (List BulletinEntry) 8) : (s.setBulletins x).intake = s.intake := rfl
@[simp] theorem setBulletins_load (x : Vector (List BulletinEntry) 8) : (s.setBulletins x).load = s.load := rfl
@[simp] theorem setBulletins_records (x : Vector (List BulletinEntry) 8) : (s.setBulletins x).records = s.records := rfl
@[simp] theorem setBulletins_directory (x : Vector (List BulletinEntry) 8) : (s.setBulletins x).directory = s.directory := rfl
@[simp] theorem setBulletins_time (x : Vector (List BulletinEntry) 8) : (s.setBulletins x).time = s.time := rfl
@[simp] theorem setBulletins_chains (x : Vector (List BulletinEntry) 8) : (s.setBulletins x).chains = s.chains := rfl
@[simp] theorem setBulletins_flashClock (x : Vector (List BulletinEntry) 8) : (s.setBulletins x).flashClock = s.flashClock := rfl
@[simp] theorem setBulletins_slots (x : Vector (List BulletinEntry) 8) : (s.setBulletins x).slots = s.slots := rfl
@[simp] theorem setBulletins_bulletins (x : Vector (List BulletinEntry) 8) : (s.setBulletins x).bulletins = x := rfl
@[simp] theorem setBulletins_ticker (x : Vector (List BulletinEntry) 8) : (s.setBulletins x).ticker = s.ticker := rfl
@[simp] theorem setBulletins_line (x : Vector (List BulletinEntry) 8) : (s.setBulletins x).line = s.line := rfl
@[simp] theorem setBulletins_mgmt (x : Vector (List BulletinEntry) 8) : (s.setBulletins x).mgmt = s.mgmt := rfl
@[simp] theorem setBulletins_draws (x : Vector (List BulletinEntry) 8) : (s.setBulletins x).draws = s.draws := rfl
@[simp] theorem setBulletins_pending (x : Vector (List BulletinEntry) 8) : (s.setBulletins x).pending = s.pending := rfl

/-! ### `setTicker` -/

@[simp] theorem setTicker_phase (x : Ticker) : (s.setTicker x).phase = s.phase := rfl
@[simp] theorem setTicker_feed (x : Ticker) : (s.setTicker x).feed = s.feed := rfl
@[simp] theorem setTicker_intake (x : Ticker) : (s.setTicker x).intake = s.intake := rfl
@[simp] theorem setTicker_load (x : Ticker) : (s.setTicker x).load = s.load := rfl
@[simp] theorem setTicker_records (x : Ticker) : (s.setTicker x).records = s.records := rfl
@[simp] theorem setTicker_directory (x : Ticker) : (s.setTicker x).directory = s.directory := rfl
@[simp] theorem setTicker_time (x : Ticker) : (s.setTicker x).time = s.time := rfl
@[simp] theorem setTicker_chains (x : Ticker) : (s.setTicker x).chains = s.chains := rfl
@[simp] theorem setTicker_flashClock (x : Ticker) : (s.setTicker x).flashClock = s.flashClock := rfl
@[simp] theorem setTicker_slots (x : Ticker) : (s.setTicker x).slots = s.slots := rfl
@[simp] theorem setTicker_bulletins (x : Ticker) : (s.setTicker x).bulletins = s.bulletins := rfl
@[simp] theorem setTicker_ticker (x : Ticker) : (s.setTicker x).ticker = x := rfl
@[simp] theorem setTicker_line (x : Ticker) : (s.setTicker x).line = s.line := rfl
@[simp] theorem setTicker_mgmt (x : Ticker) : (s.setTicker x).mgmt = s.mgmt := rfl
@[simp] theorem setTicker_draws (x : Ticker) : (s.setTicker x).draws = s.draws := rfl
@[simp] theorem setTicker_pending (x : Ticker) : (s.setTicker x).pending = s.pending := rfl

/-! ### `setLine` -/

@[simp] theorem setLine_phase (x : TerminalLine) : (s.setLine x).phase = s.phase := rfl
@[simp] theorem setLine_feed (x : TerminalLine) : (s.setLine x).feed = s.feed := rfl
@[simp] theorem setLine_intake (x : TerminalLine) : (s.setLine x).intake = s.intake := rfl
@[simp] theorem setLine_load (x : TerminalLine) : (s.setLine x).load = s.load := rfl
@[simp] theorem setLine_records (x : TerminalLine) : (s.setLine x).records = s.records := rfl
@[simp] theorem setLine_directory (x : TerminalLine) : (s.setLine x).directory = s.directory := rfl
@[simp] theorem setLine_time (x : TerminalLine) : (s.setLine x).time = s.time := rfl
@[simp] theorem setLine_chains (x : TerminalLine) : (s.setLine x).chains = s.chains := rfl
@[simp] theorem setLine_flashClock (x : TerminalLine) : (s.setLine x).flashClock = s.flashClock := rfl
@[simp] theorem setLine_slots (x : TerminalLine) : (s.setLine x).slots = s.slots := rfl
@[simp] theorem setLine_bulletins (x : TerminalLine) : (s.setLine x).bulletins = s.bulletins := rfl
@[simp] theorem setLine_ticker (x : TerminalLine) : (s.setLine x).ticker = s.ticker := rfl
@[simp] theorem setLine_line (x : TerminalLine) : (s.setLine x).line = x := rfl
@[simp] theorem setLine_mgmt (x : TerminalLine) : (s.setLine x).mgmt = s.mgmt := rfl
@[simp] theorem setLine_draws (x : TerminalLine) : (s.setLine x).draws = s.draws := rfl
@[simp] theorem setLine_pending (x : TerminalLine) : (s.setLine x).pending = s.pending := rfl

/-! ### `setMgmt` -/

@[simp] theorem setMgmt_phase (x : Management) : (s.setMgmt x).phase = s.phase := rfl
@[simp] theorem setMgmt_feed (x : Management) : (s.setMgmt x).feed = s.feed := rfl
@[simp] theorem setMgmt_intake (x : Management) : (s.setMgmt x).intake = s.intake := rfl
@[simp] theorem setMgmt_load (x : Management) : (s.setMgmt x).load = s.load := rfl
@[simp] theorem setMgmt_records (x : Management) : (s.setMgmt x).records = s.records := rfl
@[simp] theorem setMgmt_directory (x : Management) : (s.setMgmt x).directory = s.directory := rfl
@[simp] theorem setMgmt_time (x : Management) : (s.setMgmt x).time = s.time := rfl
@[simp] theorem setMgmt_chains (x : Management) : (s.setMgmt x).chains = s.chains := rfl
@[simp] theorem setMgmt_flashClock (x : Management) : (s.setMgmt x).flashClock = s.flashClock := rfl
@[simp] theorem setMgmt_slots (x : Management) : (s.setMgmt x).slots = s.slots := rfl
@[simp] theorem setMgmt_bulletins (x : Management) : (s.setMgmt x).bulletins = s.bulletins := rfl
@[simp] theorem setMgmt_ticker (x : Management) : (s.setMgmt x).ticker = s.ticker := rfl
@[simp] theorem setMgmt_line (x : Management) : (s.setMgmt x).line = s.line := rfl
@[simp] theorem setMgmt_mgmt (x : Management) : (s.setMgmt x).mgmt = x := rfl
@[simp] theorem setMgmt_draws (x : Management) : (s.setMgmt x).draws = s.draws := rfl
@[simp] theorem setMgmt_pending (x : Management) : (s.setMgmt x).pending = s.pending := rfl

/-! ### `setDraws` -/

@[simp] theorem setDraws_phase (x : Nat) : (s.setDraws x).phase = s.phase := rfl
@[simp] theorem setDraws_feed (x : Nat) : (s.setDraws x).feed = s.feed := rfl
@[simp] theorem setDraws_intake (x : Nat) : (s.setDraws x).intake = s.intake := rfl
@[simp] theorem setDraws_load (x : Nat) : (s.setDraws x).load = s.load := rfl
@[simp] theorem setDraws_records (x : Nat) : (s.setDraws x).records = s.records := rfl
@[simp] theorem setDraws_directory (x : Nat) : (s.setDraws x).directory = s.directory := rfl
@[simp] theorem setDraws_time (x : Nat) : (s.setDraws x).time = s.time := rfl
@[simp] theorem setDraws_chains (x : Nat) : (s.setDraws x).chains = s.chains := rfl
@[simp] theorem setDraws_flashClock (x : Nat) : (s.setDraws x).flashClock = s.flashClock := rfl
@[simp] theorem setDraws_slots (x : Nat) : (s.setDraws x).slots = s.slots := rfl
@[simp] theorem setDraws_bulletins (x : Nat) : (s.setDraws x).bulletins = s.bulletins := rfl
@[simp] theorem setDraws_ticker (x : Nat) : (s.setDraws x).ticker = s.ticker := rfl
@[simp] theorem setDraws_line (x : Nat) : (s.setDraws x).line = s.line := rfl
@[simp] theorem setDraws_mgmt (x : Nat) : (s.setDraws x).mgmt = s.mgmt := rfl
@[simp] theorem setDraws_draws (x : Nat) : (s.setDraws x).draws = x := rfl
@[simp] theorem setDraws_pending (x : Nat) : (s.setDraws x).pending = s.pending := rfl

/-! ### `setPending` -/

@[simp] theorem setPending_phase (x : List Instr) : (s.setPending x).phase = s.phase := rfl
@[simp] theorem setPending_feed (x : List Instr) : (s.setPending x).feed = s.feed := rfl
@[simp] theorem setPending_intake (x : List Instr) : (s.setPending x).intake = s.intake := rfl
@[simp] theorem setPending_load (x : List Instr) : (s.setPending x).load = s.load := rfl
@[simp] theorem setPending_records (x : List Instr) : (s.setPending x).records = s.records := rfl
@[simp] theorem setPending_directory (x : List Instr) : (s.setPending x).directory = s.directory := rfl
@[simp] theorem setPending_time (x : List Instr) : (s.setPending x).time = s.time := rfl
@[simp] theorem setPending_chains (x : List Instr) : (s.setPending x).chains = s.chains := rfl
@[simp] theorem setPending_flashClock (x : List Instr) : (s.setPending x).flashClock = s.flashClock := rfl
@[simp] theorem setPending_slots (x : List Instr) : (s.setPending x).slots = s.slots := rfl
@[simp] theorem setPending_bulletins (x : List Instr) : (s.setPending x).bulletins = s.bulletins := rfl
@[simp] theorem setPending_ticker (x : List Instr) : (s.setPending x).ticker = s.ticker := rfl
@[simp] theorem setPending_line (x : List Instr) : (s.setPending x).line = s.line := rfl
@[simp] theorem setPending_mgmt (x : List Instr) : (s.setPending x).mgmt = s.mgmt := rfl
@[simp] theorem setPending_draws (x : List Instr) : (s.setPending x).draws = s.draws := rfl
@[simp] theorem setPending_pending (x : List Instr) : (s.setPending x).pending = x := rfl

/-! ### `setChain` -/

@[simp] theorem setChain_phase (c : ChainId) (x : Chain) : (s.setChain c x).phase = s.phase := rfl
@[simp] theorem setChain_feed (c : ChainId) (x : Chain) : (s.setChain c x).feed = s.feed := rfl
@[simp] theorem setChain_intake (c : ChainId) (x : Chain) : (s.setChain c x).intake = s.intake := rfl
@[simp] theorem setChain_load (c : ChainId) (x : Chain) : (s.setChain c x).load = s.load := rfl
@[simp] theorem setChain_records (c : ChainId) (x : Chain) : (s.setChain c x).records = s.records := rfl
@[simp] theorem setChain_directory (c : ChainId) (x : Chain) : (s.setChain c x).directory = s.directory := rfl
@[simp] theorem setChain_time (c : ChainId) (x : Chain) : (s.setChain c x).time = s.time := rfl
@[simp] theorem setChain_chains (c : ChainId) (x : Chain) : (s.setChain c x).chains = s.chains.set c x := rfl
@[simp] theorem setChain_flashClock (c : ChainId) (x : Chain) : (s.setChain c x).flashClock = s.flashClock := rfl
@[simp] theorem setChain_slots (c : ChainId) (x : Chain) : (s.setChain c x).slots = s.slots := rfl
@[simp] theorem setChain_bulletins (c : ChainId) (x : Chain) : (s.setChain c x).bulletins = s.bulletins := rfl
@[simp] theorem setChain_ticker (c : ChainId) (x : Chain) : (s.setChain c x).ticker = s.ticker := rfl
@[simp] theorem setChain_line (c : ChainId) (x : Chain) : (s.setChain c x).line = s.line := rfl
@[simp] theorem setChain_mgmt (c : ChainId) (x : Chain) : (s.setChain c x).mgmt = s.mgmt := rfl
@[simp] theorem setChain_draws (c : ChainId) (x : Chain) : (s.setChain c x).draws = s.draws := rfl
@[simp] theorem setChain_pending (c : ChainId) (x : Chain) : (s.setChain c x).pending = s.pending := rfl

/-! ### `setStack` -/

@[simp] theorem setStack_phase (k : StackId) (x : List BulletinEntry) : (s.setStack k x).phase = s.phase := rfl
@[simp] theorem setStack_feed (k : StackId) (x : List BulletinEntry) : (s.setStack k x).feed = s.feed := rfl
@[simp] theorem setStack_intake (k : StackId) (x : List BulletinEntry) : (s.setStack k x).intake = s.intake := rfl
@[simp] theorem setStack_load (k : StackId) (x : List BulletinEntry) : (s.setStack k x).load = s.load := rfl
@[simp] theorem setStack_records (k : StackId) (x : List BulletinEntry) : (s.setStack k x).records = s.records := rfl
@[simp] theorem setStack_directory (k : StackId) (x : List BulletinEntry) : (s.setStack k x).directory = s.directory := rfl
@[simp] theorem setStack_time (k : StackId) (x : List BulletinEntry) : (s.setStack k x).time = s.time := rfl
@[simp] theorem setStack_chains (k : StackId) (x : List BulletinEntry) : (s.setStack k x).chains = s.chains := rfl
@[simp] theorem setStack_flashClock (k : StackId) (x : List BulletinEntry) : (s.setStack k x).flashClock = s.flashClock := rfl
@[simp] theorem setStack_slots (k : StackId) (x : List BulletinEntry) : (s.setStack k x).slots = s.slots := rfl
@[simp] theorem setStack_bulletins (k : StackId) (x : List BulletinEntry) : (s.setStack k x).bulletins = s.bulletins.set k x := rfl
@[simp] theorem setStack_ticker (k : StackId) (x : List BulletinEntry) : (s.setStack k x).ticker = s.ticker := rfl
@[simp] theorem setStack_line (k : StackId) (x : List BulletinEntry) : (s.setStack k x).line = s.line := rfl
@[simp] theorem setStack_mgmt (k : StackId) (x : List BulletinEntry) : (s.setStack k x).mgmt = s.mgmt := rfl
@[simp] theorem setStack_draws (k : StackId) (x : List BulletinEntry) : (s.setStack k x).draws = s.draws := rfl
@[simp] theorem setStack_pending (k : StackId) (x : List BulletinEntry) : (s.setStack k x).pending = s.pending := rfl

/-! ### `setTerm` -/

@[simp] theorem setTerm_phase (t : TermId) (x : Terminal) : (s.setTerm t x).phase = s.phase := rfl
@[simp] theorem setTerm_feed (t : TermId) (x : Terminal) : (s.setTerm t x).feed = s.feed := rfl
@[simp] theorem setTerm_intake (t : TermId) (x : Terminal) : (s.setTerm t x).intake = s.intake := rfl
@[simp] theorem setTerm_load (t : TermId) (x : Terminal) : (s.setTerm t x).load = s.load := rfl
@[simp] theorem setTerm_records (t : TermId) (x : Terminal) : (s.setTerm t x).records = s.records := rfl
@[simp] theorem setTerm_directory (t : TermId) (x : Terminal) : (s.setTerm t x).directory = s.directory := rfl
@[simp] theorem setTerm_time (t : TermId) (x : Terminal) : (s.setTerm t x).time = s.time := rfl
@[simp] theorem setTerm_chains (t : TermId) (x : Terminal) : (s.setTerm t x).chains = s.chains := rfl
@[simp] theorem setTerm_flashClock (t : TermId) (x : Terminal) : (s.setTerm t x).flashClock = s.flashClock := rfl
@[simp] theorem setTerm_slots (t : TermId) (x : Terminal) : (s.setTerm t x).slots = s.slots := rfl
@[simp] theorem setTerm_bulletins (t : TermId) (x : Terminal) : (s.setTerm t x).bulletins = s.bulletins := rfl
@[simp] theorem setTerm_ticker (t : TermId) (x : Terminal) : (s.setTerm t x).ticker = s.ticker := rfl
@[simp] theorem setTerm_mgmt (t : TermId) (x : Terminal) : (s.setTerm t x).mgmt = s.mgmt := rfl
@[simp] theorem setTerm_draws (t : TermId) (x : Terminal) : (s.setTerm t x).draws = s.draws := rfl
@[simp] theorem setTerm_pending (t : TermId) (x : Terminal) : (s.setTerm t x).pending = s.pending := rfl
@[simp] theorem setTerm_line_terminals (t : TermId) (x : Terminal) :
    (s.setTerm t x).line.terminals = s.line.terminals.set t x := rfl
@[simp] theorem setTerm_line_pollPointer (t : TermId) (x : Terminal) :
    (s.setTerm t x).line.pollPointer = s.line.pollPointer := rfl
@[simp] theorem setTerm_line_transaction (t : TermId) (x : Terminal) :
    (s.setTerm t x).line.transaction = s.line.transaction := rfl
@[simp] theorem setTerm_line_gap (t : TermId) (x : Terminal) :
    (s.setTerm t x).line.gap = s.line.gap := rfl

end Sys2Proof.Machine
end

