-- ==== Sys2Proof/WellFormed.lean ====
section
/-!
DEFINITION. Which commands are well formed: the numbers that a plain `Nat` or list operand leaves
open lie in the ranges of the manual's conventions (slots 0 to 255, at most 4 entries in a stack,
at most 512 stages in an image). Every other operand has a type that holds its whole range.
-/

namespace Sys2Proof

/-- A slot number is 0 to 255 (R92). -/
def slotNumberOk (slot : Nat) : Bool := slot < 256

/-- A bulletin stack holds at most 4 entries (R106), so a position below the top is 0 to 3. -/
def stackPositionOk (position : Nat) : Bool := position < 4

/-- An image has at most 512 stages of eight bits (R73, R178), and as many bits are returned. -/
def returnedBitsOk (returned : List Bool) : Bool := returned.length ≤ 4096

/-- The well-formedness check of a command. -/
def Instr.wellFormed : Instr → Bool
  | .flashExpiry slot => slotNumberOk slot
  | .bulletinDurationExpiry _ position => stackPositionOk position
  | .shiftCompletion _ returned => returnedBitsOk returned
  | .feedFrameReceived _ => true
  | .silenceTimerExpiry => true
  | .trade => true
  | .quote => true
  | .symbolState => true
  | .recap => true
  | .clock => true
  | .session => true
  | .bulletinPush => true
  | .bulletinPop => true
  | .bulletinClear => true
  | .loadParam => true
  | .loadSymbol => true
  | .loadSlot => true
  | .loadChain => true
  | .loadModule => true
  | .loadTerminal => true
  | .read => true
  | .report => true
  | .clearAlerts => true
  | .setMask => true
  | .chainReset => true
  | .terminalReset => true
  | .tickerFlush => true
  | .resetCold => true
  | .resetWarm _ => true
  | .powerOn => true
  | .resetPinAssert => true
  | .resetPinRelease => true
  | .initEnd _ _ => true
  | .secondPhaseExpiry => true
  | .keepaliveExpiry _ => true
  | .settleCompletion _ => true
  | .chainSenseChange _ _ => true
  | .pwmPeriodStart _ => true
  | .flashClockHalfPeriod => true
  | .step => true
  | .primaryFrameSent => true
  | .terminalResponse _ => true
  | .responseTimeout => true
  | .probeTimerExpiry _ => true
  | .nightPollGapExpiry => true
  | .returnTransmissionStart => true
  | .returnFrameSent => true
  | .feedByteReceived _ => true
  | .terminalCharacterReceived _ => true
  | .refusedManagementFrame => true

end Sys2Proof
end

