-- ==== Sys2Proof/Tests/Slice0.lean ====
section
/-!
SUPPORT. Small checks of the model on fixed values: the well-formedness smoke, the manual's worked examples
and tables, one step of each family, and for every statement with hypotheses a state that meets them. The
expected results are the manual's own, or worked out by hand from its rules.
-/

namespace Sys2Proof.Tests

open Sys2Proof.Machine Sys2Proof.Safety

-- The kernel checks these theorems one after another: in parallel they ask for too many threads.
set_option Elab.async false

/-! ## Well-formedness: each check refuses an ill-formed command -/

theorem test_flashExpiry_slot_256_refused :
    (Instr.flashExpiry 256).wellFormed = false ∧ (Instr.flashExpiry 255).wellFormed = true := by decide

theorem test_bulletinDurationExpiry_position_4_refused :
    (Instr.bulletinDurationExpiry 0 4).wellFormed = false
      ∧ (Instr.bulletinDurationExpiry 7 3).wellFormed = true := by decide

theorem test_shiftCompletion_4097_bits_refused :
    (Instr.shiftCompletion 0 (List.replicate 4097 true)).wellFormed = false
      ∧ (Instr.shiftCompletion 0 (List.replicate 4096 true)).wellFormed = true := by
  decide +kernel

/-! ## Tables of chapter 2 -/

/-- A text, written as its characters. -/
def text (cs : List Char) : List Byte := cs.map (fun c => byteOf c.toNat)

/-- A symbol code, written as its five characters. -/
def code (a b c d k : Char) : SymbolCode :=
  { r0 := byteOf a.toNat, r1 := byteOf b.toNat, r2 := byteOf c.toNat, r3 := byteOf d.toNat,
    cls := byteOf k.toNat }

/-- Table 2-1. -/
theorem test_table_2_1 :
    priceField 41 3 3 = .units 10592 ∧ priceField 40 6 59 = .units 10476
      ∧ priceField 41 2 1 = .units 10560 ∧ priceField 18 2 1 = .units 4672
      ∧ priceField 0 1 1 = .units 128 ∧ priceField 9999 8 255 = .units 2559999
      ∧ priceField 12 1 0 = .units 3072 ∧ priceField 10000 1 0 = .failed
      ∧ priceField 1 9 0 = .failed ∧ priceField 1 3 8 = .failed
      ∧ priceField 0xFFFF 0 9 = .absent := by decide

/-- Table 2-2. -/
theorem test_table_2_2 :
    (roundWhole .eighths 10476, roundNumerator .eighths 10476) = (40, 7)
      ∧ (roundWhole .sixteenths 10476, roundNumerator .sixteenths 10476) = (40, 15)
      ∧ (roundWhole .eighths 10256, roundNumerator .eighths 10256) = (40, 1)
      ∧ (roundWhole .eighths 10252, roundNumerator .eighths 10252) = (40, 0)
      ∧ (roundWhole .eighths 10492, roundNumerator .eighths 10492) = (41, 0)
      ∧ (roundUnits .eighths 116, roundUnits .sixteenths 116) = (4, 7)
      ∧ (roundUnits .eighths 15, roundUnits .sixteenths 15) = (0, 1) := by decide

/-- Table 2-4 and case 2: five-cell prices, with the saturated ones. -/
theorem test_table_2_4 :
    priceCells .eighths 10476 = text [' ', ' ', '4', '0'] ++ [0x0E]
      ∧ priceCells .sixteenths 10476 = text [' ', ' ', '4', '0'] ++ [0x0F]
      ∧ priceCells .eighths 10492 = text [' ', ' ', '4', '1', ' ']
      ∧ priceCells .eighths 128 = text [' ', ' ', ' ', ' '] ++ [0x08]
      ∧ priceCells .eighths 0 = text [' ', ' ', ' ', '0', ' ']
      ∧ priceCells .sixteenths 389984 = text ['1', '5', '2', '3'] ++ [0x06]
      ∧ priceCells .eighths 2559999 = text ['9', '9', '9', '9'] ++ [0x0E]
      ∧ priceCells .sixteenths 2559999 = text ['9', '9', '9', '9'] ++ [0x0F] := by decide

/-- DRV as chapter 1's worked example starts: record 17, class A, eighths, previous close 41 3/8. -/
def drv : QuoteRecord :=
  { emptyRecord with
    symbol := code 'D' 'R' 'V' ' ' ' ', tapeClass := .a, prevClose := 10592, carryTick := .up, watch := 1 }

/-- A record that has traded at a price above or below its previous close. -/
def tradedAt (d : Denom) (prevClose last : Nat) : QuoteRecord :=
  { drv with
    denom := d, prevClose := prevClose, last := some last, state := .trading,
    netChange := (last : Int) - (prevClose : Int) }

/-- R28 to R30 and cases 1, 3 and 4: the CHANGE and LAST fields. -/
theorem test_change_field :
    changeCells (tradedAt .eighths 10592 10476) = text ['-', ' ', ' ', ' '] ++ [0x08]
      ∧ changeCells (tradedAt .sixteenths 10592 10476) = text ['-', ' ', ' ', ' '] ++ [0x07]
      ∧ changeCells (tradedAt .eighths 3072 384000) = text ['>', '9', '9', '9'] ++ [0x0E]
      ∧ changeCells (tradedAt .eighths 384000 3072) = text ['<', '9', '9', '9'] ++ [0x0E]
      ∧ changeCells (tradedAt .eighths 6400 6415) = text ['U', 'N', 'C', 'H', ' ']
      ∧ changeCells (tradedAt .sixteenths 6400 6415) = text ['+', ' ', ' ', ' '] ++ [0x01]
      ∧ changeCells (tradedAt .sixteenths 6400 7232) = text ['+', ' ', ' ', '3'] ++ [0x04]
      ∧ changeCells drv = text [' ', ' ', ' ', ' ', ' ']
      ∧ lastCells drv = text [' ', ' ', '4', '1'] ++ [0x06]
      ∧ lastCells { drv with state := .halted } = text ['H', 'A', 'L', 'T', ' '] := by decide

/-- Table 2-5 and R32. -/
theorem test_volume_and_symbol_fields :
    volumeCells 499 = text [' ', ' ', ' ', ' ', ' ', '0'] ∧ volumeCells 500 = text [' ', ' ', ' ', ' ', ' ', '1']
      ∧ volumeCells 1234499 = text [' ', ' ', '1', '2', '3', '4']
      ∧ volumeCells 999999999 = text ['9', '9', '9', '9', '9', '9']
      ∧ symbolCells (code 'D' 'R' ' ' ' ' 'A') = text ['D', 'R', ' ', ' ', 'A'] := by decide

/-- A print of a symbol, for the tables of the tape. -/
def aPrint (c : SymbolCode) (condition : Condition) (volume price : Nat) : Print :=
  { record := 17, symbol := c, price, volume, time := { hour := 10, minute := 15, second := 2 },
    condition, tapeClass := .a }

/-- The text of a print at level 0, as the composition assembles it. -/
def levelZeroText (d : Denom) (p : Print) : List Byte :=
  printText p (volumePart p.volume) (tapePrice d p.price false)

/-- Tables 2-7, 2-8 and 2-9. -/
theorem test_table_2_9 :
    levelZeroText .eighths (aPrint drv.symbol .opening 2000 10560)
        = text ['D', 'R', 'V', ' ', 'O', 'P', 'D', ' ', '2', '0', 's', ' ', '4', '1'] ++ [0x04]
      ∧ levelZeroText .eighths (aPrint drv.symbol .outOfSequence 100 10688)
        = text ['D', 'R', 'V', ' ', '4', '1'] ++ [0x0C] ++ text [' ', 'S', 'L', 'D']
      ∧ levelZeroText .sixteenths (aPrint (code 'P' 'L' 'T' ' ' 'B') .regular 3450 4672)
        = text ['P', 'L', 'T', '.', 'B', ' ', '3', '4', 's', ' ', '1', '8'] ++ [0x04]
      ∧ levelZeroText .eighths (aPrint (code 'D' 'R' ' ' ' ' 'A') .regular 10000 128)
        = text ['D', 'R', '.', 'A', ' ', '1', '0', '0', '0', '0', 'S', 'H', 'S', ' '] ++ [0x08]
      ∧ tapePrice .eighths 0 false = text ['0']
      ∧ tapePrice .eighths 2559999 false = text ['9', '9', '9', '9'] ++ [0x0E] := by decide

/-- Table 1-1: the order of symbol codes. -/
theorem test_table_1_1 :
    (([code 'D' 'R' ' ' ' ' ' ', code 'D' 'R' ' ' ' ' 'A', code 'D' 'R' ' ' ' ' 'B',
        code 'D' 'R' 'V' ' ' ' ', code 'D' 'R' 'V' 'A' ' '].map symbolKey).Pairwise (· < ·)) := by decide

/-- Table 1-5: the tick rule, with the carry tick. -/
theorem test_table_1_5 :
    tickRule 101 100 .down = .up ∧ tickRule 99 100 .up = .down
      ∧ [Tick.none, .up, .zeroPlus].map (tickRule 100 100) = [.zeroPlus, .zeroPlus, .zeroPlus]
      ∧ [Tick.down, .zeroMinus].map (tickRule 100 100) = [.zeroMinus, .zeroMinus] := by decide

/-! ## A state in operation -/

/-- Chain A in IDLE: one CHAR8 and one LAMP, the last refresh blank. -/
def chainA : Chain :=
  { coldChain true with
    entry := { coldChainEntry with enabled := true, settle := 5, keepalive := 10, day := 200, night := 40 },
    modules := ((Vector.replicate 64 ModuleKind.endOfList).set 0 .char8).set 1 .lamp,
    state := .idle, shadow := 0x00 :: List.replicate 8 0x20, shadowValid := true,
    keepaliveTimer := some 10000, latched := 0x00 :: List.replicate 8 0x20 }

/-- Slot 0: the LAST field of record 17 on chain A, with lamp cell 0 and flash. -/
def slotZero : Slot :=
  { chain := 0, start := 0, kind := .quote 17 [.last] 0 (some 0) true, dirty := false, flash := none }

/-- Terminal 1, ACTIVE, its first row naming record 17. -/
def terminalOne : Terminal :=
  { coldTerminal with
    enabled := true, state := .active,
    rows := coldTerminal.rows.set 0 { record := some 17, pending := 0, inFlight := 0 } }

/-- The part in operation in OPEN at 10:18:22, with station address 9 and group address 20. -/
def market : State :=
  { State.reset with
    feed := { coldFeed 9 with feedState := .running, expected := some 1000 },
    records := [(17, drv)], directory := [(drv.symbol, 17)],
    time := { clock := 37102, clockSet := true, phaseTicks := 0, session := .openMarket },
    chains := State.reset.chains.set 0 chainA, slots := [(0, slotZero)],
    ticker := { coldTicker with state := .running, stepTimer := some 60 },
    line := { coldLine with terminals := coldLine.terminals.set 0 terminalOne },
    mgmt := { coldManagement .powerOn with params := coldParams.set 0 20 } }

/-- The body of a feed frame with tag 0101h, addressed to every station of every group. -/
def frame (type : Byte) (items : List Byte) : List Byte := [0xFF, 0, type, 1, 1] ++ items

/-- The state with one frame in its intake queue. -/
def withHead (s : State) (body : List Byte) : State := { s with intake := [{ body, gapBefore := false }] }

/-- The state that a command answers. -/
def after (c : Instr) (s : State) : State :=
  match exec c s with
  | .next t => t
  | .fault _ => State.reset
  | .refused _ => State.reset

/-- Record 17 of a state. -/
def record17 (s : State) : QuoteRecord := (tableGet s.records 17).getD emptyRecord

/-- Row 1 of terminal 1. -/
def rowOne (s : State) : Row := (s.line.terminals[0]).rows[0]

/-- A TRADE payload for DRV. -/
def tradeBytes (whole denominator numerator : Byte) (volume : Nat) (condition : Byte) : List Byte :=
  text ['D', 'R', 'V', ' ', ' '] ++ [0, whole, denominator, numerator] ++ bytes4 volume ++ [9, 30, 4, condition]

/-- The TRADE of step 1 of the worked example of chapter 1. -/
def tradeFrame : List Byte := frame 0x21 (tradeBytes 41 2 1 2000 1)

/-- Step 1 of Table 1-6: TRADE DRV, OPENING, 41 1/4, 2,000 shares. -/
theorem test_trade_step_1 :
    let t := after .trade (withHead market tradeFrame)
    record17 t = { drv with
        state := .trading, last := some 10560, tick := .down, netChange := -32, high := some 10560,
        low := some 10560, volume := 2000, lastTime := some { hour := 9, minute := 30, second := 4 } }
      ∧ (rowOne t).pending = 0x0FE ∧ t.intake = [] ∧ t.ticker.admitted = 1 := by
  decide +kernel

/-- Steps 3 and 4 of Table 1-6: a trade at the last price, and one out of sequence. -/
theorem test_trade_steps_3_and_4 :
    let before : QuoteRecord := { drv with
      state := .trading, last := some 10476, tick := .down, netChange := -116, high := some 10560,
      low := some 10476, volume := 2500 }
    let s := { market with records := [(17, before)] }
    let t := after .trade (withHead s (frame 0x21 (tradeBytes 40 6 59 300 0)))
    let u := after .trade (withHead s (frame 0x21 (tradeBytes 41 2 3 100 2)))
    ((record17 t).tick, (record17 t).volume, (rowOne t).pending) = (.zeroMinus, 2800, 0x094)
      ∧ ((record17 u).tick, (record17 u).high, (rowOne u).pending) = (.down, some 10688, 0x0A0) := by
  decide +kernel

/-! ## One step of each family -/

/-- The CRC register of R40 over the digits 1 to 9, by the polynomial x^16 + x^12 + x^5 + 1 preset to FFFFh. -/
theorem test_crc : crcOf (text ['1', '2', '3', '4', '5', '6', '7', '8', '9']) = 0x29B1 := by decide +kernel

/-- Table 3-2. -/
theorem test_table_3_2 :
    judgeSequence none 4711 = .inOrder ∧ judgeSequence (some 1000) 1000 = .inOrder
      ∧ judgeSequence (some 1000) 1003 = .gap ∧ judgeSequence (some 1000) 999 = .old
      ∧ judgeSequence (some 1000) 33767 = .gap ∧ judgeSequence (some 1000) 33768 = .old
      ∧ judgeSequence (some 65535) 65535 = .inOrder ∧ judgeSequence (some 65535) 0 = .gap := by decide

/-- Table 3-3: straps 9, group 1 is 20. -/
theorem test_table_3_3 :
    let rows : List (Byte × Byte) := [(0xFF, 0), (0xFF, 9), (0xFF, 12), (20, 0), (20, 9), (21, 0), (0, 0), (0, 9)]
    rows.map (fun e => addressed [e.1, e.2, 0x21, 0, 0] market)
        = [true, true, false, true, true, false, false, false]
      ∧ rows.map (fun e => decide (AddressedHere market [e.1, e.2, 0x21, 0, 0]))
        = [true, true, false, true, true, false, false, false] := by decide +kernel

/-- A receiver holding a whole frame and the first byte of its CRC, waiting for the last. -/
def receiving (body : List Byte) : Receiver :=
  let crc := crcOf (byteOf body.length :: body)
  { huntReceiver with state := .check, length := body.length, body, crc, crcHigh := some ((wordBytes crc).headD 0) }

/-- The state with a whole frame received but for the last byte of its CRC. -/
def arriving (s : State) (body : List Byte) : State := { s with feed := { s.feed with rx := receiving body } }

/-- The last byte of the CRC of a frame. -/
def lastByte (body : List Byte) : Byte := ((wordBytes (crcOf (byteOf body.length :: body))).drop 1).headD 0

/-- R43 and R46: a frame three numbers ahead enters the queue with gap-before set, and FEED GAP is set. -/
theorem test_feed_frame_after_a_gap :
    let body : List Byte := [20, 9, 0x21, 0x03, 0xEB] ++ tradeBytes 41 2 1 2000 1
    let t := after (.feedFrameReceived (lastByte body)) (arriving market body)
    t.intake = [{ body, gapBefore := true }] ∧ t.feed.expected = some 1004 ∧ t.feed.gapOwed = false
      ∧ alertIn .feedGap t.mgmt.alertStatus = true := by decide +kernel

/-- R52: at the silence timer the feed is LOST, the record is stale, and the ribbon is told. -/
theorem test_silence_loses_the_feed :
    let t := after .silenceTimerExpiry { market with feed := { market.feed with silence := some 0 } }
    t.feed.feedState = .lost ∧ (record17 t).stale = true ∧ (rowOne t).pending = nameStale
      ∧ t.ticker.queue = [.announce (text ['F', 'E', 'E', 'D', ' ', 'I', 'N', 'T', 'E', 'R', 'R', 'U', 'P', 'T',
        'E', 'D'])] := by decide +kernel

/-- R38: eight bits 5Ah found in the search align the receiver; a second SYNC begins the frame. -/
theorem test_feed_byte_sync :
    let s := after (.feedByteReceived (.byte 0x5A)) market
    s.feed.rx.aligned = true ∧ (after (.feedByteReceived (.byte 0x5A)) s).feed.rx.state = .length := by
  decide +kernel

/-- A QUOTE of 41 bid and no ask, the ask's fraction not examined (R16, R23). -/
def quoteFrame : List Byte :=
  frame 0x22 (text ['D', 'R', 'V', ' ', ' '] ++ [0, 41, 1, 0] ++ [0xFF, 0xFF, 0, 0xFF])

theorem test_quote :
    let t := after .quote (withHead market quoteFrame)
    ((record17 t).bid, (record17 t).ask, (rowOne t).pending) = (some 10496, none, nameBid) := by decide +kernel

/-- A SYMBOL STATE frame for DRV. -/
def stateFrame (action : Byte) : List Byte := frame 0x23 (text ['D', 'R', 'V', ' ', ' '] ++ [action])

/-- R17: HALT, and the announcement in the tape form. -/
theorem test_symbol_state_halt :
    let t := after .symbolState (withHead market (stateFrame 1))
    (record17 t).state = .halted ∧ (rowOne t).pending = nameState
      ∧ t.ticker.queue = [.announce (text ['D', 'R', 'V', ' ', 'H', 'A', 'L', 'T', 'E', 'D'])] := by
  decide +kernel

/-- The RECAP of step 7 of the worked example of chapter 1. -/
def recapFrame : List Byte :=
  frame 0x24 (text ['D', 'R', 'V', ' ', ' '] ++ [2] ++ [0, 41, 3, 3] ++ [0, 41, 1, 1] ++ [1]
    ++ [0, 41, 2, 3] ++ [0, 40, 6, 59] ++ bytes4 3150 ++ [0xFF, 0xFF, 0, 0] ++ [0xFF, 0xFF, 0, 0])

/-- Step 7 of Table 1-6, with its gap-before marking: only the volume differs, and the mark is cleared. -/
theorem test_recap_step_7 :
    let r : QuoteRecord := { drv with
      state := .halted, last := some 10624, tick := .up, netChange := 32, high := some 10688,
      low := some 10476, volume := 2950 }
    let s := { market with records := [(17, r)], intake := [{ body := recapFrame, gapBefore := true }] }
    let t := after .recap s
    record17 t = { r with volume := 3150 } ∧ (rowOne t).pending = nameVolume ||| nameStale := by decide +kernel

/-- R59: CLOCK 10:19:00 is a minute change from 10:18:22. -/
theorem test_clock :
    let t := after .clock (withHead market (frame 0x25 [10, 19, 0]))
    t.time.clock = 37140 ∧ (t.line.terminals[0]).statusPending = true := by decide +kernel

/-- R60: the second past 23:59:59 is 0. -/
theorem test_second_at_midnight :
    (after .secondPhaseExpiry { market with time := { market.time with clock := 86399 } }).time.clock = 0 := by
  decide +kernel

/-- R62, R113: CLOSE in OPEN drains the ticker; HALT_ALL in CLOSED is ignored (R63). -/
theorem test_session :
    let t := after .session (withHead market (frame 0x26 [5]))
    let closed := { market with time := { market.time with session := .closed } }
    t.time.session = .closed ∧ t.ticker.state = .draining
      ∧ (after .session (withHead closed (frame 0x26 [3]))).time.session = .closed := by decide +kernel

/-- R22: the day reset takes the last price as the previous close and the tick as the carry tick. -/
theorem test_day_reset :
    let s := { market with
      time := { market.time with session := .closed },
      records := [(17, { drv with last := some 10624, tick := .down, netChange := 32, state := .trading })] }
    let r := record17 (after .session (withHead s (frame 0x26 [1])))
    (r.prevClose, r.carryTick, r.tick, r.last, r.netChange) = (10624, .down, .none, none, 0) := by decide +kernel

/-- A bulletin entry named by a letter. -/
def bulletin (name : Char) (seconds : Nat) : BulletinEntry :=
  { text := text [name], timer := if seconds = 0 then none else some (seconds * 1000), tapeFlag := false }

/-- Step 4 of Table 6-4: the full stack. -/
def fullStack : List BulletinEntry := [bulletin 'S' 20, bulletin 'D' 40, bulletin 'F' 0, bulletin 'T' 70]

def withStack (s : State) (entries : List BulletinEntry) : State :=
  { s with bulletins := s.bulletins.set 2 entries }

/-- A BULLETIN frame for stack 2 with the text O. -/
def bulletinFrame (action : Byte) : List Byte := frame 0x27 ([2, action, 0, 0, 0, 1] ++ text ['O'])

/-- Steps 5, 6, 8 and 9 of Table 6-4: a push onto a full stack, an expiry below the top, POP and CLEAR. -/
theorem test_table_6_4 :
    (after .bulletinPush (withHead (withStack market fullStack) (bulletinFrame 1))).bulletins[(2 : StackId)]
        = bulletin 'O' 0 :: fullStack.take 3
      ∧ (after (.bulletinDurationExpiry 2 1) (withStack market [bulletin 'O' 0, bulletin 'S' 0 , bulletin 'D' 20])
          ).bulletins[(2 : StackId)] = [bulletin 'O' 0, bulletin 'S' 0, bulletin 'D' 20]
      ∧ (after (.bulletinDurationExpiry 2 2) (withStack market [bulletin 'O' 0, bulletin 'S' 0 , bulletin 'D' 20])
          ).bulletins[(2 : StackId)] = [bulletin 'O' 0, bulletin 'S' 0]
      ∧ (after .bulletinPop (withHead (withStack market [bulletin 'O' 0, bulletin 'F' 0]) (bulletinFrame 2))
          ).bulletins[(2 : StackId)] = [bulletin 'F' 0]
      ∧ (after .bulletinClear (withHead (withStack market fullStack) (bulletinFrame 3))).bulletins[(2 : StackId)]
        = [] := by decide +kernel

/-- A LOAD payload. -/
def loadFrame (table : Byte) (start count : Nat) (entries : List Byte) : List Byte :=
  frame 0x41 (table :: (bytes2 start ++ bytes2 count ++ entries))

/-- Frames 1 and 2 of Table 10-3, and a clamped entry. -/
theorem test_load_param :
    let one := after .loadParam (withHead market
      (loadFrame 1 9 4 (bytes2 200 ++ bytes2 400 ++ bytes2 700 ++ bytes2 1200)))
    let two := after .loadParam (withHead market (loadFrame 1 12 1 (bytes2 1200)))
    let three := after .loadParam (withHead market (loadFrame 1 6 1 (bytes2 1)))
    (param one 9, param one 12, one.mgmt.replyQueue) = (60, 600, [.reply 0x0101 [4, 0, 0]])
      ∧ (param two 12, two.mgmt.replyQueue) = (1200, [.reply 0x0101 [0]]) ∧ param three 6 = 2 := by decide +kernel

/-- R167: the entries of a LOAD taken one command after another, with what the earlier ones left; the REPLY comes
with the refused one. -/
theorem test_load_entry_by_entry :
    let s := withHead market (loadFrame 1 9 4 (bytes2 100 ++ bytes2 200 ++ bytes2 200 ++ bytes2 700))
    let one := after .loadParam s
    let two := after .loadParam one
    let three := after .loadParam two
    (one.load, param one 9, one.mgmt.replyQueue, one.intake) = (some 1, 100, [], s.intake)
      ∧ (two.load, param two 10) = (some 2, 200)
      ∧ (three.load, param three 11, three.intake, three.mgmt.replyQueue)
        = (none, 300, [], [.reply 0x0101 [4, 0, 2]]) := by decide +kernel

/-- A SYMBOL entry: class A, eighths, previous close 12. -/
def symbolBytesOf (c : List Char) : List Byte := text c ++ [1, 8, 0, 12, 1, 0]

/-- R8, R9, R10: a definition, a deletion seen by the row, and a rename. -/
theorem test_load_symbol :
    let defined := after .loadSymbol (withHead market (loadFrame 2 31 1 (symbolBytesOf ['K', 'L', 'M', ' ', ' '])))
    let deleted := after .loadSymbol (withHead market (loadFrame 2 17 1 (symbolBytesOf [' ', ' ', ' ', ' ', ' '])))
    let renamed := after .loadSymbol (withHead market (loadFrame 2 17 1 (symbolBytesOf ['K', 'L', 'M', ' ', ' '])))
    ((tableGet defined.records 31).map (·.prevClose), defined.directory.map Prod.snd) = (some 3072, [17, 31])
      ∧ (deleted.records, rowOne deleted) = ([], { record := none, pending := nameClear, inFlight := 0 })
      ∧ ((record17 renamed).watch, (rowOne renamed).record, renamed.directory.length) = (0, none, 1) := by
  decide +kernel

/-- A SLOT entry: STATUS on a chain. -/
def statusEntry (chain start : Byte) : List Byte := [4, chain, 0, start] ++ List.replicate 11 0

/-- R70: out-of-range values are clamped. -/
theorem test_load_chain_clamps :
    ((after .loadChain (withHead market (loadFrame 4 1 1 [1, 0xFF, 0xFF, 0, 61, 7, 8]))).chains[(1 : ChainId)]).entry
      = { enabled := true, cellPeriod := 1000, settle := 1, keepalive := 60, day := 7, night := 8 } := by
  decide +kernel

/-- R84: a MODULE load in IDLE starts an unverified refresh of the new list. -/
theorem test_load_module :
    let c := (after .loadModule (withHead market (loadFrame 5 1 1 [3]))).chains[(0 : ChainId)]
    c.state = .shifting ∧ c.cycle.map (fun cy => (cy.list, cy.verified)) = some ([.char8, .bypass], false) := by
  decide +kernel

/-- A TERMINAL entry whose first row names a record. -/
def terminalBytes (enabled row : Byte) : List Byte := [enabled, 0, 0, row] ++ List.replicate 30 0xFF

/-- R151, R164: enabling terminal 2 with row 1 on record 17; a row of an EMPTY record is refused. -/
theorem test_load_terminal :
    let s := after .loadTerminal (withHead market (loadFrame 6 1 1 (terminalBytes 1 17)))
    let refused := after .loadTerminal (withHead market (loadFrame 6 1 1 (terminalBytes 1 18)))
    ((s.line.terminals[(1 : TermId)]).state, (record17 s).watch) = (.absent, 2)
      ∧ (refused.line.terminals[(1 : TermId)]).state = .disabled
      ∧ refused.mgmt.replyQueue = [.reply 0x0101 [4, 0, 0]] := by decide +kernel

/-- R169: thresholds 9 to 12 read back. -/
theorem test_read_param :
    (after .read (withHead market (frame 0x42 [1, 0, 9, 0, 4]))).mgmt.replyQueue
      = [.reply 0x0101 [0, 1, 0, 9, 0, 60, 0, 180, 1, 44, 2, 88]] := by decide +kernel

/-- R170: a REPORT of the wrong length, and one of the right. -/
theorem test_report :
    (after .report (withHead market (frame 0x43 []))).mgmt.replyQueue = [.reply 0x0101 [3]]
      ∧ (after .report (withHead market (frame 0x43 [0]))).mgmt.replyQueue.length = 1 := by decide +kernel

/-- Market with a set alert, a latched sense and its mask. -/
def alerted : State :=
  { market with
    mgmt := { market.mgmt with alertStatus := 0x0088 },
    chains := market.chains.set 0 { chainA with senseLatch := true } }

/-- R171, R81: clearing CHAIN SENSE A leaves CHAIN FAULT A set. -/
theorem test_clear_alerts_and_set_mask :
    let t := after .clearAlerts (withHead alerted (frame 0x44 [1, 0, 0x80]))
    (t.mgmt.alertStatus, (t.chains[(0 : ChainId)]).senseLatch) = (0x0008, false)
      ∧ (after .setMask (withHead alerted (frame 0x44 [2, 0, 0x08]))).mgmt.replyQueue
        = [.alert, .reply 0x0101 [0]] := by decide +kernel

/-- R86, R152, R130: CHAIN RESET, TERMINAL RESET and TICKER FLUSH. -/
theorem test_control :
    let c := (after .chainReset (withHead market (frame 0x44 [3, 0]))).chains[(0 : ChainId)]
    c.state = .shifting ∧ c.cycle.map (·.verified) = some false
      ∧ ((after .terminalReset (withHead market (frame 0x44 [4, 1]))).line.terminals[(0 : TermId)]).state = .absent
      ∧ (after .tickerFlush (withHead { market with ticker := { market.ticker with
            queue := [.announce [], .print (aPrint drv.symbol .regular 100 10)] } } (frame 0x44 [5]))
          ).ticker.omitted = 1 := by decide +kernel

/-- R166, R171: an unknown table and an unknown action. -/
theorem test_refused_frames :
    (after .refusedManagementFrame (withHead market (loadFrame 9 0 1 [0]))).mgmt.replyQueue = [.reply 0x0101 [1]]
      ∧ (after .refusedManagementFrame (withHead market (frame 0x44 [6]))).mgmt.replyQueue
        = [.reply 0x0101 [5]] := by decide +kernel

/-- R174, R175: a cold reset by frame, the end of INIT, and a warm reset. -/
theorem test_resets :
    let s := after .resetCold (withHead market (frame 0x45 [1]))
    let w := after (.resetWarm 9) (withHead market (frame 0x45 [2]))
    (s.phase, s.mgmt.cause, s.records) = (.initRunning, .coldCommand, [])
      ∧ (w.mgmt.cause, w.mgmt.replyQueue, (record17 w).stale)
        = (.warmCommand, [.reply 0x0101 [0], .alert], true) := by decide +kernel

/-- Log entry 1: the state after reset is the end of INIT of a power-on with straps 0 and four absent chains. -/
theorem test_reset_is_the_end_of_init :
    after (.initEnd 0 (Vector.replicate 4 false)) (after .powerOn market) = State.reset := by decide +kernel

/-- R174: the pin holds the part, and its release begins INIT with its own cause. -/
theorem test_reset_pin :
    let h := after .resetPinAssert market
    (h.phase, blankingActive h 0 0, tickerPresents h) = (.pinHeld, true, 0x20)
      ∧ (shiftData h 0 0, transmitData h 0, tickerLine h 0, returnLine h 0) = (some false, true, true, true)
      ∧ ((after .resetPinRelease h).phase, (after .resetPinRelease h).mgmt.cause) = (.initRunning, .pin) := by
  decide +kernel

/-- Table 5-2: the shift order of CHAR8, LAMP, CHAR8, BYPASS. -/
theorem test_table_5_2 :
    stageLayout [.char8, .lamp, .char8, .bypass] 0 0 0
      = [(3, .filler), (2, .char 15), (2, .char 14), (2, .char 13), (2, .char 12), (2, .char 11), (2, .char 10),
          (2, .char 9), (2, .char 8), (1, .lamp 0), (0, .char 7), (0, .char 6), (0, .char 5), (0, .char 4),
          (0, .char 3), (0, .char 2), (0, .char 1), (0, .char 0)] := by decide

/-- The image of chain A in NOT_OPEN: the lamp cell, then LAST as the previous close 41 3/8 (R28, R73). -/
theorem test_keepalive_starts_a_refresh :
    (((after (.keepaliveExpiry 0) market).chains[(0 : ChainId)]).cycle).map (·.image)
      = some ([0x00, 0x20, 0x20, 0x20, 0x06] ++ text ['1', '4', ' ', ' ']) := by decide +kernel

/-- Chain A shifting a verified cycle. -/
def shifting : State := after (.keepaliveExpiry 0) market

/-- R78: the echo of the image before, and one with module 0 at fault. -/
theorem test_shift_completion :
    let good := (after (.shiftCompletion 0 (shiftBits (0x00 :: List.replicate 8 0x20))) shifting
      ).chains[(0 : ChainId)]
    let bad := after (.shiftCompletion 0 (shiftBits (List.replicate 8 0x00))) shifting
    (good.state, good.faultCount, good.settleTimer) = (.settling, 0, some 5)
      ∧ ((bad.chains[(0 : ChainId)]).faultCount, (bad.chains[(0 : ChainId)]).firstMismatch) = (1, some 0)
      ∧ alertIn (.chainFault 0) bad.mgmt.alertStatus = true := by decide +kernel

/-- R178: the bits of a blank, 20h, to and from the chain, and on the ticker output with its start and stop bit. -/
theorem test_bit_orders :
    shiftBits [0x20] = [false, false, true, false, false, false, false, false]
      ∧ stagesOf [false, false, true, false, false, false, false, false] = [0x20]
      ∧ (shiftData shifting 0 15, shiftData shifting 0 10, shiftData market 0 0) = (some false, some true, none)
      ∧ (List.range 11).map (tickerLine { market with ticker := { market.ticker with out := some 0x20 } })
        = [false, false, false, false, false, false, true, false, false, true, true] := by decide +kernel

/-- R99: a flash timer due at the tick of a keepalive is still on in the snapshot, and its mark stays. -/
theorem test_flash_due_with_a_snapshot :
    let s := { market with
      chains := market.chains.set 0 { chainA with keepaliveTimer := some 1 },
      slots := [(0, { slotZero with flash := some 1 })] }
    let t := intervalTick s
    ((t.chains[(0 : ChainId)]).cycle.map (fun cy => cy.image.head?)) = some (some 0x08)
      ∧ (tableGet t.slots 0).map (fun sl => (sl.dirty, sl.flash)) = some (true, none) := by decide +kernel

/-- R79: settle completion of an undisturbed cycle, and at the fault limit. -/
theorem test_settle_completion :
    let settling := { chainA with
      state := .settling, keepaliveTimer := none, settleTimer := some 0,
      cycle := some { list := [], cellPeriod := 10, settle := 5, image := [], verified := true, returned := [] } }
    let s := { market with chains := market.chains.set 0 settling }
    let f := { market with chains := market.chains.set 0 { settling with faultCount := 3 } }
    ((after (.settleCompletion 0) s).chains[(0 : ChainId)]).keepaliveTimer = some 10000
      ∧ ((after (.settleCompletion 0) f).chains[(0 : ChainId)]).state = .offline
      ∧ alertIn (.chainFault 0) (after (.settleCompletion 0) f).mgmt.alertStatus = true := by decide +kernel

/-- R82, R83: unplugged and plugged in again. -/
theorem test_chain_sense :
    let out := after (.chainSenseChange 0 false) market
    let back := after (.chainSenseChange 0 true) out
    ((out.chains[(0 : ChainId)]).state, (out.chains[(0 : ChainId)]).senseLatch) = (.offline, true)
      ∧ ((back.chains[(0 : ChainId)]).cycle).map (·.verified) = some false := by decide +kernel

/-- R87, R88, R99: the brightness of OPEN, the flash clock, and a flash that ends. -/
theorem test_brightness_and_flash :
    ((after (.pwmPeriodStart 0) market).chains[(0 : ChainId)]).pwmLevel = 200
      ∧ (after .flashClockHalfPeriod market).flashClock = { level := true, timer := some 250 }
      ∧ (tableGet (after (.flashExpiry 0) { market with slots := [(0, { slotZero with flash := some 0 })] }).slots 0)
        = some slotZero := by decide +kernel

/-- Table 7-3. -/
theorem test_table_7_3 :
    latenessOf { market.time with clock := 37102 } { hour := 10, minute := 15, second := 2 } = 200
      ∧ latenessOf { market.time with clock := 10 } { hour := 23, minute := 59, second := 50 } = 20
      ∧ latenessOf { market.time with clock := 36000 } { hour := 10, minute := 0, second := 5 } = 0
      ∧ latenessOf { market.time with clockSet := false } { hour := 10, minute := 15, second := 2 } = 0 := by decide

/-- Table 7-4. -/
theorem test_table_7_4 :
    [(0, 200), (2, 160), (2, 140), (1, 25), (1, 45), (1, 700), (4, 590), (4, 500), (3, 500)].map
        (fun e => nextLevel { market with ticker := { market.ticker with level := e.1 } } e.2)
      = [2, 2, 1, 0, 1, 4, 4, 3, 3] := by decide +kernel

/-- The ticker at a composition step with one print waiting. -/
def composing (level : Nat) (epoch : BitVec 16) (p : Print) : State :=
  { market with ticker := { market.ticker with level, epoch, queue := [.print p] } }

/-- Step 2 of Table 7-5: a print 200 s late raises the level to 2 and the epoch, and its volume is left out. -/
theorem test_step_composes_a_late_print :
    let t := after .step (composing 0 6 (aPrint drv.symbol .regular 1200 10496))
    (t.ticker.level, t.ticker.epoch, t.ticker.lateMinutes) = (2, 7, 3)
      ∧ (t.ticker.text, t.ticker.out) = (text ['D', 'R', 'V', ' ', '4', '1'], some 0x44)
      ∧ t.ticker.queue = [.announce (text ['T', 'A', 'P', 'E', ' ', 'L', 'A', 'T', 'E', ' ', '3', ' ', 'M', 'I', 'N'])]
      ∧ ((record17 t).tapeWhole, (record17 t).tapeEpoch) = (some 41, 7) := by decide +kernel

/-- Step 3 of Table 7-5: the whole part shortens to its last digit. -/
theorem test_step_shortens_the_price :
    let s := composing 2 7 (aPrint drv.symbol .regular 300 10560)
    let t := after .step { s with records := [(17, { drv with tapeWhole := some 41, tapeEpoch := 7 })] }
    t.ticker.text = text ['D', 'R', 'V', ' ', '1'] ++ [0x04] := by decide +kernel

/-- A transaction with terminal 1 awaiting its response. -/
def awaiting (kind : PrimaryKind) (received : List Byte) : Transaction :=
  { terminal := 0, kind, frame := [], rate := 3, sending := false, received, responseTicks := 100,
    timeout := some 100 }

/-- The line during a transaction with terminal 1. -/
def onLine (tx : Transaction) (t : Terminal) : State :=
  { market with line := { market.line with terminals := market.line.terminals.set 0 t, transaction := some tx } }

/-- A response of terminal 1 but for its last byte, and that byte. -/
def response (type : Byte) (body : List Byte) : List Byte × Byte :=
  let covered := [0x81, type, byteOf body.length] ++ body
  let crc := wordBytes (crcOf covered)
  (0x01 :: covered ++ crc.take 1, (crc.drop 1).headD 0)

/-- Terminal 1 with UPDATE 7 outstanding, LAST in flight. -/
def updated : Terminal :=
  { terminalOne with
    nextNumber := 7, outstanding := some 7,
    rows := terminalOne.rows.set 0 { record := some 17, pending := 0, inFlight := nameLast } }

/-- An UPDATE outstanding to terminal 1. -/
def updating : State := onLine (awaiting .update []) updated

/-- R146, R161: ACK 7 clears what was in flight, and the next number becomes 0. -/
theorem test_ack :
    let r := response 0x21 [7]
    let t := (after (.terminalResponse r.2) (onLine (awaiting .update r.1) updated)).line.terminals[(0 : TermId)]
    (t.nextNumber, (t.rows[(0 : Fin 16)]).inFlight, t.state) = (0, 0, .active) := by decide +kernel

/-- Step 7 of Table 9-2, with terminal 1: an ADD by ACK takes the lowest EMPTY row. -/
theorem test_add_by_ack :
    let r := response 0x21 ([7, 1, 0] ++ text ['K', 'L', 'M', ' ', ' '])
    let s := onLine (awaiting .update r.1) updated
    let klm : QuoteRecord := { drv with symbol := code 'K' 'L' 'M' ' ' ' ', watch := 0 }
    let t := after (.terminalResponse r.2) { s with
      records := [(17, drv), (31, klm)], directory := [(drv.symbol, 17), (klm.symbol, 31)] }
    (t.line.terminals[(0 : TermId)]).rows[(1 : Fin 16)] = { record := some 31, pending := 0, inFlight := allNames }
      ∧ (tableGet t.records 31).map (·.watch) = some 1 := by decide +kernel

/-- R137: the end of a primary frame starts the timer; a timeout is a miss. -/
theorem test_timeout :
    let sent := after .primaryFrameSent (onLine { awaiting .poll [] with sending := true, timeout := none } terminalOne)
    sent.line.transaction.map (·.timeout) = some (some 100)
      ∧ ((after .responseTimeout (onLine (awaiting .update []) updated)).line.terminals[(0 : TermId)]).misses = 1
      ∧ (after (.terminalCharacterReceived 0x01) (onLine (awaiting .poll []) terminalOne)).line.transaction.map
          (·.received) = some [0x01] := by decide +kernel

/-- R139, R141: a probe due is served on an idle line; the night gap's end frees the line. -/
theorem test_probe_and_gap :
    let absent := { terminalOne with state := .absent, probeTimer := some 0 }
    let s := { market with line := { market.line with terminals := market.line.terminals.set 0 absent } }
    (after (.probeTimerExpiry 0) s).line.transaction.map (·.kind) = some .activate
      ∧ (after .nightPollGapExpiry { market with line := { market.line with gap := some 0 } }
          ).line.transaction.map (·.kind) = some .poll := by decide +kernel

/-- R172: the ALERT frame of a power-on reset: alert status 1, mask 1, cause POWER_ON. -/
theorem test_return_line :
    let t := after .returnTransmissionStart State.reset
    (t.mgmt.sending.map (fun f => f.take 13)) = some [0x5A, 0x5A, 10, 0, 0, 0x62, 0, 0, 0, 1, 0, 1, 1]
      ∧ t.mgmt.replyQueue = [] ∧ (after .returnFrameSent t).mgmt.sending = none := by decide +kernel

/-- Log entry 6: a tick on an empty queue counts the phase. -/
theorem test_tick :
    (match step market with
      | .next t => t.time.phaseTicks
      | .fault _ => 0
      | .refused _ => 0) = 1 := by decide +kernel

/-! ## For each statement with hypotheses, states and operands that meet them -/

theorem witness_StepTakesTheFront :
    ({ market with pending := [Instr.step] } : State).pending = Instr.step :: [] ∧ market.pending = [] := by
  decide +kernel

/-- A tick in operation, and one while the pin is held; a timer that counts and one that comes to its end. -/
theorem witness_TickCountsAndExpires :
    market.pending = [] ∧ market.phase = .running ∧ (after .resetPinAssert market).phase ≠ .running
      ∧ (tickedOnce market).ticker.stepTimer = some 59
      ∧ ((expiries { market with flashClock := { level := false, timer := some 1 } }).map (fun e =>
        e.1 (tickedOnce { market with flashClock := { level := false, timer := some 1 } }))).count true = 1 := by
  decide +kernel

/-- R58, R88: at the last tick of its timer the flash clock inverts; at any other it counts. -/
theorem test_tick_takes_an_expiry :
    (intervalTick { market with flashClock := { level := false, timer := some 1 } }).flashClock
        = { level := true, timer := some 250 }
      ∧ (intervalTick { market with flashClock := { level := false, timer := some 2 } }).flashClock
        = { level := false, timer := some 1 } := by decide +kernel

/-- The body of the TRADE of step 1, numbered. -/
def numbered (seqHigh seqLow : Byte) : List Byte := [20, 9, 0x21, seqHigh, seqLow] ++ tradeBytes 41 2 1 2000 1

/-- The state with a receiver state of its own. -/
def withRx (r : Receiver) : State := { market with feed := { market.feed with rx := r } }

theorem witness_FeedByteIsReceived :
    market.phase = .running ∧ market.feed.rx.state = .hunt ∧ market.feed.rx.aligned = false
      ∧ (withRx { huntReceiver with aligned := true }).feed.rx.nbits = 0
      ∧ (withRx { huntReceiver with state := .length }).feed.rx.state = .length
      ∧ (withRx { huntReceiver with state := .body, length := 6 }).feed.rx.state = .body
      ∧ (withRx { huntReceiver with state := .check }).feed.rx.crcHigh = none := by decide +kernel

/-- An aligned receiver that gathers a bit, and one that its next bit fills; the last CRC byte of a frame. -/
theorem witness_FeedByteIsReceived_of_bits_and_a_last_byte :
    (∀ n ∈ [0, 6, 7], (withRx { huntReceiver with aligned := true, nbits := n }).phase = .running
        ∧ (withRx { huntReceiver with aligned := true, nbits := n }).feed.rx.aligned = true
        ∧ (withRx { huntReceiver with aligned := true, nbits := n }).feed.rx.nbits = n)
      ∧ FrameArrives (arriving market tradeFrame) (lastByte tradeFrame) := by decide +kernel

/-- R39, R46, R178: the last CRC byte brought by its own command, and by its bits, completes the frame as
FEED_FRAME_RECEIVED does. -/
theorem test_last_crc_byte :
    let body := numbered 0x03 0xE8
    let s := arriving market body
    let b := lastByte body
    let queued : List IntakeEntry := [{ body, gapBefore := false }]
    (after (.feedByteReceived (.byte b)) s).intake = queued
      ∧ (([7, 6, 5, 4, 3, 2, 1, 0].map b.getLsbD).foldl (fun t x => after (.feedByteReceived (.bit x)) t) s).intake
        = queued := by decide +kernel

/-- The market in a feed state, with a whole frame received but for the last byte of its CRC. -/
def arrivingIn (x : FeedState) (body : List Byte) : State :=
  arriving { market with feed := { market.feed with feedState := x } } body

/-- In every feed state: a frame at the greatest gap (Table 3-2), and a management frame; a queue with room and
a full one. -/
theorem witness_FeedFrameIsQueued :
    (∀ x ∈ [FeedState.notYet, .running, .lost], ∀ body ∈ [numbered 0x83 0xE7, frame 0x43 [0]],
        FrameArrives (arrivingIn x body) (lastByte body) ∧ (arrivingIn x body).feed.feedState = x
          ∧ AddressedHere (arrivingIn x body) body ∧ TypeIsTaken body)
      ∧ runsAhead (arriving market (numbered 0x83 0xE7)) = 32767
      ∧ MarketData (numbered 0x83 0xE7) ∧ ¬ MarketData (frame 0x43 [0])
      ∧ market.intake.length < 16 ∧ ¬ (List.replicate 16 ({ body := [], gapBefore := false } : IntakeEntry)).length < 16 := by
  decide +kernel

/-- In every feed state: a CRC that fails, the least old number, and a frame after a gap that is addressed
elsewhere. -/
theorem witness_FeedFrameIsDropped :
    (∀ x ∈ [FeedState.notYet, .running, .lost], ∀ body ∈ [numbered 0x83 0xE8, [21, 9, 0x21, 0x83, 0xE7]],
        FrameArrives (arrivingIn x body) (lastByte body) ∧ FrameEnds (arrivingIn x body)
          ∧ ¬ CrcAgrees (arrivingIn x body) (lastByte body + 1))
      ∧ runsAhead (arriving market (numbered 0x83 0xE8)) = 32768
      ∧ MarketData (numbered 0x83 0xE8) ∧ ¬ AddressedHere market [21, 9, 0x21, 0x83, 0xE7]
      ∧ (∀ straps ∈ [(0 : BitVec 6), 63], ∀ station ∈ [(0 : Byte), 63],
        AddressedHere { market with feed := coldFeed straps } [0xFF, station] ↔ station = 0)
      ∧ runsAhead (arriving market [21, 9, 0x21, 0x83, 0xE7]) = 32767
      ∧ (∀ type ∈ [(0x20 : Byte), 0x28, 0x40, 0x46, 0x61], ¬ TypeIsTaken (frame type [])) := by
  and_intros <;> decide +kernel

theorem witness_FeedLossAndReturn :
    (let s := { market with feed := { market.feed with silence := some 0 } };
      s.phase = .running ∧ s.feed.silence = some 0 ∧ namesFresh s (rowOne s) = true)
      ∧ ∀ x ∈ [FeedState.notYet, .lost], FrameArrives (arrivingIn x (frame 0x43 [0])) (lastByte (frame 0x43 [0]))
        ∧ (arrivingIn x (frame 0x43 [0])).feed.feedState ≠ .running := by decide +kernel

theorem witness_GapBeforeMarks : ({ body := tradeFrame, gapBefore := true } : IntakeEntry).gapBefore = true := rfl

/-- A frame of a wrong length, and a TRADE of an unknown symbol. -/
def shortFrame (type : Byte) : List Byte := frame type []

def unknownTrade : List Byte :=
  frame 0x21 (text ['K', 'L', 'M', ' ', ' '] ++ (tradeBytes 41 2 1 2000 1).drop 5)

/-- The head of an intake queue that holds one frame. -/
def headOf (body : List Byte) : IntakeEntry := { body, gapBefore := false }

theorem witness_BadFramesChangeNothing :
    (HeadIs (withHead market (shortFrame 0x21)) (headOf (shortFrame 0x21)) [] .trade
        ∧ TradeFails (payload (shortFrame 0x21)))
      ∧ (HeadIs (withHead market unknownTrade) (headOf unknownTrade) [] .trade
        ∧ ¬ TradeFails (payload unknownTrade)
        ∧ lookup market.directory (symbolAt (payload unknownTrade) 0) = none)
      ∧ (HeadIs (withHead market (shortFrame 0x22)) (headOf (shortFrame 0x22)) [] .quote
        ∧ QuoteFails (payload (shortFrame 0x22)))
      ∧ (HeadIs (withHead market (shortFrame 0x23)) (headOf (shortFrame 0x23)) [] .symbolState
        ∧ SymbolStateFails (payload (shortFrame 0x23)))
      ∧ (HeadIs (withHead market (shortFrame 0x24)) (headOf (shortFrame 0x24)) [] .recap
        ∧ RecapFails (payload (shortFrame 0x24)))
      ∧ (HeadIs (withHead market (shortFrame 0x25)) (headOf (shortFrame 0x25)) [] .clock
        ∧ ClockFails (payload (shortFrame 0x25)))
      ∧ (HeadIs (withHead market (frame 0x26 [6])) (headOf (frame 0x26 [6])) [] .session
        ∧ SessionFails (payload (frame 0x26 [6])))
      ∧ ∀ k : Fin 3, BulletinFails (payload (frame 0x27 [8, 1 + byteOf k.val, 0, 0, 0, 0]))
        ∧ bulletinStep (payload (frame 0x27 [8, 1 + byteOf k.val, 0, 0, 0, 0]))
          = [FrameStep.bulletinPush, .bulletinPop, .bulletinClear].getD k.val .none := by
  and_intros <;> decide +kernel

/-- A TRADE payload with one item changed: what was its byte at an offset. -/
def tradeWith (i : Nat) (b : Byte) : List Byte := (tradeBytes 41 2 1 2000 1).set i b

/-- Table 3-4 at its bounds: payloads that fail by one item, and the greatest values that do not. -/
theorem witness_BadFramesChangeNothing_of_an_item :
    (∀ e ∈ ([(0, 0x20), (4, 0x30), (5, 0xFF), (7, 0), (7, 9), (8, 4), (13, 24), (14, 60), (15, 60), (16, 3)] :
        List (Nat × Byte)), TradeFails (tradeWith e.1 e.2) ∧ tradeItems (tradeWith e.1 e.2) = none)
      ∧ (∀ e ∈ ([(4, 0x41), (7, 8), (8, 3), (13, 23), (14, 59), (15, 59), (16, 2)] : List (Nat × Byte)),
        ¬ TradeFails (tradeWith e.1 e.2) ∧ tradeItems (tradeWith e.1 e.2) = some (tradeOf (tradeWith e.1 e.2)))
      ∧ (∀ v ∈ [0, 10000000], TradeFails (tradeBytes 41 2 1 v 1))
      ∧ (∀ v ∈ [1, 9999999], ¬ TradeFails (tradeBytes 41 2 1 v 1))
      ∧ ¬ QuoteFails (payload quoteFrame) ∧ ¬ SymbolStateFails (payload (stateFrame 2))
      ∧ ¬ RecapFails (payload recapFrame) ∧ ¬ ClockFails [23, 59, 59] ∧ ¬ SessionFails [5]
      ∧ ¬ BulletinFails ([7, 3, 14, 16, 1, 1] ++ text ['O']) ∧ BulletinFails ([7, 3, 14, 17, 1, 1] ++ text ['O'])
      ∧ BulletinFails [0, 1, 0, 0, 0, 1, 0x10] ∧ BulletinFails [0, 4, 0, 0, 0, 0] := by
  and_intros <;> decide +kernel

theorem witness_TradeIsApplied :
    HeadIs (withHead market tradeFrame) (headOf tradeFrame) [] .trade
      ∧ (tradeItems (payload tradeFrame)).map (·.symbol) = some drv.symbol
      ∧ lookup (afterGap (headOf tradeFrame) (withHead market tradeFrame)).directory drv.symbol = some 17
      ∧ tableGet (afterGap (headOf tradeFrame) (withHead market tradeFrame)).records 17 = some drv := by
  decide +kernel

/-- A full ticker queue: 255 prints of a symbol and one of class B. -/
def fullQueue : List TickerEntry :=
  .print (aPrint drv.symbol .regular 100 10496)
    :: .print { aPrint drv.symbol .regular 100 10752 with tapeClass := .b }
    :: List.replicate 254 (.print (aPrint drv.symbol .regular 100 10688))

theorem witness_TickerAdmitsOffers :
    let p := aPrint drv.symbol .regular 500 10496
    (State.reset.ticker.state = .stopped ∧ market.ticker.state ≠ .stopped ∧ p.tapeClass ≠ .none
        ∧ market.ticker.queue.length < 256 ∧ fullQueue.length = 256)
      ∧ (∃ before after y, fullQueue = before ++ .print y :: after ∧ y.condition = .regular
        ∧ SamePrint p y ∧ ∀ x ∈ after, takesUp p x = false)
      ∧ (∀ x ∈ fullQueue, takesUp (aPrint drv.symbol .regular 500 10240) x = false)
      ∧ ∃ before after y, fullQueue = before ++ .print y :: after ∧ y.tapeClass = .b
        ∧ ∀ x ∈ before, inClassB x = false := by
  refine ⟨by decide +kernel,
    ⟨[], fullQueue.tail, aPrint drv.symbol .regular 100 10496, rfl, rfl, by decide +kernel, by decide +kernel⟩,
    by decide +kernel,
    ⟨[.print (aPrint drv.symbol .regular 100 10496)], fullQueue.tail.tail,
      { aPrint drv.symbol .regular 100 10752 with tapeClass := .b }, rfl, rfl, by decide +kernel⟩⟩

/-- An announcement is offered to a STOPPED ticker, to one with room, and to full queues with and without a print of
class B. -/
theorem witness_TickerAdmitsOffers_of_a_text :
    State.reset.ticker.state = .stopped ∧ market.ticker.state ≠ .stopped ∧ textFeedInterrupted ≠ []
      ∧ market.ticker.queue.length < 256 ∧ 256 ≤ fullQueue.length
      ∧ fullQueue = fullQueue.take 1
        ++ .print { aPrint drv.symbol .regular 100 10752 with tapeClass := .b } :: fullQueue.drop 2
      ∧ inClassB (fullQueue.headD (.announce [])) = false
      ∧ (∀ x ∈ List.replicate 256 (TickerEntry.announce (text ['A'])), inClassB x = false) := by
  and_intros <;> decide +kernel

theorem witness_QuoteAndSymbolStateAreApplied :
    HeadIs (withHead market quoteFrame) (headOf quoteFrame) [] .quote
      ∧ quoteItems (payload quoteFrame) = some { symbol := drv.symbol, bid := some 10496, ask := none }
      ∧ lookup market.directory drv.symbol = some 17 ∧ tableGet market.records 17 = some drv
      ∧ drv.bid = none ∧ drv.ask = none := by decide +kernel

theorem witness_QuoteAndSymbolStateAreApplied_of_a_state :
    HeadIs (withHead market (stateFrame 1)) (headOf (stateFrame 1)) [] .symbolState
      ∧ symbolStateItems (payload (stateFrame 1)) = some { symbol := drv.symbol, halt := true }
      ∧ HeadIs (withHead market (stateFrame 2)) (headOf (stateFrame 2)) [] .symbolState
      ∧ symbolStateItems (payload (stateFrame 2)) = some { symbol := drv.symbol, halt := false }
      ∧ drv.state = .notOpen ∧ drv.last = none ∧ tableGet market.records 17 = some drv := by decide +kernel

theorem witness_RecapIsApplied :
    HeadIs (withHead market recapFrame) (headOf recapFrame) [] .recap
      ∧ (recapItems (payload recapFrame)).map (·.symbol) = some drv.symbol
      ∧ lookup market.directory drv.symbol = some 17 ∧ tableGet market.records 17 = some drv := by decide +kernel

theorem witness_ClockRuns :
    HeadIs (withHead market (frame 0x25 [23, 59, 59])) (headOf (frame 0x25 [23, 59, 59])) [] .clock
      ∧ clockItems (payload (frame 0x25 [23, 59, 59])) = some { hour := 23, minute := 59, second := 59 }
      ∧ market.phase = .running := by decide +kernel

/-- The state in a session, with a SESSION frame in its queue. -/
def inSession (x : SessionState) (c : Byte) : State :=
  withHead { market with time := { market.time with session := x } } (frame 0x26 [c])

/-- Every SESSION code is the head of a queue in some state, and spells its code. -/
theorem witness_SessionChanges_and_SessionIsIgnored :
    ∀ k : Fin 5, ∀ x ∈ [SessionState.closed, .preOpen, .openMarket, .haltedAll],
      HeadIs (inSession x (byteOf (k.val + 1))) (headOf (frame 0x26 [byteOf (k.val + 1)])) [] .session
        ∧ (inSession x (byteOf (k.val + 1))).time.session = x
        ∧ sessionItems (payload (frame 0x26 [byteOf (k.val + 1)]))
          = [SessionCode.preOpen, .openMarket, .haltAll, .resumeAll, .close][k.val]? := by decide +kernel

/-- The ticker in each state where SESSION OPEN is taken in CLOSED (R113). -/
theorem witness_SessionChanges_of_the_ticker :
    ∀ x ∈ [TickerState.stopped, .running, .draining],
      let s := { inSession .closed 2 with ticker := { market.ticker with state := x } }
      HeadIs s (headOf (frame 0x26 [2])) [] .session ∧ (afterGap (headOf (frame 0x26 [2])) s).time.session = .closed
        ∧ (afterGap (headOf (frame 0x26 [2])) s).ticker.state = x ∧ s.ticker.level ≤ 2 := by decide +kernel

/-- PRE_OPEN taken out of CLOSED in a night poll gap: what the line selects (R139, R140) stands before the day reset
adds its items to the rows (R22). -/
def openingAtNight : State :=
  let s := inSession .closed 1
  { s with line := { s.line with gap := some 9 } }

theorem witness_SessionChanges_of_the_line :
    HeadIs openingAtNight (headOf (frame 0x26 [1])) [] .session
      ∧ (afterGap (headOf (frame 0x26 [1])) openingAtNight).time.session = .closed ∧ openingAtNight.line.gap = some 9
      ∧ openingAtNight.line.transaction = none := by decide +kernel

/-- R22, R139, R140: the gap ends, terminal 1 is updated with its status line, and its row holds the day reset. -/
theorem test_pre_open_selects :
    let t := after .session openingAtNight
    (t.line.gap, t.line.transaction.map (·.kind))
        = (none, some .update)
      ∧ (rowOne t).pending = Machine.allNames := by decide +kernel

/-- R113, R129: out of STOPPED the step timer starts with the interval of the level; out of DRAINING it is kept. -/
theorem test_session_open_and_the_ticker :
    let opened (t : Ticker) : Ticker := (after .session { inSession .closed 2 with ticker := t }).ticker
    opened coldTicker = { coldTicker with state := .running, stepTimer := some 60 }
      ∧ (let t : Ticker := { market.ticker with
          state := .draining, queue := [.announce (text ['A'])], text := text ['O'], cursor := 1, separator := 2,
          stepTimer := some 7 };
        opened t = { t with state := .running }) := by decide +kernel

theorem witness_DayResetResets :
    HeadIs (inSession .closed 1) (headOf (frame 0x26 [1])) [] .session
      ∧ sessionItems (payload (frame 0x26 [1])) = some .preOpen
      ∧ (afterGap (headOf (frame 0x26 [1])) (inSession .closed 1)).time.session = .closed
      ∧ ((afterGap (headOf (frame 0x26 [1])) (inSession .closed 1)).records.map Prod.fst).Nodup := by
  decide +kernel

theorem witness_BulletinStacksChange :
    bulletinItems (payload (bulletinFrame 1))
        = some { stack := 2, duration := 0, tapeFlag := false, text := text ['O'] }
      ∧ HeadIs (withHead market (bulletinFrame 1)) (headOf (bulletinFrame 1)) [] .bulletinPush
      ∧ (bulletinItems (payload (bulletinFrame 2))).isSome = true
      ∧ HeadIs (withHead market (bulletinFrame 2)) (headOf (bulletinFrame 2)) [] .bulletinPop
      ∧ (bulletinItems (payload (bulletinFrame 3))).isSome = true
      ∧ HeadIs (withHead market (bulletinFrame 3)) (headOf (bulletinFrame 3)) [] .bulletinClear
      ∧ (withStack market fullStack).phase = .running
      ∧ (withStack market fullStack).bulletins[(2 : StackId)]
        = [bulletin 'S' 20] ++ bulletin 'D' 40 :: [bulletin 'F' 0, bulletin 'T' 70]
      ∧ (withStack market fullStack).bulletins[(2 : StackId)] = [] ++ bulletin 'S' 20 :: fullStack.tail
      ∧ (bulletin 'D' 40).timer.isSome = true ∧ (bulletin 'S' 20).timer.isSome = true := by decide +kernel

/-- R107 to R109: POP and the expiry of the top's duration offer the text below it, where its tape flag is set. -/
theorem test_text_below_the_top_is_offered :
    let stack := [bulletin 'S' 20, { bulletin 'D' 0 with tapeFlag := true }]
    let s := withStack { market with ticker := { market.ticker with queue := [] } } stack
    ∀ t ∈ [after .bulletinPop (withHead s (bulletinFrame 2)), after (.bulletinDurationExpiry 2 0) s],
      t.ticker.queue = [.announce (text ['D'])] ∧ t.mgmt.alertStatus = market.mgmt.alertStatus := by decide +kernel

/-- A LOAD of one entry at the head of the queue of a state in operation. -/
def loadHead (s : State) (body : List Byte) (size n : Nat) (step : FrameStep) : Prop :=
  HeadIs (withHead s body) (headOf body) [] step ∧ s.load = none ∧ OneEntry body size n

theorem witness_LoadParamStores :
    loadHead market (loadFrame 1 0 1 (bytes2 254)) 2 0 .loadParam
      ∧ loadHead market (loadFrame 1 12 1 (bytes2 3600)) 2 12 .loadParam
      ∧ loadHead market (loadFrame 1 4 1 (bytes2 61)) 2 4 .loadParam
      ∧ loadHead market (loadFrame 1 9 1 (bytes2 180)) 2 9 .loadParam ∧ param market 10 = 180
      ∧ loadHead market (loadFrame 1 19 1 (bytes2 0xFFFF)) 2 19 .loadParam
      ∧ (entryOf (loadFrame 1 12 1 (bytes2 3600))) = bytes2 3600 := by
  unfold loadHead
  decide +kernel

/-- A LOAD of one SYMBOL entry. -/
def symbolFrame (n : Nat) (c : List Char) : List Byte := loadFrame 2 n 1 (symbolBytesOf c)

theorem witness_LoadSymbolActs :
    (loadHead market (symbolFrame 511 ['K', 'L', 'M', ' ', ' ']) 11 511 .loadSymbol
        ∧ (symbolEntry (entryOf (symbolFrame 511 ['K', 'L', 'M', ' ', ' ']))).map (·.symbol)
          = some (code 'K' 'L' 'M' ' ' ' ')
        ∧ tableGet market.records 511 = none
        ∧ lookup market.directory (code 'K' 'L' 'M' ' ' ' ') = none)
      ∧ (loadHead market (symbolFrame 17 [' ', ' ', ' ', ' ', ' ']) 11 17 .loadSymbol
        ∧ (symbolEntry (entryOf (symbolFrame 17 [' ', ' ', ' ', ' ', ' ']))).map (·.symbol) = some blankSymbol
        ∧ tableGet market.records 17 = some drv)
      ∧ (loadHead market (symbolFrame 17 ['K', 'L', 'M', ' ', ' ']) 11 17 .loadSymbol
        ∧ code 'K' 'L' 'M' ' ' ' ' ≠ drv.symbol)
      ∧ (loadHead market (symbolFrame 17 ['D', 'R', 'V', ' ', ' ']) 11 17 .loadSymbol
        ∧ (symbolEntry (entryOf (symbolFrame 17 ['D', 'R', 'V', ' ', ' ']))).map (·.symbol) = some drv.symbol
        ∧ lookup market.directory drv.symbol = some 17)
      ∧ loadHead market (symbolFrame 31 [' ', ' ', ' ', ' ', ' ']) 11 31 .loadSymbol
      ∧ loadHead market (symbolFrame 31 ['D', 'R', 'V', ' ', ' ']) 11 31 .loadSymbol := by
  unfold loadHead
  decide +kernel

/-- SYMBOL entries that fail by their symbol, tape class, denominator and previous close. -/
theorem witness_LoadSymbolActs_refused :
    ∀ bytes ∈ [text [' ', 'A', ' ', ' ', ' '] ++ [1, 8, 0, 12, 1, 0],
        text ['A', ' ', ' ', ' ', ' '] ++ [3, 8, 0, 12, 1, 0], text ['A', ' ', ' ', ' ', ' '] ++ [2, 9, 0, 12, 1, 0],
        text ['A', ' ', ' ', ' ', ' '] ++ [2, 16, 0xFF, 0xFF, 1, 0]],
      loadHead market (loadFrame 2 5 1 bytes) 11 5 .loadSymbol ∧ entryOf (loadFrame 2 5 1 bytes) = bytes
        ∧ (¬ GoodSymbol (symbolAt bytes 0) ∨ 2 < at8 bytes 5 ∨ (at8 bytes 6 ≠ 8 ∧ at8 bytes 6 ≠ 16)
          ∨ PriceAbsent bytes 7) := by
  unfold loadHead
  decide +kernel

/-- Chain A out of IDLE. -/
def offlineA : Chain :=
  { chainA with state := .offline, shadowValid := false, keepaliveTimer := none }

def withChainA (ch : Chain) : State := { market with chains := market.chains.set 0 ch }

/-- A cycle in flight on chain A, a QUOTE slot in mid-flash on it, and a STATUS slot on chain B, which is absent. -/
def shown : State :=
  { withChainA { chainA with
      state := .settling, keepaliveTimer := none, settleTimer := some 1,
      cycle := some { list := [], cellPeriod := 10, settle := 5, image := [], verified := true, returned := [] } } with
    slots := [(0, { slotZero with flash := some 7 }),
      (1, { chain := 1, start := 0, kind := .status, dirty := false, flash := none })] }

/-- Slots 0 and 1, of chains that are not IDLE, for what a mark says of the flags and the flash of each. -/
theorem witness_of_the_marks :
    (shown.records.map Prod.fst).Nodup ∧ (∀ e ∈ shown.slots, (shown.chains[e.2.chain]).state ≠ .idle)
      ∧ (market.records.map Prod.fst).Nodup ∧ (market.chains[slotZero.chain]).state = .idle
      ∧ ({ shown with feed := { shown.feed with silence := some 0 } } : State).feed.silence = some 0
      ∧ HeadIs (withHead { shown with time := { shown.time with session := .closed } } (frame 0x26 [1]))
        (headOf (frame 0x26 [1])) [] .session
      ∧ loadHead shown (symbolFrame 17 ['K', 'L', 'M', ' ', ' ']) 11 17 .loadSymbol := by
  unfold loadHead
  decide +kernel

/-- R96 to R98, R104, R110: slots 0 and 1 after the loss of the feed, the gap-before marking, the day reset, a deletion
and a rename. The set of every name holds LAST, and starts the flash of 3 s; STALE alone starts none. -/
theorem test_marks_at_the_slots :
    let marks (t : State) : List (Bool × Timer) := t.slots.map (fun e => (e.2.dirty, e.2.flash))
    marks (after .silenceTimerExpiry { shown with feed := { shown.feed with silence := some 0 } })
        = [(true, some 7), (true, none)]
      ∧ marks (afterGap { body := tradeFrame, gapBefore := true } shown) = [(true, some 7), (false, none)]
      ∧ marks (after .session (withHead { shown with time := { shown.time with session := .closed } } (frame 0x26 [1])))
        = [(true, some 3000), (true, none)]
      ∧ marks (after .loadSymbol (withHead shown (symbolFrame 17 [' ', ' ', ' ', ' ', ' '])))
        = [(true, none), (false, none)]
      ∧ marks (after .loadSymbol (withHead shown (symbolFrame 17 ['K', 'L', 'M', ' ', ' '])))
        = [(true, some 3000), (false, none)] := by decide +kernel

/-- A QUOTE entry of slot 1 on chain A: SYMBOL and VOLUME of record 17 with a gap of 3, at cell 498, so that its span
ends at cell 511, and lamp cell 63. -/
def quoteEntry : List Byte := [1, 0, 1, 0xF2, 0, 17, 1, 6, 0, 0, 0, 0, 3, 63, 1]

theorem witness_LoadSlotReplaces :
    loadHead market (loadFrame 3 1 1 quoteEntry) 15 1 .loadSlot
      ∧ entryOf (loadFrame 3 1 1 quoteEntry) = quoteEntry ∧ ¬ SlotValuesFail quoteEntry
      ∧ (slotSpan quoteEntry, at16 quoteEntry 2) = (14, 498)
      ∧ (slotOf quoteEntry).kind = .quote 17 [.symbol, .volume] 3 (some 63) true
      ∧ (∀ e ∈ market.slots, e.2.chain = 0 ∧ e.2.start + spanWidth e.2.kind ≤ 498 ∧ lampOf e.2.kind = some 0)
      ∧ (market.chains[(0 : ChainId)]).state = .idle
      ∧ ((withChainA offlineA).chains[(0 : ChainId)]).state ≠ .idle
      ∧ loadHead market (loadFrame 3 0 1 (List.replicate 15 0)) 15 0 .loadSlot
      ∧ at8 (entryOf (loadFrame 3 0 1 (List.replicate 15 0))) 0 = 0
      ∧ (tableGet market.slots 0).any (fun old => old.chain == 0) = true := by
  unfold loadHead SlotValuesFail
  decide +kernel

/-- The slot that the entry above describes claims no cell of slot 0. -/
theorem witness_LoadSlotReplaces_of_free_cells : ¬ CellTaken market.slots 1 (slotOf quoteEntry) := by
  rintro ⟨e, he, -, cell, h⟩
  obtain rfl : e = (0, slotZero) := by simpa [market] using he
  simp [claimsCell, claimsLamp, slotZero, slotOf, quoteEntry, slotCodes, at8, at16, spanWidth, quoteWidth,
    fieldWidth, lampOf] at h
  omega

/-- SLOT entries that fail: each value of R93 one past its bound; and one that reaches into slot 0. -/
theorem witness_LoadSlotReplaces_refused :
    (∀ x ∈ [[5], [3, 4], [3, 0, 2, 0], [3, 0, 1, 0xFC], [1, 0, 0, 9, 2, 0, 1], [1, 0, 0, 9, 0, 1],
        [1, 0, 0, 9, 0, 1, 9], [1, 0, 0, 9, 0, 1, 1, 1], [1, 0, 0, 9, 0, 1, 1, 0, 0, 0, 0, 0, 4],
        [1, 0, 0, 9, 0, 1, 1, 0, 0, 0, 0, 0, 3, 64], [1, 0, 0, 9, 0, 1, 1, 0, 0, 0, 0, 0, 3, 63, 2],
        [2, 0, 0, 9, 0, 7], [2, 0, 0, 9, 33, 7], [2, 0, 0, 9, 32, 8]],
        SlotValuesFail (x ++ List.replicate (15 - x.length) (0 : Byte)))
      ∧ loadHead market (loadFrame 3 255 1 (5 :: List.replicate 14 0)) 15 255 .loadSlot
      ∧ loadHead market (loadFrame 3 1 1 (statusEntry 0 4)) 15 1 .loadSlot
      ∧ entryOf (loadFrame 3 1 1 (statusEntry 0 4)) = statusEntry 0 4 ∧ at8 (statusEntry 0 4) 0 ≠ 0 := by
  unfold loadHead SlotValuesFail
  decide +kernel

theorem witness_LoadSlotReplaces_of_a_taken_cell : CellTaken market.slots 1 (slotOf (statusEntry 0 4)) :=
  ⟨(0, slotZero), by decide +kernel, by decide, 4, Or.inl ⟨by decide +kernel, by decide +kernel⟩⟩

/-- R92, R93: a QUOTE entry is taken with all its items, and the same entry one cell on is refused; a slot whose span
crosses cell 0 is refused, and one that clears it is stored. -/
theorem test_load_slot_values :
    ((tableGet (after .loadSlot (withHead (withChainA offlineA) (loadFrame 3 1 1 quoteEntry))).slots 1).map
        description) = some (0, 498, .quote 17 [.symbol, .volume] 3 (some 63) true)
      ∧ (after .loadSlot (withHead market (loadFrame 3 1 1 (quoteEntry.set 3 0xF3)))).mgmt.replyQueue
        = [.reply 0x0101 [4, 0, 0]]
      ∧ (tableGet (after .loadSlot (withHead market (loadFrame 3 1 1 (statusEntry 0 4)))).slots 1) = none
      ∧ (tableGet (after .loadSlot (withHead market (loadFrame 3 1 1 (statusEntry 0 5)))).slots 1).map description
        = some (0, 5, .status) := by decide +kernel

/-- A LOAD that empties slot 0, and the same with gap-before set, so that the stale mark of record 17 starts a refresh
of chain A in the same step (R48, R96, R75). -/
def emptying : List Byte := loadFrame 3 0 1 (List.replicate 15 0)

def emptyingAfterGap : State := { market with intake := [{ body := emptying, gapBefore := true }] }

/-- The state of chain A, its resync, and the image of its cycle. -/
def refreshed (s : State) : ChainState × Bool × Option (List Byte) :=
  let ch := s.chains[(0 : ChainId)]
  (ch.state, ch.resync, ch.cycle.map (·.image))

/-- The end of a cycle of chain A, with what follows it. -/
def cycleEnds (s : State) : State := after (.settleCompletion 0) (after (.shiftCompletion 0 []) s)

/-- Chain A as it composes an image without slots: its lamps dark and its cells blank. -/
def blankA : List Byte := 0x00 :: List.replicate 8 0x20

/-- R75, R94: a load that finds chain A IDLE causes one refresh. Of a load and a snapshot that come together, the load
first: the image has the new claims, and the resync causes a second refresh of the same cells; the snapshot first,
taken by an earlier step: the image keeps the former claims, and the next refresh has the new ones. -/
theorem test_slot_load_and_snapshots :
    let former : List Byte := [0x00, 0x20, 0x20, 0x20, 0x06] ++ text ['1', '4', ' ', ' ']
    ([withHead market emptying, emptyingAfterGap, withHead shifting emptying].flatMap (fun s =>
        [refreshed (after .loadSlot s), refreshed (cycleEnds (after .loadSlot s))]))
      = [(.shifting, false, some blankA), (.idle, false, none),
          (.shifting, true, some blankA), (.shifting, false, some blankA),
          (.shifting, true, some former), (.shifting, false, some blankA)] := by decide +kernel

theorem witness_LoadSlotReplaces_of_a_snapshot :
    HeadIs emptyingAfterGap { body := emptying, gapBefore := true } [] .loadSlot ∧ emptyingAfterGap.load = none
      ∧ OneEntry emptying 15 0 ∧ at8 (entryOf emptying) 0 = 0
      ∧ (emptyingAfterGap.chains[(0 : ChainId)]).state = .idle
      ∧ ((afterGap { body := emptying, gapBefore := true } emptyingAfterGap).chains[(0 : ChainId)]).state ≠ .idle := by
  decide +kernel

/-- A LOAD of the CHAIN entry of chain A. -/
def chainFrame (enabled : Byte) : List Byte := loadFrame 4 0 1 [enabled, 0, 200, 5, 10, 200, 40]

theorem witness_LoadChainAndModuleStore :
    loadHead market (chainFrame 1) 7 0 .loadChain ∧ loadHead market (chainFrame 0) 7 0 .loadChain
      ∧ (shifting.chains[(0 : ChainId)]).state = .shifting
      ∧ (market.chains[(0 : ChainId)]).state = .idle
      ∧ (market.chains[(0 : ChainId)]).entry.enabled = true
      ∧ ((withChainA offlineA).chains[(0 : ChainId)]).state = .offline
      ∧ ((withChainA offlineA).chains[(0 : ChainId)]).entry.enabled = true
      ∧ at8 (entryOf (chainFrame 0)) 0 = 0
      ∧ ((withChainA { offlineA with entry := coldChainEntry }).chains[(0 : ChainId)]).entry.enabled = false
      ∧ ((withChainA { offlineA with entry := coldChainEntry }).chains[(0 : ChainId)]).senseLevel = true
      ∧ ((withChainA { offlineA with entry := coldChainEntry }).chains[(0 : ChainId)]).faultCount < 3 := by
  unfold loadHead
  decide +kernel

theorem witness_LoadChainAndModuleStore_of_a_module :
    loadHead market (loadFrame 5 255 1 [3]) 1 (3 * 64 + 63) .loadModule
      ∧ loadHead market (loadFrame 5 1 1 [0]) 1 (0 * 64 + 1) .loadModule
      ∧ at8 (entryOf (loadFrame 5 1 1 [0])) 0 = 0 ∧ at8 (entryOf (loadFrame 5 255 1 [3])) 0 = 3
      ∧ loadHead market (loadFrame 5 0 1 [4]) 1 0 .loadModule
      ∧ 3 < at8 (entryOf (loadFrame 5 0 1 [4])) 0 := by
  unfold loadHead
  decide +kernel

/-- A LOAD of one TERMINAL entry. -/
def termFrame (n : Nat) (enabled row : Byte) : List Byte := loadFrame 6 n 1 (terminalBytes enabled row)

theorem witness_LoadTerminalReplaces :
    loadHead market (termFrame 0 1 17) 34 0 .loadTerminal
      ∧ loadHead market (termFrame 0 0 17) 34 0 .loadTerminal
      ∧ loadHead market (termFrame 31 1 17) 34 31 .loadTerminal
      ∧ ((List.finRange 16).map (fun i => at16 (entryOf (termFrame 31 1 17)) (2 + 2 * i.val)))
        = 17 :: List.replicate 15 0xFFFF
      ∧ (at8 (entryOf (termFrame 31 1 17)) 0, at8 (entryOf (termFrame 31 1 17)) 1) = (1, 0)
      ∧ at8 (entryOf (termFrame 0 0 17)) 0 = 0
      ∧ (tableGet market.records 17).isSome = true
      ∧ (market.line.terminals[(0 : TermId)]).enabled = true ∧ inTransaction market 0 = false
      ∧ (market.line.terminals[(31 : TermId)]).enabled = false
      ∧ (market.line.terminals[(31 : TermId)]).state = .disabled
      ∧ loadHead market (termFrame 0 1 18) 34 0 .loadTerminal ∧ tableGet market.records 18 = none
      ∧ at16 (entryOf (termFrame 0 1 18)) 2 = 18 := by
  unfold loadHead
  decide +kernel

/-- The flag of terminal 1 cleared during a transaction with it, and set again before that transaction's end; and terminal
2 enabled out of DISABLED on a free line. -/
theorem witness_LoadTerminalReplaces_of_the_flag :
    let stands := onLine (awaiting .update []) { updated with enabled := false }
    (loadHead updating (termFrame 0 0 17) 34 0 .loadTerminal ∧ inTransaction updating 0 = true
        ∧ (updating.line.terminals[(0 : TermId)]).enabled = true)
      ∧ (loadHead stands (termFrame 0 1 17) 34 0 .loadTerminal
        ∧ (stands.line.terminals[(0 : TermId)]).enabled = false
        ∧ (stands.line.terminals[(0 : TermId)]).state ≠ .disabled)
      ∧ loadHead market (termFrame 1 1 17) 34 1 .loadTerminal ∧ market.line.transaction = none
      ∧ (market.line.terminals[(1 : TermId)]).state = .disabled
      ∧ (market.line.terminals[(1 : TermId)]).enabled = false := by
  unfold loadHead
  decide +kernel

/-- R139, R151: a free line activates a terminal that is enabled; a flag cleared during a transaction leaves the state
until its end. -/
theorem test_load_terminal_flag :
    let free := { market with line := { market.line with pollPointer := 0 } }
    let enabling := after .loadTerminal (withHead free (termFrame 1 1 17))
    let clearing := after .loadTerminal (withHead updating (termFrame 0 0 17))
    enabling.line.transaction.map (fun tx => (tx.terminal, tx.kind)) = some (1, .activate)
      ∧ (clearing.line.terminals[(0 : TermId)]).state = .active
      ∧ ((after .responseTimeout clearing).line.terminals[(0 : TermId)]).state = .disabled := by decide +kernel

/-- TERMINAL entries that fail by a flag, a row item, and a record in two rows. -/
theorem witness_LoadTerminalReplaces_refused :
    loadHead market (termFrame 0 2 17) 34 0 .loadTerminal ∧ 1 < at8 (entryOf (termFrame 0 2 17)) 0
      ∧ (let bytes : List Byte := [1, 0, 2, 0] ++ List.replicate 30 0xFF;
        loadHead market (loadFrame 6 0 1 bytes) 34 0 .loadTerminal ∧ entryOf (loadFrame 6 0 1 bytes) = bytes
          ∧ 511 < at16 bytes 2 ∧ at16 bytes 2 ≠ 0xFFFF)
      ∧ (let bytes : List Byte := [1, 0, 0, 17, 0, 17] ++ List.replicate 28 0xFF;
        loadHead market (loadFrame 6 0 1 bytes) 34 0 .loadTerminal ∧ entryOf (loadFrame 6 0 1 bytes) = bytes
          ∧ at16 bytes 2 = at16 bytes 4 ∧ at16 bytes 2 ≠ 0xFFFF) := by
  unfold loadHead
  decide +kernel

/-- The two entries taken one after the other, the second refused, an empty LOAD, and one of a wrong length. -/
theorem witness_LoadsTakeEntriesInOrder :
    (let s := withHead market (loadFrame 1 9 2 (bytes2 50 ++ bytes2 300));
      let one := { s with load := some 1 };
      HeadIs s (headOf (loadFrame 1 9 2 (bytes2 50 ++ bytes2 300))) [] .loadParam ∧ s.load = none
        ∧ at16 (payload (loadFrame 1 9 2 (bytes2 50 ++ bytes2 300))) 1
          + at16 (payload (loadFrame 1 9 2 (bytes2 50 ++ bytes2 300))) 3 ≤ 20
        ∧ (payload (loadFrame 1 9 2 (bytes2 50 ++ bytes2 300))).length = 5 + 2 * 2
        ∧ (applyParamEntry 9 (bytes2 50) s).isSome = true ∧ 0 + 1 < 2
        ∧ (applyParamEntry 10 (bytes2 300) one).isNone = true ∧ 1 < 2
        ∧ (applyParamEntry 10 (bytes2 299) one).isSome = true ∧ 1 + 1 = 2)
      ∧ HeadIs (withHead market (loadFrame 1 20 0 [])) (headOf (loadFrame 1 20 0 [])) [] .loadParam
      ∧ HeadIs (withHead market (loadFrame 1 0 1 [0])) (headOf (loadFrame 1 0 1 [0])) [] .loadParam
      ∧ (payload (loadFrame 1 0 1 [0])).length ≠ 5 + 1 * 2 := by decide +kernel

theorem witness_ReadAndReportAnswer :
    HeadIs (withHead market (frame 0x42 [1, 0, 9, 0, 11])) (headOf (frame 0x42 [1, 0, 9, 0, 11])) [] .read
      ∧ (at8 (payload (frame 0x42 [1, 0, 9, 0, 11])) 0, 20, 2) = (1, 20, 2)
      ∧ HeadIs (withHead market (frame 0x42 [1, 0, 9, 0, 12])) (headOf (frame 0x42 [1, 0, 9, 0, 12])) [] .read
      ∧ HeadIs (withHead market (frame 0x42 [1, 0, 9, 0, 11, 0])) (headOf (frame 0x42 [1, 0, 9, 0, 11, 0])) [] .read
      ∧ HeadIs (withHead market (frame 0x43 [0])) (headOf (frame 0x43 [0])) [] .report
      ∧ HeadIs (withHead market (frame 0x43 [])) (headOf (frame 0x43 [])) [] .report := by decide +kernel

/-- A part with a record, a slot of each kind, and a print and an announcement in the ticker queue. -/
def readable : State :=
  { market with
    slots := [(0, slotZero), (1, { slotZero with start := 20, kind := .message 8 7 }),
      (2, { slotZero with start := 30, kind := .clock }), (3, { slotZero with start := 40, kind := .status })],
    ticker := { market.ticker with
      queue := [.print (aPrint drv.symbol .opening 2000 10560), .announce (text ['A'])] } }

theorem witness_ReadEntriesAreLaidOut :
    tableGet readable.records 17 = some drv ∧ tableGet readable.records 18 = none ∧ drv.lastTime = none
      ∧ (∀ n ∈ [0, 1, 2, 3], (tableGet readable.slots n).isSome = true) ∧ tableGet readable.slots 4 = none
      ∧ [BoardField.last].length ≤ 6
      ∧ readable.ticker.queue[0]? = some (.print (aPrint drv.symbol .opening 2000 10560))
      ∧ readable.ticker.queue[1]? = some (.announce (text ['A'])) ∧ (text ['A']).length ≤ 32
      ∧ readable.ticker.queue.length ≤ 2 := by decide +kernel

/-- Tables 11-7 and 11-8, written out by hand: a SYMBOL, a SLOT, a RECORD behind its first byte, a PRINT. -/
theorem test_read_entries :
    readEntry readable 2 17 = text ['D', 'R', 'V', ' ', ' '] ++ [1, 8, 0, 41, 8, 0x60]
      ∧ readEntry readable 3 0 = [1, 0, 0, 0, 0, 17, 2, 0, 0, 0, 0, 0, 0, 0, 1]
      ∧ (readEntry { readable with records := [(17, { drv with netChange := -1, tapeWhole := some 300 })] } 7 17
        ).drop 4 = [0, 1, 0xFF, 0xFF, 0xFF] ++ List.replicate 6 0xFF ++ List.replicate 4 0 ++ List.replicate 6 0xFF
          ++ [0xFF, Config.freeByte 0 34, Config.freeByte 0 35, 0, 1, 1, 44, 0, 0]
      ∧ readEntry readable 8 0 = [1, 0, 17] ++ text ['D', 'R', 'V', ' ', ' ']
        ++ [0, 0x29, 0x40, 0, 0, 7, 0xD0, 10, 15, 2, 1, 1] ++ List.replicate 14 0 :=
  ⟨by decide +kernel, by decide +kernel, rfl, by decide +kernel⟩

theorem witness_AlertsAreControlled :
    (payload (frame 0x44 [1, 0, 0x80])).length = 3
      ∧ HeadIs (withHead alerted (frame 0x44 [1, 0, 0x80])) (headOf (frame 0x44 [1, 0, 0x80])) [] .clearAlerts
      ∧ HeadIs (withHead alerted (frame 0x44 [2, 0, 0x08])) (headOf (frame 0x44 [2, 0, 0x08])) [] .setMask := by
  decide +kernel

theorem witness_ChainAndTerminalAreReset :
    HeadIs (withHead market (frame 0x44 [3, 0])) (headOf (frame 0x44 [3, 0])) [] .chainReset
      ∧ HeadIs (withHead shifting (frame 0x44 [3, 0])) (headOf (frame 0x44 [3, 0])) [] .chainReset
      ∧ HeadIs (withHead market (frame 0x44 [3, 4])) (headOf (frame 0x44 [3, 4])) [] .chainReset
      ∧ (payload (frame 0x44 [3, 4])).length = 2
      ∧ (market.chains[(1 : ChainId)]).state = .offline ∧ (market.chains[(1 : ChainId)]).senseLevel = false := by
  decide +kernel

theorem witness_ChainAndTerminalAreReset_of_a_terminal :
    HeadIs (withHead market (frame 0x44 [4, 1])) (headOf (frame 0x44 [4, 1])) [] .terminalReset
      ∧ HeadIs (withHead market (frame 0x44 [4, 32])) (headOf (frame 0x44 [4, 32])) [] .terminalReset
      ∧ HeadIs (withHead market (frame 0x44 [4, 33])) (headOf (frame 0x44 [4, 33])) [] .terminalReset
      ∧ (payload (frame 0x44 [4, 33])).length = 2
      ∧ (market.line.terminals[(0 : TermId)]).state ≠ .disabled ∧ inTransaction market 0 = false
      ∧ inTransaction updating 0 = true ∧ (market.line.terminals[(31 : TermId)]).state = .disabled := by
  decide +kernel

theorem witness_TickerIsFlushed :
    HeadIs (withHead market (frame 0x44 [5])) (headOf (frame 0x44 [5])) [] .tickerFlush
      ∧ (payload (frame 0x44 [5])).length = 1 := by decide +kernel

theorem witness_BadFramesChangeNothing_of_the_responder :
    (∀ body ∈ [loadFrame 9 0 1 [0], frame 0x41 [1, 0, 0, 0], frame 0x42 [9, 0, 0, 0, 1], frame 0x42 [1],
        frame 0x44 [], frame 0x44 [6], frame 0x45 [3], frame 0x45 [1, 1]],
        HeadIs (withHead market body) (headOf body) [] .refused)
      ∧ HeadIs (withHead market (loadFrame 1 20 1 (bytes2 0))) (headOf (loadFrame 1 20 1 (bytes2 0))) [] .loadParam
      ∧ HeadIs (withHead market (loadFrame 2 512 1 [])) (headOf (loadFrame 2 512 1 [])) [] .loadSymbol
      ∧ HeadIs (withHead market (loadFrame 3 256 1 [])) (headOf (loadFrame 3 256 1 [])) [] .loadSlot
      ∧ HeadIs (withHead market (loadFrame 4 4 1 [])) (headOf (loadFrame 4 4 1 [])) [] .loadChain
      ∧ HeadIs (withHead market (loadFrame 5 256 1 [])) (headOf (loadFrame 5 256 1 [])) [] .loadModule
      ∧ HeadIs (withHead market (loadFrame 6 32 1 [])) (headOf (loadFrame 6 32 1 [])) [] .loadTerminal
      ∧ market.load = none
      ∧ HeadIs (withHead market (frame 0x44 [1])) (headOf (frame 0x44 [1])) [] .clearAlerts
      ∧ HeadIs (withHead market (frame 0x44 [2, 0])) (headOf (frame 0x44 [2, 0])) [] .setMask
      ∧ HeadIs (withHead market (frame 0x44 [3])) (headOf (frame 0x44 [3])) [] .chainReset
      ∧ HeadIs (withHead market (frame 0x44 [4, 1, 0])) (headOf (frame 0x44 [4, 1, 0])) [] .terminalReset
      ∧ HeadIs (withHead market (frame 0x44 [5, 0])) (headOf (frame 0x44 [5, 0])) [] .tickerFlush := by
  decide +kernel

theorem witness_ReturnLineSends :
    State.reset.phase = .running ∧ State.reset.mgmt.sending = none
      ∧ (after .returnTransmissionStart State.reset).mgmt.sending ≠ none := by decide +kernel

theorem witness_ReturnLineSends_of_a_frame :
    let s := after .returnTransmissionStart State.reset
    s.phase = .running ∧ s.mgmt.sending = some (returnBytes s)
      ∧ (returnBytes s)[2]? = some 10 ∧ (List.range 8).map (fun j => returnLine s (16 + j))
        = [false, false, false, false, true, false, true, false] := by decide +kernel

theorem witness_ColdResetIsTaken :
    HeadIs (withHead market (frame 0x45 [1])) (headOf (frame 0x45 [1])) [] .resetCold
      ∧ market.phase ≠ .pinHeld ∧ (after .resetPinAssert market).phase = .pinHeld
      ∧ (after .powerOn market).phase = .initRunning := by decide +kernel

theorem witness_WarmResetIsTaken :
    HeadIs (withHead market (frame 0x45 [2])) (headOf (frame 0x45 [2])) [] .resetWarm
      ∧ (market.chains[(0 : ChainId)]).entry.enabled = true ∧ (market.chains[(0 : ChainId)]).senseLevel = true
      ∧ (market.chains[(3 : ChainId)]).entry.enabled = false := by decide +kernel

/-- R54, R56, R104, R111: at a warm reset a STATUS slot of a chain that is left OFFLINE is marked, with the feed state
RUNNING before it; a QUOTE slot there keeps its mark. -/
theorem witness_WarmResetIsTaken_of_the_slots :
    let s := withHead { shown with chains := shown.chains.set 0 offlineA } (frame 0x45 [2])
    let u := afterGap (headOf (frame 0x45 [2])) s
    let w := { s with chains := s.chains.set 0 { offlineA with senseLevel := false } }
    HeadIs s (headOf (frame 0x45 [2])) [] .resetWarm ∧ u.feed.feedState ≠ .notYet
      ∧ (tableGet u.slots 0).map (·.kind) = some slotZero.kind ∧ (tableGet u.slots 1).map (·.kind) = some .status
      ∧ (u.chains[(0 : ChainId)]).entry.enabled = true ∧ (u.chains[(1 : ChainId)]).entry.enabled = false
      ∧ ((after (.resetWarm 9) w).slots.map (fun e => (e.1, e.2.dirty, e.2.flash)))
        = [(0, false, none), (1, true, none)] := by decide +kernel

/-- R41, R174: during INIT the return line carries SYNC fill, 01011010, and a feed byte is line content not taken. -/
theorem witness_ResetPinHoldsThePart_of_init :
    let s := after .powerOn market
    s.phase = .initRunning ∧ s.pending = []
      ∧ (∀ straps sense, Instr.feedByteReceived (.byte 0x5A) ≠ .initEnd straps sense)
      ∧ Instr.feedByteReceived (.byte 0x5A) ≠ .powerOn ∧ Instr.feedByteReceived (.byte 0x5A) ≠ .resetPinAssert
      ∧ (List.range 9).map (returnLine s) = [false, true, false, true, true, false, true, false, false]
      ∧ (returnLine (after .resetPinAssert s) 0, returnBytes (after .resetPinAssert s)) = (true, []) := by
  refine ⟨by decide +kernel, by decide +kernel, fun _ _ h => Instr.noConfusion h, ?_⟩
  decide +kernel

theorem witness_ResetPinHoldsThePart :
    market.phase ≠ .pinHeld ∧ (after .resetPinAssert market).phase = .pinHeld
      ∧ (after .resetPinAssert market).pending = [] ∧ Instr.trade ≠ .resetPinRelease ∧ Instr.trade ≠ .powerOn := by
  decide +kernel

/-- A chain in IDLE whose list is empty. -/
def emptyListA : Chain := { chainA with modules := Vector.replicate 64 .endOfList }

theorem witness_KeepaliveRefreshes :
    market.phase = .running ∧ (market.chains[(0 : ChainId)]).state = .idle
      ∧ (market.chains[(0 : ChainId)]).keepaliveTimer = some 10000
      ∧ composeImage market 0 (inForce (market.chains[(0 : ChainId)]).modules) ≠ []
      ∧ composeImage (withChainA emptyListA) 0 (inForce emptyListA.modules) = [] := by decide +kernel

theorem witness_ShiftAndSettleComplete :
    shifting.phase = .running ∧ (shifting.chains[(0 : ChainId)]).state = .shifting
      ∧ (shifting.chains[(0 : ChainId)]).cycle.map (·.verified) = some true
      ∧ (let cy := (shifting.chains[(0 : ChainId)]).cycle.getD
          { list := [], cellPeriod := 0, settle := 0, image := [], verified := false, returned := [] };
        let layout := stageLayout cy.list 0 0 0;
        let shadow := (shifting.chains[(0 : ChainId)]).shadow;
        (shiftBits shadow).length = 8 * shadow.length
          ∧ (∀ i : Fin 72, (shiftBits shadow)[i.val]?
            = (shadow[i.val / 8]?).map (fun b => b.getLsbD (7 - i.val % 8)))
          ∧ layout.length = shadow.length
          ∧ (∀ e ∈ layout, e.2 ≠ .filler) ∧ layout.head?.map Prod.fst = some 1 ∧ layout[1]?.map Prod.fst = some 0)
      ∧ (let t := after .chainReset (withHead market (frame 0x44 [3, 0]));
        (t.chains[(0 : ChainId)]).state = .shifting
          ∧ (t.chains[(0 : ChainId)]).cycle.map (·.verified) = some false) := by decide +kernel

/-- R78, R84: a MODULE entry taken during SHIFTING is there when the cycle settles. -/
theorem test_shift_completion_keeps_a_load :
    let loaded := after .loadModule (withHead shifting (loadFrame 5 2 1 [1]))
    let t := after (.shiftCompletion 0 (shiftBits (0x00 :: List.replicate 8 0x20))) loaded
    let ch := t.chains[(0 : ChainId)]
    (ch.state, ch.resync, ch.reload, ch.modules[2], ch.entry == chainA.entry)
      = (.settling, true, true, .char8, true) := by decide +kernel

/-- Chain A settling. -/
def settlingA (faultCount : Nat) (resync : Bool) : State :=
  withChainA { chainA with
    state := .settling, keepaliveTimer := none, settleTimer := some 1, faultCount, resync,
    cycle := some { list := [], cellPeriod := 10, settle := 5, image := [], verified := true, returned := [] } }

theorem witness_ShiftAndSettleComplete_of_a_settling_chain :
    (∀ f ∈ [2, 3], ∀ r ∈ [false, true],
        (settlingA f r).phase = .running ∧ ((settlingA f r).chains[(0 : ChainId)]).state = .settling
          ∧ ((settlingA f r).chains[(0 : ChainId)]).settleTimer = some 1
          ∧ ((settlingA f r).chains[(0 : ChainId)]).entry.enabled = true
          ∧ ((settlingA f r).chains[(0 : ChainId)]).faultCount = f
          ∧ ((settlingA f r).chains[(0 : ChainId)]).resync = r) := by decide +kernel

/-- Chain A settling with a reset pending, and disabled; with nothing else, a resync or a count at the limit. -/
theorem witness_ShiftAndSettleComplete_of_a_reset_and_a_disabled_chain :
    ∀ pending ∈ [true, false], ∀ enabled ∈ [true, false], ∀ f ∈ [2, 3], ∀ r ∈ [false, true],
      let old := (settlingA f r).chains[(0 : ChainId)]
      let s := withChainA { old with resetPending := pending, entry := { old.entry with enabled } }
      s.phase = .running ∧ (s.chains[(0 : ChainId)]).state = .settling
        ∧ (s.chains[(0 : ChainId)]).settleTimer = some 1
        ∧ (s.chains[(0 : ChainId)]).resetPending = pending
        ∧ (s.chains[(0 : ChainId)]).entry.enabled = enabled := by decide +kernel

/-- R79, R86: a pending reset clears the count and the first mismatch, and an enabled chain refreshes, unverified. -/
theorem test_settle_completion_with_a_reset_pending :
    let old := (settlingA 3 false).chains[(0 : ChainId)]
    let s := withChainA { old with resetPending := true, firstMismatch := some 1 }
    let ch := (after (.settleCompletion 0) s).chains[(0 : ChainId)]
    (ch.state, ch.faultCount, ch.firstMismatch, ch.cycle.map (·.verified)) = (.shifting, 0, none, some false) := by
  decide +kernel

theorem witness_SenseChanges :
    market.phase = .running ∧ (market.chains[(0 : ChainId)]).senseLevel = true
      ∧ (market.chains[(1 : ChainId)]).senseLevel = false ∧ (market.chains[(1 : ChainId)]).state = .offline := by
  decide +kernel

theorem witness_BrightnessAndFlash :
    market.phase = .running ∧ market.flashClock.timer = some 250
      ∧ tableGet ({ market with slots := [(255, { slotZero with flash := some 3000 })] } : State).slots 255
        = some { slotZero with flash := some 3000 }
      ∧ (market.chains[slotZero.chain]).state = .idle
      ∧ ((withChainA offlineA).chains[slotZero.chain]).state ≠ .idle := by decide +kernel

/-- The ticker within its text, in its separator, and at rest between texts. -/
def ribbon (cursor separator : Nat) (state : TickerState) : Ticker :=
  { market.ticker with state, text := text ['O', 'P'], cursor, separator }

theorem witness_TickerStepEmits :
    (ribbon 1 0 .running).text[(ribbon 1 0 .running).cursor]? = some 0x50
      ∧ (ribbon 1 0 .running).cursor + 1 = (ribbon 1 0 .running).text.length
      ∧ (ribbon 1 0 .running).stepTimer = some 60 ∧ (ribbon 1 0 .running).state ≠ .stopped
      ∧ ((ribbon 2 2 .running).text.length ≤ (ribbon 2 2 .running).cursor ∧ 0 < (ribbon 2 2 .running).separator)
      ∧ ((ribbon 2 0 .running).text.length ≤ (ribbon 2 0 .running).cursor ∧ (ribbon 2 0 .running).queue = []
        ∧ (ribbon 2 0 .running).state = .running)
      ∧ ((ribbon 2 0 .draining).queue = [] ∧ (ribbon 2 0 .draining).state = .draining) := by decide +kernel

/-- R114: a DRAINING ticker stops at any level; its text goes, and its epoch number and counters are kept. -/
theorem witness_TickerStepEmits_of_a_stop :
    ∀ level ∈ [0, 3],
      let tk := { ribbon 2 0 .draining with level, lateMinutes := 7, epoch := 5, admitted := 4, printed := 4 }
      let t := (after .step { market with ticker := tk }).ticker
      tk.stepTimer = some 60 ∧ tk.text.length ≤ tk.cursor ∧ tk.separator = 0 ∧ tk.queue = []
        ∧ t = { tk with
            state := .stopped, text := [], cursor := 0, stepTimer := none, level := 0, lateMinutes := 0,
            out := some 0x20 } := by decide +kernel

theorem witness_TickerComposesAPrint :
    let p := { aPrint drv.symbol .opening 2000 10560 with time := { hour := 10, minute := 17, second := 23 } }
    let b := { aPrint drv.symbol .regular 2000 10560 with time := { hour := 10, minute := 5, second := 0 }, tapeClass := .b }
    (∀ s ∈ [composing 0 6 p, composing 0 6 b], s.phase = .running ∧ s.ticker.state ≠ .stopped
        ∧ s.ticker.stepTimer = some 60 ∧ s.ticker.text.length ≤ s.ticker.cursor ∧ s.ticker.separator = 0)
      ∧ (composing 0 6 p).ticker.queue = .print p :: []
      ∧ (updateLevel 59 (composing 0 6 p)).ticker.level = 0
      ∧ (composing 0 6 b).ticker.queue = .print b :: [] ∧ b.tapeClass = .b
      ∧ (updateLevel 802 (composing 0 6 b)).ticker.level = 4
      ∧ ({ market.ticker with queue := [.announce (text ['A'])] } : Ticker).queue = .announce (text ['A']) :: [] := by
  decide +kernel

theorem witness_TapeTextsAreMade :
    (GoodSymbol (code 'D' 'R' ' ' ' ' 'A') ∧ GoodSymbol blankSymbol ∧ ¬ GoodSymbol (code ' ' ' ' ' ' ' ' 'A'))
      ∧ min ((128 + 16) / 32 / 8) 9999 = 0 ∧ (128 + 16) / 32 % 8 ≠ 0 ∧ min ((10560 + 16) / 32 / 8) 9999 ≠ 0
      ∧ (0 + 16) / 32 % 8 = 0 ∧ 9999 < (2559999 + 16) / 32 / 8
      ∧ 9999 / 100 ≠ 1 ∧ 199 / 100 = 1 ∧ 10000 ≤ 10000 :=
  ⟨⟨by decide +kernel, by decide +kernel, by decide +kernel⟩, by decide +kernel⟩

theorem witness_LevelFollowsLateness :
    (param market 9, param market 10, param market 11, param market 12, param market 13) = (60, 180, 300, 600, 30)
      ∧ market.ticker.level = 0
      ∧ ({ market with ticker := { market.ticker with level := 2 } } : State).ticker.level = 2
      ∧ 149 + param market 13 < param market 10 ∧ param market 10 ≤ 150 + param market 13
      ∧ (updateLevel 60 market).ticker.level ≠ market.ticker.level := by decide +kernel

theorem witness_CharactersAreTaken :
    (onLine { awaiting .poll [] with sending := true } terminalOne).line.transaction.map (·.sending) = some true
      ∧ market.line.transaction = none
      ∧ (let tx := awaiting .poll [0x01, 0x81, 0x23];
        (onLine tx terminalOne).line.transaction = some tx ∧ tx.sending = false ∧ tx.received ≠ []
          ∧ tx.received.length = 3 ∧ (120 : Byte).toNat ≤ 120
          ∧ tx.received.length + 1 ≠ at8 (tx.received ++ [120]) 3 + 6)
      ∧ (let r := response 0x21 [7];
        ReceptionEnds (onLine (awaiting .update r.1) updated) (awaiting .update r.1) r.2) := by decide +kernel

/-- R136, R137: the character that ends the frame of ACK 7 ends the transaction, by either row. -/
theorem test_last_character :
    let r := response 0x21 [7]
    let s := onLine (awaiting .update r.1) updated
    ∀ t ∈ [after (.terminalCharacterReceived r.2) s, after (.terminalResponse r.2) s],
      (t.line.terminals[(0 : TermId)]).outstanding = none ∧ (t.line.terminals[(0 : TermId)]).nextNumber = 0 := by
  decide +kernel

theorem witness_UpdateIsAcknowledged :
    ∀ session ∈ [SessionState.closed, .preOpen, .openMarket, .haltedAll],
      let r := response 0x21 [7]
      let tx := awaiting .update r.1
      let s := { onLine tx updated with time := { market.time with session } }
      EndsWith s tx r.2 (.ack 7 none) ∧ tx.kind = .update
        ∧ (s.line.terminals[tx.terminal]).outstanding = some 7 := by decide +kernel

/-- A whole response to a primary frame of a kind, sent to terminal 1 while UPDATE 7 is outstanding. -/
def answers (kind : PrimaryKind) (type : Byte) (body : List Byte) (x : Response) : Prop :=
  let r := response type body
  EndsWith (onLine (awaiting kind r.1) updated) (awaiting kind r.1) r.2 x

/-- A response that ends a transaction of each kind. -/
theorem witness_ResponsesAreTaken :
    answers .activate 0x20 [1] (.confirm 1) ∧ answers .screenInit 0x21 [6] (.ack 6 none)
      ∧ answers .poll 0x23 [2, 1] (.idle (some (.drop 1))) ∧ answers .screenInit 0x22 [] .busy
      ∧ answers .poll 0x22 [] .busy ∧ answers .update 0x22 [] .busy ∧ answers .update 0x21 [5] (.ack 5 none)
      ∧ answers .enquiry 0x24 [7] (.number 7) ∧ answers .enquiry 0x24 [6] (.number 6)
      ∧ answers .poll 0x23 ([1, 16] ++ text ['D', 'R', 'V', ' ', ' ']) (.idle (some (.add 16 drv.symbol)))
      ∧ updated.nextNumber - 1 = 6 ∧ updated.outstanding = some 7 := by
  unfold answers
  and_intros <;> decide +kernel

theorem witness_RequestsAreApplied :
    (market.line.terminals[(0 : TermId)]).lock = false
      ∧ ({ terminalOne with lock := true } : Terminal).lock = true
      ∧ lookup market.directory blankSymbol = none ∧ lookup market.directory drv.symbol = some 17
      ∧ ((market.line.terminals[(0 : TermId)]).rows[(0 : Fin 16)]).record = some 17
      ∧ (∀ i : Fin 16, ((market.line.terminals[(31 : TermId)]).rows[i]).record ≠ some 17)
      ∧ ((market.line.terminals[(31 : TermId)]).rows[(15 : Fin 16)]).record = none
      ∧ (∀ i : Fin 16, (({ terminalOne with
          rows := Vector.replicate 16 { record := some 40, pending := 0, inFlight := 0 } } : Terminal).rows[i]).record
            ≠ none)
      ∧ (16 : Byte).toNat = (15 : Fin 16).val + 1 ∧ 16 < (17 : Byte).toNat := by decide +kernel

theorem witness_FailuresAreMisses :
    (∀ kind ∈ [PrimaryKind.activate, .screenInit, .poll, .update, .enquiry],
        let bad := response 0x25 []
        let unfit := response 0x20 [2]
        let long : List Byte := [0x01, 0x81, 0x23]
        (onLine (awaiting kind []) updated).phase = .running
          ∧ (onLine (awaiting kind []) updated).line.transaction = some (awaiting kind [])
          ∧ (awaiting kind []).timeout = some 100
          ∧ ReceptionEnds (onLine (awaiting kind bad.1) updated) (awaiting kind bad.1) bad.2
          ∧ EndsWith (onLine (awaiting kind unfit.1) updated) (awaiting kind unfit.1) unfit.2 (.confirm 2)
          ∧ (awaiting kind long).sending = false ∧ (awaiting kind long).received.length = 3)
      ∧ 120 < (121 : Byte).toNat ∧ terminalOne.misses + 1 < 3
      ∧ ¬ ({ terminalOne with misses := 2 } : Terminal).misses + 1 < 3 := by decide +kernel

theorem row_17 : ∀ m, m ≤ 16 → (17 : Byte) ≠ BitVec.ofNat 8 m := by decide +kernel

/-- Frames that spell no response, by one item each: an unknown TYPE, a frame number of 8, an ADD row of 17, a request of
an unknown kind, a body of BUSY; and one of another terminal, and one whose CRC fails. -/
theorem witness_FailuresAreMisses_of_a_bad_frame :
    (∀ e ∈ ([(0x25, []), (0x24, [8]), (0x21, [8]), (0x23, [1, 17] ++ text ['D', 'R', 'V', ' ', ' ']), (0x23, [3, 1]),
        (0x22, [0]), (0x20, [])] : List (Byte × List Byte)), ∀ r, ¬ SpellsResponse e.1.toNat e.2 r)
      ∧ (∀ r, ¬ IsResponse 1 ((response 0x22 []).1 ++ [(response 0x22 []).2]) r)
      ∧ ∀ kind, let busy := response 0x22 [];
        EndsBadly (onLine (awaiting kind busy.1) updated) (awaiting kind busy.1) (busy.2 + 1) := by
  refine ⟨?_, fun r h => absurd h.2.2.1 (by decide +kernel), fun kind => ⟨?_, fun r h =>
    absurd (h.2.2.2.1 : _ = wordBytes (crcOf [0x81, 0x22, 0])) (by cases kind <;> decide +kernel)⟩⟩
  rotate_left
  · cases kind <;> decide +kernel
  have far : ∀ n : BitVec 3, (8 : Byte) ≠ n.zeroExtend 8 := by decide +kernel
  intro e he r hr
  simp only [List.mem_cons, List.not_mem_nil, or_false] at he
  obtain rfl | rfl | rfl | rfl | rfl | rfl | rfl := he <;>
    rcases r with k | ⟨n, _ | ⟨m, c⟩ | _⟩ | _ | (_ | ⟨m, c⟩ | _) | n <;>
    simp_all [SpellsResponse, SpellsRequest]
  exact row_17 m hr.2 hr.1.1

/-- Terminal 1 ABSENT with its probe timer running, alone on the line. -/
def probing : State :=
  { market with line := { market.line with
      terminals := market.line.terminals.set 0 { terminalOne with state := .absent, probeTimer := some 1 } } }

theorem witness_LineSelects :
    probing.phase = .running ∧ (probing.line.terminals[(0 : TermId)]).probeTimer = some 1
      ∧ ({ market with line := { market.line with gap := some 0 } } : State).line.gap = some 0
      ∧ updating.line.transaction ≠ none
      ∧ (∀ y : TermId, (State.reset.line.terminals[y]).outstanding = none
        ∧ ¬ MayBeServed State.reset.line.terminals[y])
      ∧ (∀ state ∈ [TermState.absent, .activating, .active, .recovery],
        let s := { market with line := { market.line with
          terminals := market.line.terminals.set 0 { terminalOne with state, probeDue := true } } }
        s.line.transaction = none ∧ s.line.gap = none ∧ (s.line.terminals[(0 : TermId)]).state = state
          ∧ (0 : TermId) = s.line.pollPointer + 1 + 0 ∧ MayBeServed s.line.terminals[(0 : TermId)]
          ∧ (∀ z : TermId, (s.line.terminals[z]).outstanding = none)
          ∧ ¬ SomethingPending s.line.terminals[(0 : TermId)]) := by
  unfold MayBeServed SomethingPending
  decide +kernel

/-- Terminal 1 with its status line, a result and six rows pending, and the rotation at row 5. -/
def crowded : Terminal :=
  { terminalOne with
    statusPending := true, result := some { code := .full, row := 3 }, rotation := 4,
    rows := Vector.ofFn (fun i : Fin 16 =>
      if i.val < 6 then { record := some 17, pending := allNames, inFlight := 0 } else coldRow) }

theorem witness_UpdateIsComposed :
    let s := { market with line := { market.line with terminals := market.line.terminals.set 0 crowded } }
    s.line.transaction = none ∧ s.line.gap = none ∧ (s.line.terminals[(0 : TermId)]).state = .active
      ∧ (0 : TermId) = s.line.pollPointer + 1 + 0 ∧ MayBeServed s.line.terminals[(0 : TermId)]
      ∧ (∀ z : TermId, (s.line.terminals[z]).outstanding = none)
      ∧ SomethingPending s.line.terminals[(0 : TermId)] := by
  unfold MayBeServed SomethingPending
  decide +kernel

/-- R160, Table 11-10: the status line, the result, and two rows of 48 bytes from row 5 on: a third has no room. -/
theorem test_update_is_composed :
    let s := { market with line := { market.line with terminals := market.line.terminals.set 0 crowded } }
    let t := select s
    (t.line.transaction.map (fun tx => (tx.frame.take 17, tx.frame.length)))
        = some ([0x01, 1, 0x13, 108, 0, 1, 2, 1, 0, 0, 0, 10, 18, 2, 4, 3, 3], 114)
      ∧ (t.line.terminals[(0 : TermId)]).rotation = 6
      ∧ ((t.line.terminals[(0 : TermId)]).rows.toList.map (fun r => (r.pending, r.inFlight))).take 7
        = [(0x7FF, 0), (0x7FF, 0), (0x7FF, 0), (0x7FF, 0), (0, 0x7FF), (0, 0x7FF), (0, 0)] := by decide +kernel

/-- A slot of each kind, a record, and a claimed and an unclaimed cell. -/
theorem witness_BoardsAreRendered :
    tableGet market.records 17 = some drv ∧ tableGet market.records 18 = none
      ∧ market.time.clockSet = true ∧ market.time.clock < 86400 ∧ State.reset.time.clockSet = false
      ∧ slotZero.kind = .quote 17 [.last] 0 (some 0) true
      ∧ (∀ e ∈ market.slots, e = (0, slotZero)) ∧ claimsCell 0 0 slotZero = true
      ∧ claimsCell 0 5 slotZero = false ∧ claimsLamp 0 0 slotZero = true ∧ claimsLamp 0 1 slotZero = false := by
  decide +kernel

/-- A list with every module, cut at a board, at the lamps and at the bypass. -/
theorem witness_BoardsAreRendered_of_a_list :
    ∀ k : Fin 3, let list : List ModuleKind := [.lamp, .char8, .bypass]
      list = list.take k.val ++ list[k] :: list.drop (k.val + 1) := by decide

theorem witness_PricesConvertAndRound :
    (9999 ≤ 9999 ∧ 1 ≤ 8 ∧ 8 ≤ 8 ∧ 255 < 2 ^ 8) ∧ 9999 < 10000 ∧ 10000 ≠ 0xFFFF ∧ 2 ^ 3 ≤ 8
      ∧ roundNumerator .sixteenths 10476 ≠ 0 := by decide +kernel

/-- The one record of `market`. -/
theorem market_record {n : Nat} {r : QuoteRecord} (h : tableGet market.records n = some r) : n = 17 ∧ r = drv := by
  simp only [market, tableGet] at h
  split at h
  · rename_i hn
    simp_all
  · simp at h

/-- Every step of the invariants answers a next state. -/
theorem witness_market_steps : ∃ t, step market = .next t := ⟨intervalTick market, rfl⟩

theorem witness_DirectoryStaysExact : DirectoryExact market := by
  refine ⟨by decide +kernel, fun c n => ⟨fun h => ?_, fun ⟨r, hr, hc⟩ => ?_⟩⟩
  · simp only [market, List.mem_singleton, Prod.mk.injEq] at h
    exact ⟨drv, by rw [h.2]; decide +kernel, h.1.symm⟩
  · obtain ⟨rfl, rfl⟩ := market_record hr
    subst hc
    decide +kernel

theorem witness_RecordsStaySound :
    NetChangeExact market ∧ RangeHoldsLast market ∧ RecordsInRange market
      ∧ LostIsStale { market with
          feed := { market.feed with feedState := .lost }, records := [(17, { drv with stale := true })] } := by
  refine ⟨fun n r h => ?_, fun n r h => ?_, fun n r h => ?_, fun _ n r h => ?_⟩
  · obtain ⟨rfl, rfl⟩ := market_record h
    decide
  · obtain ⟨rfl, rfl⟩ := market_record h
    exact fun ht => absurd rfl ht
  · obtain ⟨rfl, rfl⟩ := market_record h
    simp [drv, emptyRecord, PriceInRange]
  · simp only [tableGet] at h
    split at h
    · exact (Option.some.inj h) ▸ rfl
    · simp at h

theorem witness_BoardsStaySound :
    ChainsFit market ∧ LoadPlaced market ∧ TablesCanonical market ∧ ClaimsDisjoint market := by
  have idle : market.load = none := by decide +kernel
  refine ⟨by unfold ChainsFit; decide +kernel, fun _ h => absurd (idle.symm.trans h) (by simp),
    by unfold TablesCanonical; decide +kernel, fun n m a b ha hb hne => ?_⟩
  simp only [market, tableGet] at ha hb
  split at ha
  · split at hb
    · omega
    · simp at hb
  · simp at ha

theorem witness_BoundsAreKept :
    IntakeBounded market ∧ LoadPlaced market ∧ StacksBounded (withStack market fullStack) ∧ TickerBounded market
      ∧ RepliesBounded market ∧ TimeInRange market ∧ ParamsLegal market := by
  have idle : market.load = none := by decide +kernel
  refine ⟨?_, fun _ h => absurd (idle.symm.trans h) (by simp), ?_⟩
  · unfold IntakeBounded
    decide +kernel
  · unfold StacksBounded TickerBounded RepliesBounded TimeInRange ParamsLegal
    decide +kernel

/-- A LOAD under way at the head of the queue. -/
theorem witness_BoundsAreKept_of_a_load :
    LoadPlaced { withHead market (loadFrame 1 9 2 (bytes2 50 ++ bytes2 300)) with load := some 1 } := by
  intro done h
  obtain rfl : 1 = done := Option.some.inj h
  exact ⟨_, _, .param, rfl, by decide +kernel, by decide +kernel, by decide +kernel, by decide +kernel⟩

theorem witness_TickerCountsBalance : CountersBalance market ∧ TickerStoppedRests market := by
  unfold CountersBalance TickerStoppedRests
  decide +kernel

theorem witness_WatchCountsStayExact : RowsFormed market ∧ DirectoryExact market ∧ WatchExact market := by
  have rows : ∀ t : TermId, ∀ i : Fin 16, ((market.line.terminals[t]).rows[i]).record.isSome = true → i = 0 := by
    decide +kernel
  have forms : ∀ t : TermId, ∀ i : Fin 16,
      ((market.line.terminals[t]).rows[i]).pending = 0 ∧ ((market.line.terminals[t]).rows[i]).inFlight = 0 := by
    decide +kernel
  have records : ∀ t ∈ market.line.terminals.toList, ∀ r ∈ t.rows.toList,
      r.record = none ∨ r.record = some 17 := by decide +kernel
  refine ⟨fun t => ⟨fun i => ⟨fun _ => ?_, fun _ => ?_⟩, fun i j n hi hj => ?_⟩, witness_DirectoryStaysExact,
    fun n r h => ?_, fun n h => ?_⟩
  · rw [(forms t i).1, (forms t i).2]
    decide
  · exact ⟨Or.inl (forms t i).1, Or.inl (forms t i).2⟩
  · rw [rows t i (by rw [hi]; rfl), rows t j (by rw [hj]; rfl)]
  · obtain ⟨rfl, rfl⟩ := market_record h
    decide +kernel
  · have hn : n ≠ 17 := fun hn => by
      rw [hn] at h
      exact absurd h (by decide +kernel)
    refine List.sum_eq_zero fun x hx => ?_
    obtain ⟨t, ht, rfl⟩ := List.mem_map.mp hx
    refine List.countP_eq_zero.mpr fun r hr => ?_
    obtain hr | hr := records t ht r hr <;> simp [hr, Ne.symm hn]

theorem witness_LineLawIsKept : LineLaw market ∧ LineLaw updating := by
  have first : OneOutstanding market ∧ OneOutstanding updating := by
    unfold OneOutstanding NothingInFlight
    decide +kernel
  have recovery : ∀ s ∈ [market, updating], ∀ t : TermId, (s.line.terminals[t]).state ≠ .recovery := by
    decide +kernel
  have holders : (∀ t : TermId, (market.line.terminals[t]).outstanding = none)
      ∧ ∀ t : TermId, (updating.line.terminals[t]).outstanding.isSome = true → t = 0 := by decide +kernel
  refine ⟨⟨first.1, fun _ => ⟨fun t h => absurd h (recovery _ (by simp) t), fun t h => ?_, fun tx h => ?_⟩⟩,
    first.2, fun _ => ⟨fun t h => absurd h (recovery _ (by simp) t), fun t h => ?_, fun tx h => ?_⟩⟩
  · rw [holders.1 t] at h
    simp at h
  · have none : market.line.transaction = none := by decide +kernel
    rw [none] at h
    simp at h
  · obtain rfl := holders.2 t h
    exact Or.inr ⟨by decide +kernel, awaiting .update [], by decide +kernel, rfl, rfl⟩
  · have same : updating.line.transaction = some (awaiting .update []) := by decide +kernel
    obtain rfl : awaiting .update [] = tx := Option.some.inj (same.symm.trans h)
    show (updating.line.terminals[(0 : TermId)]).state = .active
      ∧ (updating.line.terminals[(0 : TermId)]).outstanding.isSome = true
    decide +kernel

/-- The state with one command waiting. -/
def waiting (c : Instr) (s : State) : State := { s with pending := [c] }

theorem witness_SessionAlertsAndStaleMarksStand :
    (∃ t, step (waiting .session (inSession .openMarket 5)) = .next t ∧ t.time.session ≠ .openMarket)
      ∧ ∃ t, step (waiting .clearAlerts (withHead alerted (frame 0x44 [1, 0, 0x80]))) = .next t
        ∧ alertIn (.chainSense 0) alerted.mgmt.alertStatus = true
        ∧ alertIn (.chainSense 0) t.mgmt.alertStatus = false :=
  ⟨⟨_, rfl, by decide +kernel⟩, ⟨_, rfl, by decide +kernel, by decide +kernel⟩⟩

theorem witness_OfflineIsLeftByFourSteps :
    ∃ t, step (waiting (.chainSenseChange 0 true) (withChainA { offlineA with senseLevel := false })) = .next t
      ∧ ((withChainA { offlineA with senseLevel := false }).chains[(0 : ChainId)]).state = .offline
      ∧ (t.chains[(0 : ChainId)]).state ≠ .offline :=
  ⟨_, rfl, by decide +kernel, by decide +kernel⟩

theorem witness_SessionAlertsAndStaleMarksStand_of_a_record :
    let s := withHead { market with records := [(17, { drv with stale := true })] } recapFrame
    ∃ t, step (waiting .recap s) = .next t ∧ (record17 s).stale = true ∧ (record17 t).stale = false :=
  ⟨_, rfl, by decide +kernel, by decide +kernel⟩

end Sys2Proof.Tests
end

namespace Sys2Proof.Machine

open Sys2Proof.Safety

/-! ## The records, the directory and the feed state, as one view of the state -/

/-- What chapter 1 speaks of: the records, the symbol directory and the feed state. -/
structure RecordView where
  records : Table QuoteRecord
  directory : List (SymbolCode × Nat)
  feedState : FeedState

/-- The view of a state. -/
def State.recordView (s : State) : RecordView :=
  { records := s.records, directory := s.directory, feedState := s.feed.feedState }

section
variable (s : State)

@[simp] theorem recordView_setPhase (x : Phase) : (s.setPhase x).recordView = s.recordView := rfl
@[simp] theorem recordView_setIntake (x : List IntakeEntry) : (s.setIntake x).recordView = s.recordView := rfl
@[simp] theorem recordView_setLoad (x : Option Nat) : (s.setLoad x).recordView = s.recordView := rfl
@[simp] theorem recordView_setTime (x : TimeBase) : (s.setTime x).recordView = s.recordView := rfl
@[simp] theorem recordView_setChains (x : Vector Chain 4) : (s.setChains x).recordView = s.recordView := rfl
@[simp] theorem recordView_setChain (c : ChainId) (x : Chain) : (s.setChain c x).recordView = s.recordView := rfl
@[simp] theorem recordView_setFlashClock (x : FlashClock) : (s.setFlashClock x).recordView = s.recordView := rfl
@[simp] theorem recordView_setSlots (x : Table Slot) : (s.setSlots x).recordView = s.recordView := rfl
@[simp] theorem recordView_setBulletins (x : Vector (List BulletinEntry) 8) :
    (s.setBulletins x).recordView = s.recordView := rfl
@[simp] theorem recordView_setStack (k : StackId) (x : List BulletinEntry) :
    (s.setStack k x).recordView = s.recordView := rfl
@[simp] theorem recordView_setTicker (x : Ticker) : (s.setTicker x).recordView = s.recordView := rfl
@[simp] theorem recordView_setLine (x : TerminalLine) : (s.setLine x).recordView = s.recordView := rfl
@[simp] theorem recordView_setTerm (t : TermId) (x : Terminal) : (s.setTerm t x).recordView = s.recordView := rfl
@[simp] theorem recordView_setMgmt (x : Management) : (s.setMgmt x).recordView = s.recordView := rfl
@[simp] theorem recordView_setDraws (x : Nat) : (s.setDraws x).recordView = s.recordView := rfl
@[simp] theorem recordView_onTicker (f : Ticker → Ticker) : (onTicker f s).recordView = s.recordView := rfl
@[simp] theorem recordView_setQueue (q : List TickerEntry) : (setQueue q s).recordView = s.recordView := rfl
@[simp] theorem recordView_mapTerms (f : Terminal → Terminal) : (mapTerms f s).recordView = s.recordView := rfl
@[simp] theorem recordView_statusLinesPending : (statusLinesPending s).recordView = s.recordView := rfl
@[simp] theorem recordView_raiseAlert (a : Alert) : (raiseAlert a s).recordView = s.recordView := rfl

/-! ### Operations that leave the view as it is -/

@[simp] theorem recordView_replyTo (body answer : List Byte) : (replyTo body answer s).recordView = s.recordView := by
  rw [replyTo_frame]; rfl

@[simp] theorem recordView_loadEnds (body answer : List Byte) : (loadEnds body answer s).recordView = s.recordView := by
  rw [loadEnds_frame]; rfl

@[simp] theorem recordView_shiftComplete (c : ChainId) (returned : List Byte) :
    (shiftComplete c returned s).recordView = s.recordView := by
  rw [shiftComplete_frame]; rfl

@[simp] theorem recordView_refreshStart (c : ChainId) : (refreshStart c s).recordView = s.recordView := by
  rw [refreshStart_frame]; rfl

@[simp] theorem recordView_wakeChain (c : ChainId) : (wakeChain c s).recordView = s.recordView := by
  rw [wakeChain_frame]; rfl

@[simp] theorem recordView_wakeChains : (wakeChains s).recordView = s.recordView := by
  rw [wakeChains_frame]; simp only [State.recordView]

@[simp] theorem recordView_markSlots (pick : Slot → Bool) (f : Slot → Slot) :
    (markSlots pick f s).recordView = s.recordView := by
  rw [markSlots_frame]; simp only [State.recordView]

@[simp] theorem recordView_markStatus : (markStatus s).recordView = s.recordView := recordView_markSlots _ _ _

@[simp] theorem recordView_markClocks : (markClocks s).recordView = s.recordView := recordView_markSlots _ _ _

@[simp] theorem recordView_markMessages (k : StackId) : (markMessages k s).recordView = s.recordView :=
  recordView_markSlots _ _ _

@[simp] theorem recordView_markAllSlots : (markAllSlots s).recordView = s.recordView := recordView_markSlots _ _ _

@[simp] theorem recordView_handNames (n : Nat) (names : NameSet) : (handNames n names s).recordView = s.recordView := by
  rw [handNames_frame]; rfl

@[simp] theorem recordView_handDeletion (n : Nat) : (handDeletion n s).recordView = s.recordView := by
  rw [handDeletion_frame]; simp only [State.recordView]

@[simp] theorem recordView_select : (select s).recordView = s.recordView := by
  rw [select_frame]; rfl

@[simp] theorem recordView_offerPrint (p : Print) : (offerPrint p s).recordView = s.recordView := by
  rw [offerPrint_frame]; rfl

@[simp] theorem recordView_offerText (atHead : Bool) (text : List Byte) :
    (offerText atHead text s).recordView = s.recordView := by
  rw [offerText_frame]; rfl

@[simp] theorem recordView_handLevel : (handLevel s).recordView = s.recordView := by
  rw [handLevel_frame]; simp only [State.recordView]

@[simp] theorem recordView_countOmitted (n : Nat) : (countOmitted n s).recordView = s.recordView := by
  simp only [countOmitted]
  split <;> simp

@[simp] theorem recordView_settleComplete (c : ChainId) : (settleComplete c s).recordView = s.recordView := by
  simp only [settleComplete]
  repeat' split
  all_goals simp

@[simp] theorem recordView_senseChange (c : ChainId) (present : Bool) :
    (senseChange c present s).recordView = s.recordView := by
  simp only [senseChange]
  repeat' split
  all_goals simp

@[simp] theorem recordView_applyChainEntry (c : ChainId) (e : ChainEntry) :
    (applyChainEntry c e s).recordView = s.recordView := by
  simp [applyChainEntry]

@[simp] theorem recordView_applyModuleEntry (c : ChainId) (k : Fin 64) (m : ModuleKind) :
    (applyModuleEntry c k m s).recordView = s.recordView := by
  simp [applyModuleEntry]

@[simp] theorem recordView_chainResetAtRest (c : ChainId) : (chainResetAtRest c s).recordView = s.recordView := by
  simp only [chainResetAtRest]
  split <;> simp

@[simp] theorem recordView_chainResetAt (c : ChainId) : (chainResetAt c s).recordView = s.recordView := by
  simp only [chainResetAt]
  split <;> simp

@[simp] theorem recordView_clearLatch (named : AlertSet) (c : ChainId) :
    (clearLatch named c s).recordView = s.recordView := by
  simp only [clearLatch]
  split <;> simp

@[simp] theorem recordView_flashExpire (n : Nat) : (flashExpire n s).recordView = s.recordView := by
  simp only [flashExpire]
  repeat' split
  all_goals simp

@[simp] theorem recordView_resyncFormer (n : Nat) : (resyncFormer n s).recordView = s.recordView := by
  simp only [resyncFormer]
  split <;> simp

@[simp] theorem recordView_snapshotAfterLoad (s₀ u : State) (c : ChainId) :
    (snapshotAfterLoad s₀ u c s).recordView = s.recordView := by
  simp only [snapshotAfterLoad, snapshotNow]
  split <;> simp

@[simp] theorem recordView_placeResult (t : TermId) (code : ResultCode) (row : Byte) :
    (placeResult t code row s).recordView = s.recordView := rfl

@[simp] theorem recordView_loseTerminal (t : TermId) : (loseTerminal t s).recordView = s.recordView := rfl

@[simp] theorem recordView_miss (t : TermId) (after : TermState) : (miss t after s).recordView = s.recordView := by
  simp only [miss]
  split <;> simp

@[simp] theorem recordView_setEnabled (t : TermId) (enabled : Bool) :
    (setEnabled t enabled s).recordView = s.recordView := by
  simp only [setEnabled]
  repeat' split
  all_goals simp

@[simp] theorem recordView_terminalResetAt (t : TermId) : (terminalResetAt t s).recordView = s.recordView := by
  simp only [terminalResetAt]
  repeat' split
  all_goals simp

@[simp] theorem recordView_applyWaiting (t : TermId) : (applyWaiting t s).recordView = s.recordView := by
  simp only [applyWaiting]
  repeat' split
  all_goals simp

@[simp] theorem recordView_freeLine : (freeLine s).recordView = s.recordView := by
  simp only [freeLine]
  split <;> simp

@[simp] theorem recordView_lineSession (old : SessionState) : (lineSession old s).recordView = s.recordView := by
  rw [lineSession_frame]; rfl

@[simp] theorem recordView_tickerSession (old new : SessionState) :
    (tickerSession old new s).recordView = s.recordView := by
  simp only [tickerSession]
  repeat' split
  all_goals simp

@[simp] theorem recordView_handSession (old new : SessionState) :
    (handSession old new s).recordView = s.recordView := by
  simp [handSession]

@[simp] theorem recordView_tickerDayReset : (tickerDayReset s).recordView = s.recordView := by
  simp only [tickerDayReset]
  split <;> simp

@[simp] theorem recordView_minuteChange : (minuteChange s).recordView = s.recordView := by
  simp [minuteChange]

@[simp] theorem recordView_offerUncovered (stack : List BulletinEntry) :
    (offerUncovered stack s).recordView = s.recordView := by
  simp only [offerUncovered]
  repeat' split
  all_goals simp

@[simp] theorem recordView_updateLevel (lateness : Nat) : (updateLevel lateness s).recordView = s.recordView := by
  simp only [updateLevel]
  split <;> simp

@[simp] theorem recordView_condense (p : Print) : (condense p s).2.recordView = s.recordView := by
  simp only [condense]
  split <;> simp

@[simp] theorem recordView_beginText (text : List Byte) : (beginText text s).recordView = s.recordView := rfl

@[simp] theorem recordView_stopTicker : (stopTicker s).recordView = s.recordView := by
  simp only [stopTicker]
  split <;> simp

@[simp] theorem recordView_emitBlank : (emitBlank s).recordView = s.recordView := rfl

@[simp] theorem recordView_restartStep : (restartStep s).recordView = s.recordView := by
  simp only [restartStep]
  split <;> simp

@[simp] theorem recordView_takeReturnHead : (takeReturnHead s).recordView = s.recordView := by
  simp only [takeReturnHead]
  split <;> simp

@[simp] theorem recordView_countTimers : (countTimers s).recordView = s.recordView := rfl

@[simp] theorem recordView_pinTaken : (pinTaken s).recordView = s.recordView := rfl

/-- A change of the feed receiver that keeps the feed state. -/
theorem recordView_setFeed {x : Feed} (h : x.feedState = s.feed.feedState) :
    (s.setFeed x).recordView = s.recordView := by
  simp [State.recordView, h]

end

end Sys2Proof.Machine

namespace Sys2Proof.Machine

open Sys2Proof.Safety

/-! ## What a step can do to the records, the directory and the feed state -/

/-- One update of a DEFINED record that keeps its symbol (R6), while the feed is LOST or not. -/
inductive RecordChange (lost : Bool) (r : QuoteRecord) : QuoteRecord → Prop
  | staled : RecordChange lost r { r with stale := true }
  | watched (watch : Nat) : RecordChange lost r { r with watch := watch }
  | taped (p : Print) (epoch : BitVec 16) :
    RecordChange lost r { r with tapeWhole := some (tapeWholeOf r.denom p.price), tapeEpoch := epoch }
  | traded {p : List Byte} {q : TradeItems} (h : tradeItems p = some q) : RecordChange lost r (tradedRecord q r)
  | quoted {p : List Byte} {q : QuoteItems} (h : quoteItems p = some q) :
    RecordChange lost r { r with bid := q.bid, ask := q.ask }
  | haltedOrResumed (x : TradingState) : RecordChange lost r { r with state := x }
  | recapped {p : List Byte} {q : RecapItems} (h : recapItems p = some q) :
    RecordChange lost r (recappedRecord lost q r)
  | redescribed {x : List Byte} {q : SymbolEntry} (h : symbolEntry x = some q) :
    RecordChange lost r (staticRecord q r)
  | dayReset : RecordChange lost r (dayResetRecord lost r)

/-- Whether the feed is LOST in a view. -/
def RecordView.lost (v : RecordView) : Bool := v.feedState == .lost

/-- Whether a code is free for record n: no other record holds it (R7). -/
def RecordView.FreeFor (v : RecordView) (n : Nat) (c : SymbolCode) : Prop :=
  ∀ m, lookup v.directory c = some m → m = n

/-- One operation on the records, the directory and the feed state. -/
inductive RecordMove (v : RecordView) : RecordView → Prop
  /-- The feed state RUNNING (R42). -/
  | heard : RecordMove v { v with feedState := .running }
  /-- One update of a DEFINED record. -/
  | changed {n : Nat} {r r' : QuoteRecord} (hget : tableGet v.records n = some r)
    (h : RecordChange v.lost r r') : RecordMove v { v with records := tableSet v.records n r' }
  /-- Every record stale: a gap-before marking, the loss of the feed, a warm reset (R5, R21). -/
  | staled {w : RecordView} (hdir : w.directory = v.directory)
    (hget : ∀ m, tableGet w.records m = (tableGet v.records m).map (fun r => { r with stale := true })) :
    RecordMove v w
  /-- A definition (R8). -/
  | defined {n : Nat} {x : List Byte} {q : SymbolEntry} (h : symbolEntry x = some q)
    (hempty : tableGet v.records n = none) (hfree : v.FreeFor n q.symbol) :
    RecordMove v { v with
      directory := directoryInsert q.symbol n v.directory
      records := tableSet v.records n (definedRecord v.lost q) }
  /-- A deletion (R9). -/
  | deleted {n : Nat} {r : QuoteRecord} (hget : tableGet v.records n = some r) :
    RecordMove v { v with
      directory := directoryRemove r.symbol v.directory
      records := tableErase v.records n }
  /-- A rename (R10). -/
  | renamed {n : Nat} {x : List Byte} {q : SymbolEntry} {r : QuoteRecord} (h : symbolEntry x = some q)
    (hget : tableGet v.records n = some r) (hne : q.symbol ≠ r.symbol) (hfree : v.FreeFor n q.symbol) :
    RecordMove v { v with
      directory := directoryInsert q.symbol n (directoryRemove r.symbol v.directory)
      records := tableSet v.records n (definedRecord v.lost q) }
  /-- A cold reset (R5, R55). -/
  | emptied : RecordMove v { records := [], directory := [], feedState := .notYet }

/-- Operations on the records, the directory and the feed state, one after the other. -/
def RecordMoves (s t : State) : Prop := Relation.ReflTransGen RecordMove s.recordView t.recordView

namespace RecordMoves

variable {s t u : State}

/-- Operations that leave the view as it is. -/
theorem of_eq (h : t.recordView = s.recordView) : RecordMoves s t := by
  simp only [RecordMoves, h]
  exact .refl

theorem refl (s : State) : RecordMoves s s := of_eq rfl

theorem trans (h : RecordMoves s t) (h' : RecordMoves t u) : RecordMoves s u := Relation.ReflTransGen.trans h h'

/-- One operation. -/
theorem single (h : RecordMove s.recordView t.recordView) : RecordMoves s t := Relation.ReflTransGen.single h

/-- Operations, and then some that leave the view as it is. -/
theorem congr_right (h : RecordMoves s t) (he : u.recordView = t.recordView) : RecordMoves s u := h.trans (of_eq he)

/-- Operations of states taken one after the other from a list. -/
theorem foldl {α : Type} {f : State → α → State} (h : ∀ s x, RecordMoves s (f s x)) :
    ∀ (l : List α) (s : State), RecordMoves s (l.foldl f s) := by
  intro l
  induction l with
  | nil => exact refl
  | cons x rest ih => exact fun s => (h s x).trans (ih _)

end RecordMoves

/-! ### Records -/

/-- A record update that its change set follows. -/
@[simp] theorem recordView_updateRecord (n : Nat) (r : QuoteRecord) (names : NameSet) (s : State) :
    (updateRecord n r names s).recordView = { s.recordView with records := tableSet s.records n r } := by
  simp only [updateRecord, recordView_handNames]
  rfl

/-- The update of one DEFINED record. -/
theorem updateRecord_moves {n : Nat} {r r' : QuoteRecord} {s : State} (names : NameSet)
    (hget : tableGet s.records n = some r) (h : RecordChange (feedLost s) r r') :
    RecordMoves s (updateRecord n r' names s) := by
  refine RecordMoves.single ?_
  rw [recordView_updateRecord]
  exact RecordMove.changed (v := s.recordView) hget h

/-- What the stale marking of a run of records does to every record. -/
theorem tableGet_foldl_markStale (ns : List Nat) (m : Nat) : ∀ s : State,
    tableGet (ns.foldl markStale s).records m
      = (tableGet s.records m).map (fun r => if m ∈ ns then { r with stale := true } else r) := by
  induction ns with
  | nil => intro s; simp
  | cons n rest ih =>
    intro s
    rw [List.foldl_cons, ih, tableGet_markStale, Option.map_map]
    congr 1
    funext r
    by_cases hn : m = n <;> by_cases hm : m ∈ rest <;> simp [hn, hm]

/-- What the stale marking of every record does to each (R21). -/
theorem tableGet_markAllStale (s : State) (m : Nat) :
    tableGet (markAllStale s).records m = (tableGet s.records m).map (fun r => { r with stale := true }) := by
  rw [markAllStale, tableGet_foldl_markStale]
  cases h : tableGet s.records m with
  | none => rfl
  | some r =>
    have hm : m ∈ definedNumbers s := (tableGet_isSome s.records m).mp (by rw [h]; rfl)
    simp [hm]

/-- The stale marking of every record leaves the directory. -/
theorem markAllStale_directory (s : State) : (markAllStale s).directory = s.directory := by
  rw [markAllStale_frame]

/-- A stale marking of every record is one operation, whatever it brings the feed state to. -/
theorem staled_moves {s t u : State} (hrec : t.records = s.records) (hdir : t.directory = s.directory)
    (hu : u.recordView = (markAllStale t).recordView) : RecordMoves s u := by
  refine RecordMoves.single ?_
  rw [hu]
  refine RecordMove.staled (markAllStale_directory t |>.trans hdir) fun m => ?_
  exact (tableGet_markAllStale t m).trans (by rw [hrec]; rfl)

theorem markAllStale_moves (s : State) : RecordMoves s (markAllStale s) := staled_moves rfl rfl rfl

theorem afterGap_moves (e : IntakeEntry) (s : State) : RecordMoves s (afterGap e s) := by
  simp only [afterGap]
  split
  · exact markAllStale_moves s
  · exact .refl s

/-! ### Market data -/

theorem applyTrade_moves {p : List Byte} {q : TradeItems} (h : tradeItems p = some q) (s : State) :
    RecordMoves s (applyTrade q s) := by
  simp only [applyTrade]
  split
  · exact .refl s
  · split
    · exact .refl s
    · rename_i r hr
      have hupd := updateRecord_moves (tradeNames q.condition r (tradedRecord q r)) hr (.traded h)
      split
      · exact hupd.congr_right (recordView_offerPrint _ _)
      · exact hupd

theorem applyQuote_moves {p : List Byte} {q : QuoteItems} (h : quoteItems p = some q) (s : State) :
    RecordMoves s (applyQuote q s) := by
  simp only [applyQuote]
  split
  · exact .refl s
  · split
    · exact .refl s
    · rename_i r hr
      exact updateRecord_moves _ hr (.quoted h)

theorem applySymbolState_moves (q : SymbolStateItems) (s : State) : RecordMoves s (applySymbolState q s) := by
  simp only [applySymbolState]
  split
  · exact .refl s
  · split
    · exact .refl s
    · rename_i r hr
      have hupd := updateRecord_moves nameState hr (.haltedOrResumed (stateAfter q.halt r))
      split
      · exact .refl s
      · split
        · exact hupd
        · exact hupd.congr_right (recordView_offerText _ _ _)

theorem applyRecap_moves {p : List Byte} {q : RecapItems} (h : recapItems p = some q) (s : State) :
    RecordMoves s (applyRecap q s) := by
  simp only [applyRecap]
  split
  · exact .refl s
  · split
    · exact .refl s
    · rename_i r hr
      exact updateRecord_moves _ hr (.recapped h)

/-- A market data frame's meaning, where every payload that reads has one. -/
theorem applyItems_moves {α : Type} {items : List Byte → Option α} {apply : α → State → State}
    (h : ∀ p x s, items p = some x → RecordMoves s (apply x s)) (body : List Byte) (s : State) :
    RecordMoves s (applyItems items apply body s) := by
  simp only [applyItems]
  split
  · rename_i x hx
    exact h _ x s hx
  · exact .refl s

/-- The head entry taken, by a meaning that is operations on the records. -/
theorem takeHead_moves {step : FrameStep} {apply : List Byte → State → State}
    (h : ∀ body s, RecordMoves s (apply body s)) (s : State) : RecordMoves s (takeHead step apply s) := by
  simp only [takeHead]
  split
  · exact .refl s
  · rename_i e rest hi
    split
    · exact ((afterGap_moves e s).trans (h e.body (afterGap e s))).congr_right (recordView_setIntake _ _)
    · exact .refl s

/-! ### Clock and session -/

theorem applyClock_keeps (q : TimeOfDay) (s : State) : (applyClock q s).recordView = s.recordView := by
  simp only [applyClock]
  split <;> simp

theorem secondExpire_keeps (s : State) : (secondExpire s).recordView = s.recordView := by
  simp only [secondExpire]
  split <;> simp

theorem dayResetOne_moves (s : State) (n : Nat) : RecordMoves s (dayResetOne s n) := by
  simp only [dayResetOne]
  split
  · rename_i r hr
    exact updateRecord_moves _ hr .dayReset
  · exact .refl s

theorem dayReset_moves (s : State) : RecordMoves s (dayReset s) := by
  have h : RecordMoves s (recordsDayReset s) := RecordMoves.foldl dayResetOne_moves _ s
  exact h.congr_right (by simp [dayReset])

theorem applySession_moves (code : SessionCode) (s : State) : RecordMoves s (applySession code s) := by
  simp only [applySession]
  split
  · exact .refl s
  · split
    · exact .refl s
    · have h (new : SessionState) : RecordMoves s
          (handSession s.time.session new (s.setTime { s.time with session := new })) :=
        .of_eq (by simp)
      split
      · exact (h _).trans (dayReset_moves _)
      · exact h _

/-! ### Bulletin stacks -/

theorem applyPush_keeps (b : BulletinItems) (s : State) : (applyPush b s).recordView = s.recordView := by
  simp only [applyPush]
  split <;> simp

theorem applyPop_keeps (b : BulletinItems) (s : State) : (applyPop b s).recordView = s.recordView := by
  simp only [applyPop]
  split <;> simp

theorem applyClear_keeps (b : BulletinItems) (s : State) : (applyClear b s).recordView = s.recordView := by
  simp only [applyClear]
  split <;> simp

theorem bulletinExpire_keeps (k : StackId) (place : Nat) (s : State) :
    (bulletinExpire k place s).recordView = s.recordView := by
  simp only [bulletinExpire]
  repeat' split
  all_goals simp

/-! ### LOAD -/

/-- A step of a LOAD, whose owner's rule is operations on the records. -/
theorem takeLoad_moves {step : FrameStep} {size entrySize : Nat} {apply : Nat → List Byte → State → Option State}
    (h : ∀ n x s t, apply n x s = some t → RecordMoves s t) (s : State) :
    RecordMoves s (takeLoad step size entrySize apply s) := by
  rcases takeLoad_cases step size entrySize apply s with hsame | ⟨e, rest, u, v, -, -, hu, hv, hend⟩
  · rw [hsame]
    exact .refl s
  · have hsu : RecordMoves s u := by
      rw [hu]
      split
      · exact afterGap_moves e s
      · exact .refl s
    have huv : RecordMoves u v := by
      rcases hv with rfl | ⟨n, x, hx⟩
      · exact .refl v
      · exact h n x u v hx
    rcases hend with ⟨answer, ht⟩ | ⟨done, ht, -⟩
    · rw [ht]
      exact (hsu.trans huv).congr_right (recordView_loadEnds _ _ _)
    · rw [ht]
      exact (hsu.trans huv).congr_right (recordView_setLoad _ _)

theorem windowLoaded_keeps (s : State) : (windowLoaded s).recordView = s.recordView := by
  simp only [windowLoaded]
  repeat' split
  · exact recordView_setFeed s rfl
  · exact recordView_setFeed s rfl
  · rfl

theorem applyParamEntry_moves (n : Nat) (x : List Byte) (s t : State) (h : applyParamEntry n x s = some t) :
    RecordMoves s t := by
  simp only [applyParamEntry] at h
  split at h
  · cases h
  · cases h
    refine .of_eq ?_
    split
    · rw [windowLoaded_keeps]
      rfl
    · rfl

/-- A code that no other record holds is free for record n (R7). -/
theorem freeFor_of_heldElsewhere {s : State} {n : Nat} {c : SymbolCode} (h : heldElsewhere s n c = false) :
    s.recordView.FreeFor n c := by
  intro m hm
  change lookup s.directory c = some m at hm
  simpa [heldElsewhere, hm] using h

theorem defineRecord_moves {n : Nat} {x : List Byte} {q : SymbolEntry} {s : State} (hq : symbolEntry x = some q)
    (hempty : tableGet s.records n = none) (hfree : s.recordView.FreeFor n q.symbol) :
    RecordMoves s (defineRecord n q s) := by
  have h : (defineRecord n q s).recordView = { s.recordView with
      directory := directoryInsert q.symbol n s.directory
      records := tableSet s.records n (definedRecord (feedLost s) q) } := by
    rw [defineRecord, recordView_updateRecord]
    rfl
  refine .single ?_
  rw [h]
  exact RecordMove.defined (v := s.recordView) hq hempty hfree

theorem deleteRecord_moves {n : Nat} {r : QuoteRecord} {s : State} (hget : tableGet s.records n = some r) :
    RecordMoves s (deleteRecord n r.symbol s) := by
  have h : (deleteRecord n r.symbol s).recordView = { s.recordView with
      directory := directoryRemove r.symbol s.directory
      records := tableErase s.records n } := by
    rw [deleteRecord, recordView_handDeletion]
    rfl
  refine .single ?_
  rw [h]
  exact RecordMove.deleted (v := s.recordView) hget

theorem renameRecord_moves {n : Nat} {x : List Byte} {q : SymbolEntry} {r : QuoteRecord} {s : State}
    (hq : symbolEntry x = some q) (hget : tableGet s.records n = some r) (hne : q.symbol ≠ r.symbol)
    (hfree : s.recordView.FreeFor n q.symbol) : RecordMoves s (renameRecord n r.symbol q s) := by
  have h : (renameRecord n r.symbol q s).recordView = { s.recordView with
      directory := directoryInsert q.symbol n (directoryRemove r.symbol s.directory)
      records := tableSet s.records n (definedRecord (feedLost s) q) } := by
    simp only [renameRecord, recordView_handNames, recordView_handDeletion]
    rfl
  refine .single ?_
  rw [h]
  exact RecordMove.renamed (v := s.recordView) hq hget hne hfree

/-- What a SYMBOL entry that is not refused does (Table 1-3). -/
theorem applySymbolEntry_cases {n : Nat} {x : List Byte} {s t : State} (h : applySymbolEntry n x s = some t) :
    t = s ∨ ∃ q, symbolEntry x = some q ∧ (q.symbol ≠ blankSymbol → heldElsewhere s n q.symbol = false)
      ∧ ((q.symbol ≠ blankSymbol ∧ tableGet s.records n = none ∧ t = defineRecord n q s)
        ∨ ∃ r, tableGet s.records n = some r
          ∧ ((q.symbol = blankSymbol ∧ t = deleteRecord n r.symbol s)
            ∨ t = updateRecord n (staticRecord q r) (staticNames r (staticRecord q r)) s
            ∨ (q.symbol ≠ blankSymbol ∧ q.symbol ≠ r.symbol ∧ t = renameRecord n r.symbol q s))) := by
  unfold applySymbolEntry at h
  cases hq : symbolEntry x with
  | none => simp [hq] at h
  | some q =>
    simp only [hq, Option.ite_none_left_eq_some, not_and, Bool.not_eq_true] at h
    obtain ⟨hheld, h⟩ := h
    cases hr : tableGet s.records n with
    | none =>
      by_cases hb : q.symbol = blankSymbol
      · exact .inl (by simpa [hr, hb, eq_comm] using h)
      · refine .inr ⟨q, rfl, hheld, .inl ⟨hb, rfl, ?_⟩⟩
        simpa [hr, hb, eq_comm] using h
    | some r =>
      refine .inr ⟨q, rfl, hheld, .inr ⟨r, rfl, ?_⟩⟩
      by_cases hb : q.symbol = blankSymbol
      · exact .inl ⟨hb, by simpa [hr, hb, eq_comm] using h⟩
      · by_cases hs : q.symbol = r.symbol
        · rw [hs] at hb
          exact .inr (.inl (by simpa [hr, hb, hs, eq_comm] using h))
        · exact .inr (.inr ⟨hb, hs, by simpa [hr, hb, hs, eq_comm] using h⟩)

theorem applySymbolEntry_moves (n : Nat) (x : List Byte) (s t : State) (h : applySymbolEntry n x s = some t) :
    RecordMoves s t := by
  rcases applySymbolEntry_cases h with ht | ⟨q, hq, hheld, ⟨hb, hnone, ht⟩ | ⟨r, hr, hcase⟩⟩
  · rw [ht]
    exact .refl s
  · rw [ht]
    exact defineRecord_moves hq hnone (freeFor_of_heldElsewhere (hheld hb))
  · rcases hcase with ⟨-, ht⟩ | ht | ⟨hb, hne, ht⟩
    · rw [ht]
      exact deleteRecord_moves hr
    · rw [ht]
      exact updateRecord_moves (staticNames r (staticRecord q r)) hr (.redescribed hq)
    · rw [ht]
      exact renameRecord_moves hq hr hne (freeFor_of_heldElsewhere (hheld hb))

theorem applySlotTable_keeps {s₀ : State} {n : Nat} {x : List Byte} {s t : State}
    (h : applySlotTable s₀ n x s = some t) : t.recordView = s.recordView := by
  simp only [applySlotTable, Option.map_eq_some_iff] at h
  obtain ⟨v, hv, rfl⟩ := h
  simp only [recordView_snapshotAfterLoad]
  simp only [applySlotEntry] at hv
  split at hv
  · cases hv
  · obtain rfl := Option.some.inj hv
    simp
  · split at hv
    · cases hv
    · obtain rfl := Option.some.inj hv
      simp

theorem applyChainTable_keeps {n : Nat} {x : List Byte} {s t : State} (h : applyChainTable n x s = some t) :
    t.recordView = s.recordView := by
  simp only [applyChainTable] at h
  split at h
  · obtain rfl := Option.some.inj h
    simp
  · cases h

theorem applyModuleTable_keeps {n : Nat} {x : List Byte} {s t : State} (h : applyModuleTable n x s = some t) :
    t.recordView = s.recordView := by
  simp only [applyModuleTable] at h
  split at h
  · obtain rfl := Option.some.inj h
    simp
  · cases h

/-! ### Rows and watch counts -/

theorem changeWatch_moves (f : Nat → Nat) (n : Nat) (s : State) : RecordMoves s (changeWatch f n s) := by
  simp only [changeWatch]
  split
  · rename_i r hr
    exact .single (RecordMove.changed (v := s.recordView) hr (.watched (f r.watch)))
  · exact .refl s

theorem lowerWatch_moves (record : Option Nat) (s : State) : RecordMoves s (lowerWatch record s) := by
  cases record with
  | none => exact .refl s
  | some n => exact changeWatch_moves _ n s

theorem raiseWatch_moves (record : Option Nat) (s : State) : RecordMoves s (raiseWatch record s) := by
  cases record with
  | none => exact .refl s
  | some n => exact changeWatch_moves _ n s

theorem changeRow_moves (x : TermId) (i : Fin 16) (item : Option Nat) (s : State) :
    RecordMoves s (changeRow x i item s) := by
  simp only [changeRow]
  refine RecordMoves.trans ?_ (raiseWatch_moves _ _)
  refine RecordMoves.trans (.of_eq ?_) (lowerWatch_moves _ _)
  exact recordView_setTerm _ _ _

theorem applyTerminalTable_moves (n : Nat) (x : List Byte) (s t : State) (h : applyTerminalTable n x s = some t) :
    RecordMoves s t := by
  simp only [applyTerminalTable] at h
  split at h
  · simp only [applyTerminalEntry] at h
    split at h
    · cases h
    · split at h
      · obtain rfl := Option.some.inj h
        refine RecordMoves.congr_right ?_ (recordView_setEnabled _ _ _)
        refine RecordMoves.trans (.of_eq (recordView_setTerm s _ _)) (RecordMoves.foldl (fun s item => ?_) _ _)
        simp only [applyTerminalEntry.loadRow]
        split
        · exact .refl s
        · exact changeRow_moves _ _ _ s
      · cases h
  · cases h

/-! ### The terminal line -/

theorem applyAdd_moves (x : TermId) (row : Nat) (symbol : SymbolCode) (s : State) :
    RecordMoves s (applyAdd x row symbol s) := by
  have answered (code : ResultCode) (row : Byte) : RecordMoves s (placeResult x code row s) :=
    .of_eq (recordView_placeResult _ _ _ _)
  simp only [applyAdd]
  split
  · exact answered _ _
  · split
    · exact answered _ _
    · split
      · exact answered _ _
      · split
        · exact answered _ _
        · exact (changeRow_moves _ _ _ s).congr_right (recordView_placeResult _ _ _ _)

theorem applyDrop_moves (x : TermId) (row : Byte) (s : State) : RecordMoves s (applyDrop x row s) := by
  have answered (code : ResultCode) (row : Byte) : RecordMoves s (placeResult x code row s) :=
    .of_eq (recordView_placeResult _ _ _ _)
  simp only [applyDrop]
  split
  · exact answered _ _
  · split
    · exact answered _ _
    · split
      · exact answered _ _
      · exact (changeRow_moves _ _ _ s).congr_right (recordView_placeResult _ _ _ _)

theorem applyRequest_moves (x : TermId) (request : Option Request) (s : State) :
    RecordMoves s (applyRequest x request s) := by
  cases request with
  | none => exact .refl s
  | some request =>
    cases request with
    | add row symbol => exact applyAdd_moves x row symbol s
    | drop row => exact applyDrop_moves x row s

/-- A request applied after the terminal is changed. -/
theorem applyRequest_setTerm_moves (x : TermId) (request : Option Request) (term : Terminal) (s : State) :
    RecordMoves s (applyRequest x request (s.setTerm x term)) :=
  .trans (.of_eq (recordView_setTerm s x term)) (applyRequest_moves x request _)

theorem screenInitOutcome_moves (x : TermId) (o : LineOutcome) (s : State) :
    RecordMoves s (screenInitOutcome x o s) := by
  simp only [screenInitOutcome]
  split
  · split
    · exact applyRequest_setTerm_moves _ _ _ s
    · exact .of_eq (recordView_miss _ _ _)
  · exact .refl s
  all_goals exact .of_eq (recordView_miss _ _ _)

theorem pollOutcome_moves (x : TermId) (o : LineOutcome) (s : State) : RecordMoves s (pollOutcome x o s) := by
  simp only [pollOutcome]
  split
  · exact applyRequest_setTerm_moves _ _ _ s
  · exact .refl s
  all_goals exact .of_eq (recordView_miss _ _ _)

theorem updateOutcome_moves (x : TermId) (o : LineOutcome) (s : State) : RecordMoves s (updateOutcome x o s) := by
  simp only [updateOutcome]
  split
  · split
    · exact applyRequest_setTerm_moves _ _ _ s
    · exact .of_eq (recordView_setTerm _ _ _)
  · exact .of_eq (recordView_setTerm _ _ _)
  all_goals exact .of_eq (recordView_miss _ _ _)

theorem activateOutcome_keeps (x : TermId) (o : LineOutcome) (s : State) :
    (activateOutcome x o s).recordView = s.recordView := by
  simp only [activateOutcome]
  split <;> simp

theorem enquiryOutcome_keeps (x : TermId) (o : LineOutcome) (s : State) :
    (enquiryOutcome x o s).recordView = s.recordView := by
  simp only [enquiryOutcome]
  repeat' split
  all_goals simp

theorem applyOutcome_moves (kind : PrimaryKind) (x : TermId) (o : LineOutcome) (s : State) :
    RecordMoves s (applyOutcome kind x o s) := by
  cases kind with
  | activate => exact .of_eq (activateOutcome_keeps x o s)
  | screenInit => exact screenInitOutcome_moves x o s
  | poll => exact pollOutcome_moves x o s
  | update => exact updateOutcome_moves x o s
  | enquiry => exact .of_eq (enquiryOutcome_keeps x o s)

theorem endTransaction_moves (o : LineOutcome) (s : State) : RecordMoves s (endTransaction o s) := by
  simp only [endTransaction]
  split
  · exact .refl s
  · rename_i tx _
    exact (applyOutcome_moves tx.kind tx.terminal o s).congr_right (by simp)

theorem takeCharacter_moves (b : Byte) (s : State) : RecordMoves s (takeCharacter b s) := by
  have taken (l : TerminalLine) : RecordMoves s (s.setLine l) := .of_eq (recordView_setLine s l)
  simp only [takeCharacter]
  split
  · exact .refl s
  · split
    · exact .refl s
    · split
      · exact .refl s
      · split
        · exact (taken _).trans (endTransaction_moves _ _)
        · split
          · exact (taken _).trans (endTransaction_moves _ _)
          · exact taken _

theorem responseExpire_moves (s : State) : RecordMoves s (responseExpire s) := by
  simp only [responseExpire]
  split
  · split
    · exact endTransaction_moves _ s
    · exact .refl s
  · exact .refl s

theorem probeExpire_keeps (x : TermId) (s : State) : (probeExpire x s).recordView = s.recordView := by
  simp only [probeExpire]
  split <;> simp

theorem gapExpire_keeps (s : State) : (gapExpire s).recordView = s.recordView := by
  simp only [gapExpire]
  split <;> simp

theorem frameSent_keeps (s : State) : (frameSent s).recordView = s.recordView := by
  simp only [frameSent]
  repeat' split
  all_goals simp

/-! ### The ticker -/

/-- A record that matches a print is DEFINED (R123). -/
theorem tableGet_of_matchingRecord {s : State} {p : Print} {r : QuoteRecord} (h : matchingRecord s p = some r) :
    tableGet s.records p.record = some r := by
  simp only [matchingRecord] at h
  split at h
  · rename_i r' hr
    split at h
    · rw [hr, Option.some.inj h]
    · cases h
  · cases h

theorem setTapeFields_moves (p : Print) (s : State) : RecordMoves s (setTapeFields p s) := by
  simp only [setTapeFields]
  split
  · exact .refl s
  · rename_i r hr
    exact .single (RecordMove.changed (v := s.recordView) (tableGet_of_matchingRecord hr) (.taped p s.ticker.epoch))

theorem printComposed_moves (p : Print) (s : State) : RecordMoves s (printComposed p s) := by
  simp only [printComposed]
  refine RecordMoves.congr_right ?_ (recordView_beginText _ _)
  refine RecordMoves.congr_right ?_ (recordView_onTicker _ _)
  exact .trans (.of_eq (recordView_condense s p)) (setTapeFields_moves _ _)

theorem compose_moves (fuel : Nat) : ∀ s : State, RecordMoves s (compose fuel s).2 := by
  induction fuel with
  | zero => exact RecordMoves.refl
  | succ k ih =>
    intro s
    simp only [compose]
    split
    · exact .refl s
    · exact .of_eq rfl
    · have hlevel (lateness : Nat) (rest : List TickerEntry) :
          RecordMoves s (updateLevel lateness (setQueue rest s)) := .of_eq (by simp)
      split
      · exact (hlevel _ _).trans (.trans (.of_eq (recordView_countOmitted _ _)) (ih _))
      · exact (hlevel _ _).trans (printComposed_moves _ _)

theorem compositionStep_moves (s : State) : RecordMoves s (compositionStep s) := by
  have h := compose_moves (s.ticker.queue.length + 1) s
  simp only [compositionStep]
  split
  · rename_i t ht
    rw [ht] at h
    exact h
  · rename_i t ht
    rw [ht] at h
    split
    · exact h.congr_right (by simp)
    · exact h.congr_right (recordView_emitBlank _)

theorem stepExpire_moves (s : State) : RecordMoves s (stepExpire s) := by
  simp only [stepExpire]
  split
  · refine RecordMoves.congr_right ?_ (recordView_restartStep _)
    simp only [emitStep]
    split
    · exact .of_eq (recordView_setTicker s _)
    · split
      · exact .of_eq (recordView_setTicker s _)
      · exact compositionStep_moves s
  · exact .refl s

/-! ### The feed line -/

theorem setFeedState_running_moves (s : State) : RecordMoves s (setFeedState .running s) := by
  simp only [setFeedState, handFeedState]
  split
  · exact .refl s
  · refine .single ?_
    simp only [reduceCtorEq, if_false, recordView_statusLinesPending, recordView_markStatus]
    exact RecordMove.heard

theorem arrivalSeen_moves (s : State) : RecordMoves s (arrivalSeen s) := by
  simp only [arrivalSeen]
  refine .trans (.of_eq ?_) (setFeedState_running_moves _)
  exact recordView_setFeed s rfl

theorem offerIntake_keeps (body : List Byte) (s : State) : (offerIntake body s).recordView = s.recordView := by
  simp only [offerIntake]
  split <;> rfl

theorem sequenceChecked_keeps {body : List Byte} {s t : State} (h : sequenceChecked body s = some t) :
    t.recordView = s.recordView := by
  simp only [sequenceChecked] at h
  split at h
  · split at h
    · obtain rfl := Option.some.inj h
      rfl
    · obtain rfl := Option.some.inj h
      rfl
    · cases h
  · obtain rfl := Option.some.inj h
    rfl

theorem arrive_moves (body : List Byte) (s : State) : RecordMoves s (arrive body s) := by
  simp only [arrive]
  split
  · exact arrivalSeen_moves s
  · rename_i t ht
    have h := (arrivalSeen_moves s).congr_right (sequenceChecked_keeps ht)
    split
    · exact h.congr_right (offerIntake_keeps _ _)
    · exact h

theorem settleReception_moves (r : Receiver × RxEvent) (s : State) : RecordMoves s (settleReception r s) := by
  have h : RecordMoves s (s.setFeed { s.feed with rx := r.1 }) := .of_eq (recordView_setFeed s rfl)
  simp only [settleReception]
  split
  · exact h
  · exact h.trans (arrive_moves _ _)

theorem feedBits_moves (bits : List Bool) (s : State) : RecordMoves s (feedBits bits s) :=
  RecordMoves.foldl (fun s _ => settleReception_moves _ s) bits s

theorem takeLastByte_moves (low : Byte) (s : State) : RecordMoves s (takeLastByte low s) := by
  simp only [takeLastByte]
  split
  · exact settleReception_moves _ s
  · exact feedBits_moves _ s

theorem silenceExpire_moves (s : State) : RecordMoves s (silenceExpire s) := by
  simp only [silenceExpire]
  split
  · refine staled_moves (t := raiseAlert .feedLost (s.setFeed { s.feed with feedState := .lost, silence := none }))
      rfl rfl ?_
    simp [handFeedState]
  · exact .refl s

/-! ### READ, REPORT, CONTROL and the return line -/

theorem applyRead_keeps (body : List Byte) (s : State) : (applyRead body s).recordView = s.recordView := by
  simp only [applyRead]
  repeat' split
  all_goals simp

theorem applyReport_keeps (body : List Byte) (s : State) : (applyReport body s).recordView = s.recordView := by
  simp only [applyReport]
  split <;> simp

theorem applyControl_keeps {length : Nat} {act : List Byte → State → Option State}
    (h : ∀ p s t, act p s = some t → t.recordView = s.recordView) (body : List Byte) (s : State) :
    (applyControl length act body s).recordView = s.recordView := by
  simp only [applyControl]
  split
  · simp
  · split
    · rename_i t ht
      simpa using h _ s t ht
    · simp

theorem chainResetNamed_keeps (p : List Byte) (s t : State) (h : chainResetNamed p s = some t) :
    t.recordView = s.recordView := by
  obtain ⟨c, -, rfl⟩ := Option.map_eq_some_iff.mp h
  simp

theorem terminalResetNamed_keeps (p : List Byte) (s t : State) (h : terminalResetNamed p s = some t) :
    t.recordView = s.recordView := by
  obtain ⟨c, -, rfl⟩ := Option.map_eq_some_iff.mp h
  simp

theorem clearAlertsNamed_keeps (named : AlertSet) (s : State) :
    (clearAlertsNamed named s).recordView = s.recordView := by
  simp [clearAlertsNamed]

theorem tickerFlushAt_keeps (s : State) : (tickerFlushAt s).recordView = s.recordView := by
  simp [tickerFlushAt]

theorem returnStart_keeps (s : State) : (returnStart s).recordView = s.recordView := by
  simp only [returnStart]
  split <;> simp

theorem returnSent_keeps (s : State) : (returnSent s).recordView = s.recordView := by
  simp only [returnSent]
  split <;> simp

/-! ### Resets -/

theorem coldState_moves (cause : ResetCause) (phase : Phase) (station : BitVec 6) (sense : Vector Bool 4)
    (s : State) : RecordMoves s (coldState cause phase station sense s) := .single RecordMove.emptied

theorem initEnds_moves (straps : BitVec 6) (sense : Vector Bool 4) (s : State) :
    RecordMoves s (initEnds straps sense s) := by
  simp only [initEnds]
  exact (coldState_moves s.mgmt.cause .running straps sense s).congr_right (by simp)

/-- What a warm reset does to every record (R5). -/
theorem tableGet_warmRecords (t : Table QuoteRecord) (m : Nat) :
    tableGet (warmRecords t) m = (tableGet t m).map (fun r => { r with stale := true }) :=
  tableGet_map (fun r : QuoteRecord => ({ r with stale := true } : QuoteRecord)) t m

theorem applyWarm_moves (straps : BitVec 6) (body : List Byte) (s : State) :
    RecordMoves s (applyWarm straps body s) := by
  have h : RecordMoves s (warmState straps s) := .single (RecordMove.staled rfl (tableGet_warmRecords s.records))
  exact h.congr_right (by simp [applyWarm])

/-! ### The interval tick -/

theorem keepaliveExpire_keeps (c : ChainId) (s : State) : (keepaliveExpire c s).recordView = s.recordView := by
  simp only [keepaliveExpire]
  split <;> simp

theorem settleExpire_keeps (c : ChainId) (s : State) : (settleExpire c s).recordView = s.recordView := by
  simp only [settleExpire]
  split <;> simp

theorem halfPeriodExpire_keeps (s : State) : (halfPeriodExpire s).recordView = s.recordView := by
  simp only [halfPeriodExpire, flashHalfPeriod]
  split <;> simp

/-- An expiry taken where its timer is due. -/
theorem ifDue_moves {due : Bool} {expire : State → State} {s : State} (h : RecordMoves s (expire s)) :
    RecordMoves s (ifDue due expire s) := by
  simp only [ifDue]
  split
  · exact h
  · exact .refl s

theorem chainDue_moves (c : ChainId) (s : State) : RecordMoves s (chainDue c s) :=
  .trans (ifDue_moves (.of_eq (settleExpire_keeps c s))) (ifDue_moves (.of_eq (keepaliveExpire_keeps c _)))

theorem slotDue_moves (s : State) (n : Nat) : RecordMoves s (slotDue s n) :=
  ifDue_moves (.of_eq (recordView_flashExpire s n))

theorem stackDue_moves (s : State) (k : StackId) : RecordMoves s (stackDue s k) :=
  RecordMoves.foldl (fun s _ => ifDue_moves (.of_eq (bulletinExpire_keeps k _ s))) _ s

theorem probeDueAt_moves (s : State) (x : TermId) : RecordMoves s (probeDueAt s x) :=
  ifDue_moves (.of_eq (probeExpire_keeps x s))

theorem takeDue_moves (s : State) : RecordMoves s (takeDue s) := by
  refine .trans ?_ (ifDue_moves (.of_eq (gapExpire_keeps _)))
  refine .trans ?_ (RecordMoves.foldl probeDueAt_moves _ _)
  refine .trans ?_ (ifDue_moves (responseExpire_moves _))
  refine .trans ?_ (ifDue_moves (stepExpire_moves _))
  refine .trans ?_ (RecordMoves.foldl stackDue_moves _ _)
  refine .trans ?_ (RecordMoves.foldl slotDue_moves _ _)
  refine .trans ?_ (ifDue_moves (.of_eq (halfPeriodExpire_keeps _)))
  refine .trans ?_ (chainDue_moves 3 _)
  refine .trans ?_ (chainDue_moves 2 _)
  refine .trans ?_ (chainDue_moves 1 _)
  refine .trans ?_ (chainDue_moves 0 _)
  refine .trans ?_ (ifDue_moves (silenceExpire_moves _))
  exact ifDue_moves (.of_eq (secondExpire_keeps s))

theorem intervalTick_moves (s : State) : RecordMoves s (intervalTick s) := by
  simp only [intervalTick]
  split
  · exact .trans (.of_eq (recordView_countTimers s)) (takeDue_moves _)
  · exact .refl s

/-! ### The step -/

/-- A command that acts in operation alone. -/
theorem whenRunning_moves {f : State → State} (h : ∀ s, RecordMoves s (f s)) {s t : State}
    (ht : whenRunning f s = .next t) : RecordMoves s t := by
  simp only [whenRunning, Host.Outcome.next.injEq] at ht
  subst ht
  split
  · exact h s
  · exact .refl s

/-- A command that acts in one phase alone. -/
theorem ite_moves {p : Prop} [Decidable p] {s t u v : State} (ht : Host.Outcome.next (if p then u else v) = (.next t : Answer))
    (hu : RecordMoves s u) (hv : RecordMoves s v) : RecordMoves s t := by
  simp only [Host.Outcome.next.injEq] at ht
  subst ht
  split
  · exact hu
  · exact hv

/-- What a command can do to the records, the directory and the feed state. -/
theorem exec_moves (i : Instr) {s t : State} (h : exec i s = .next t) : RecordMoves s t := by
  cases i
  case feedFrameReceived low => exact whenRunning_moves (takeLastByte_moves low) h
  case feedByteReceived unit => exact whenRunning_moves (feedBits_moves _) h
  case silenceTimerExpiry => exact whenRunning_moves silenceExpire_moves h
  case trade =>
    exact whenRunning_moves (takeHead_moves (applyItems_moves fun _ _ s hx => applyTrade_moves hx s)) h
  case quote =>
    exact whenRunning_moves (takeHead_moves (applyItems_moves fun _ _ s hx => applyQuote_moves hx s)) h
  case symbolState =>
    exact whenRunning_moves (takeHead_moves (applyItems_moves fun _ q s _ => applySymbolState_moves q s)) h
  case recap =>
    exact whenRunning_moves (takeHead_moves (applyItems_moves fun _ _ s hx => applyRecap_moves hx s)) h
  case clock =>
    exact whenRunning_moves (takeHead_moves (applyItems_moves fun _ q s _ => .of_eq (applyClock_keeps q s))) h
  case session =>
    exact whenRunning_moves (takeHead_moves (applyItems_moves fun _ q s _ => applySession_moves q s)) h
  case bulletinPush =>
    exact whenRunning_moves (takeHead_moves (applyItems_moves fun _ q s _ => .of_eq (applyPush_keeps q s))) h
  case bulletinPop =>
    exact whenRunning_moves (takeHead_moves (applyItems_moves fun _ q s _ => .of_eq (applyPop_keeps q s))) h
  case bulletinClear =>
    exact whenRunning_moves (takeHead_moves (applyItems_moves fun _ q s _ => .of_eq (applyClear_keeps q s))) h
  case loadParam => exact whenRunning_moves (takeLoad_moves applyParamEntry_moves) h
  case loadSymbol => exact whenRunning_moves (takeLoad_moves applySymbolEntry_moves) h
  case loadSlot => exact whenRunning_moves (takeLoad_moves fun _ _ _ _ hx => .of_eq (applySlotTable_keeps hx)) h
  case loadChain => exact whenRunning_moves (takeLoad_moves fun _ _ _ _ hx => .of_eq (applyChainTable_keeps hx)) h
  case loadModule => exact whenRunning_moves (takeLoad_moves fun _ _ _ _ hx => .of_eq (applyModuleTable_keeps hx)) h
  case loadTerminal => exact whenRunning_moves (takeLoad_moves applyTerminalTable_moves) h
  case read => exact whenRunning_moves (takeHead_moves fun body s => .of_eq (applyRead_keeps body s)) h
  case report => exact whenRunning_moves (takeHead_moves fun body s => .of_eq (applyReport_keeps body s)) h
  case clearAlerts =>
    refine whenRunning_moves (takeHead_moves fun body s => .of_eq (applyControl_keeps ?_ body s)) h
    rintro p u v ⟨rfl⟩
    exact clearAlertsNamed_keeps _ _
  case setMask =>
    refine whenRunning_moves (takeHead_moves fun body s => .of_eq (applyControl_keeps ?_ body s)) h
    rintro p u v ⟨rfl⟩
    rfl
  case chainReset =>
    exact whenRunning_moves (takeHead_moves fun body s => .of_eq (applyControl_keeps chainResetNamed_keeps body s)) h
  case terminalReset =>
    exact whenRunning_moves
      (takeHead_moves fun body s => .of_eq (applyControl_keeps terminalResetNamed_keeps body s)) h
  case tickerFlush =>
    refine whenRunning_moves (takeHead_moves fun body s => .of_eq (applyControl_keeps ?_ body s)) h
    rintro p u v ⟨rfl⟩
    exact tickerFlushAt_keeps _
  case resetCold => exact whenRunning_moves (takeHead_moves fun _ s => coldState_moves _ _ _ _ s) h
  case resetWarm straps => exact whenRunning_moves (takeHead_moves (applyWarm_moves straps)) h
  case powerOn =>
    simp only [exec, execPowerOn, Host.Outcome.next.injEq] at h
    subst h
    exact coldState_moves _ _ _ _ s
  case resetPinAssert => exact ite_moves h (.refl s) (.of_eq (recordView_pinTaken s))
  case resetPinRelease => exact ite_moves h (coldState_moves _ _ _ _ s) (.refl s)
  case initEnd straps sense => exact ite_moves h (initEnds_moves straps sense s) (.refl s)
  case secondPhaseExpiry => exact whenRunning_moves (fun s => .of_eq (secondExpire_keeps s)) h
  case keepaliveExpiry c => exact whenRunning_moves (fun s => .of_eq (keepaliveExpire_keeps c s)) h
  case shiftCompletion c returned => exact whenRunning_moves (fun s => .of_eq (recordView_shiftComplete s c _)) h
  case settleCompletion c => exact whenRunning_moves (fun s => .of_eq (settleExpire_keeps c s)) h
  case chainSenseChange c present =>
    refine whenRunning_moves (f := fun s => if s.chains[c].senseLevel = present then s else senseChange c present s)
      (fun s => .of_eq ?_) h
    split
    · rfl
    · exact recordView_senseChange s c present
  case pwmPeriodStart c => exact whenRunning_moves (fun s => .of_eq (recordView_setChain s c _)) h
  case flashClockHalfPeriod => exact whenRunning_moves (fun s => .of_eq (halfPeriodExpire_keeps s)) h
  case flashExpiry n => exact whenRunning_moves (fun s => .of_eq (recordView_flashExpire s n)) h
  case bulletinDurationExpiry k place => exact whenRunning_moves (fun s => .of_eq (bulletinExpire_keeps k place s)) h
  case step => exact whenRunning_moves stepExpire_moves h
  case primaryFrameSent => exact whenRunning_moves (fun s => .of_eq (frameSent_keeps s)) h
  case terminalResponse low => exact whenRunning_moves (takeCharacter_moves low) h
  case terminalCharacterReceived b => exact whenRunning_moves (takeCharacter_moves b) h
  case responseTimeout => exact whenRunning_moves responseExpire_moves h
  case probeTimerExpiry x => exact whenRunning_moves (fun s => .of_eq (probeExpire_keeps x s)) h
  case nightPollGapExpiry => exact whenRunning_moves (fun s => .of_eq (gapExpire_keeps s)) h
  case returnTransmissionStart => exact whenRunning_moves (fun s => .of_eq (returnStart_keeps s)) h
  case returnFrameSent => exact whenRunning_moves (fun s => .of_eq (returnSent_keeps s)) h
  case refusedManagementFrame =>
    exact whenRunning_moves (takeHead_moves fun _ s => .of_eq (recordView_replyTo s _ _)) h

/-- What a step can do to the records, the directory and the feed state. -/
theorem step_moves {s t : State} (h : step s = .next t) : RecordMoves s t := by
  simp only [step] at h
  split at h
  · rename_i i rest _
    exact RecordMoves.trans (t := { s with pending := rest }) (.of_eq rfl) (exec_moves i h)
  · simp only [Host.Outcome.next.injEq] at h
    subst h
    exact intervalTick_moves s

end Sys2Proof.Machine

namespace Sys2Proof.Machine

open Sys2Proof.Safety

/-! ## The symbol directory (R2 to R4) -/

/-- The order of R2 tells any two symbol codes apart. -/
theorem symbolKey_injective {c d : SymbolCode} (h : symbolKey c = symbolKey d) : c = d := by
  obtain ⟨c0, c1, c2, c3, c4⟩ := c
  obtain ⟨d0, d1, d2, d3, d4⟩ := d
  simp only [symbolKey] at h
  simp only [SymbolCode.mk.injEq, ← BitVec.toNat_inj]
  have := c0.isLt; have := c1.isLt; have := c2.isLt; have := c3.isLt; have := c4.isLt
  have := d0.isLt; have := d1.isLt; have := d2.isLt; have := d3.isLt; have := d4.isLt
  omega

/-- What a lookup finds stands in the directory. -/
theorem mem_of_lookup {d : List (SymbolCode × Nat)} {c : SymbolCode} {n : Nat} (h : lookup d c = some n) :
    (c, n) ∈ d := by
  induction d with
  | nil => simp [lookup] at h
  | cons e rest ih =>
    simp only [lookup] at h
    split at h
    · rename_i he
      obtain rfl := Option.some.inj h
      exact he ▸ List.mem_cons_self
    · exact List.mem_cons_of_mem _ (ih h)

/-- A lookup finds nothing exactly where the directory holds no entry of the code. -/
theorem lookup_eq_none_iff {d : List (SymbolCode × Nat)} {c : SymbolCode} :
    lookup d c = none ↔ ∀ n, (c, n) ∉ d := by
  induction d with
  | nil => simp [lookup]
  | cons e rest ih =>
    obtain ⟨code, k⟩ := e
    simp only [lookup]
    by_cases h : code = c
    · simp only [h, if_true, reduceCtorEq, false_iff, not_forall, not_not]
      exact ⟨k, List.mem_cons_self⟩
    · simp [h, Ne.symm h, ih]

/-- A code inserted stands in the directory, with what stood there. -/
theorem mem_directoryInsert {c : SymbolCode} {n : Nat} {d : List (SymbolCode × Nat)} {e : SymbolCode × Nat} :
    e ∈ directoryInsert c n d ↔ e = (c, n) ∨ e ∈ d := by
  induction d with
  | nil => simp [directoryInsert]
  | cons x rest ih =>
    simp only [directoryInsert]
    split
    · simp
    · simp only [List.mem_cons, ih]
      tauto

/-- A code that the directory does not hold is inserted at its sorted position. -/
theorem pairwise_directoryInsert {c : SymbolCode} {n : Nat} {d : List (SymbolCode × Nat)}
    (hd : (d.map (fun e => symbolKey e.1)).Pairwise (· < ·)) (hc : ∀ m, (c, m) ∉ d) :
    ((directoryInsert c n d).map (fun e => symbolKey e.1)).Pairwise (· < ·) := by
  induction d with
  | nil => simp [directoryInsert]
  | cons x rest ih =>
    simp only [List.map_cons, List.pairwise_cons, List.forall_mem_map] at hd
    obtain ⟨hx, hrest⟩ := hd
    simp only [directoryInsert]
    split
    · rename_i hlt
      simp only [List.map_cons, List.pairwise_cons, List.mem_cons, forall_eq_or_imp, List.forall_mem_map]
      exact ⟨⟨hlt, fun e he => lt_trans hlt (hx e he)⟩, hx, hrest⟩
    · rename_i hle
      have hne : symbolKey x.1 ≠ symbolKey c := fun h =>
        hc x.2 (symbolKey_injective h ▸ List.mem_cons_self)
      simp only [List.map_cons, List.pairwise_cons, List.forall_mem_map, mem_directoryInsert, forall_eq_or_imp]
      exact ⟨⟨by omega, hx⟩, ih hrest (fun m hm => hc m (List.mem_cons_of_mem _ hm))⟩

/-- A code removed is gone, and the other codes stand. -/
theorem mem_directoryRemove {c : SymbolCode} {d : List (SymbolCode × Nat)} {e : SymbolCode × Nat} :
    e ∈ directoryRemove c d ↔ e ∈ d ∧ e.1 ≠ c := by
  simp [directoryRemove]

/-- A removal keeps the order. -/
theorem pairwise_directoryRemove (c : SymbolCode) {d : List (SymbolCode × Nat)}
    (hd : (d.map (fun e => symbolKey e.1)).Pairwise (· < ·)) :
    ((directoryRemove c d).map (fun e => symbolKey e.1)).Pairwise (· < ·) :=
  hd.sublist (List.Sublist.map _ List.filter_sublist)

/-- A sorted directory gives a code one number. -/
theorem number_unique {d : List (SymbolCode × Nat)} (hd : (d.map (fun e => symbolKey e.1)).Pairwise (· < ·))
    {c : SymbolCode} {n m : Nat} (hn : (c, n) ∈ d) (hm : (c, m) ∈ d) : n = m := by
  have hnodup : (d.map (fun e => symbolKey e.1)).Nodup := hd.imp ne_of_lt
  exact congrArg Prod.snd (List.inj_on_of_nodup_map hnodup hn hm rfl)

/-- An update of a record keeps its symbol. -/
theorem RecordChange.symbol {lost : Bool} {r r' : QuoteRecord} (h : RecordChange lost r r') : r'.symbol = r.symbol := by
  cases h with
  | traded _ =>
    simp only [tradedRecord]
    split <;> rfl
  | recapped _ =>
    simp only [recappedRecord, adjustRange]
    split <;> rfl
  | _ => rfl

/-- The directory law of R3, of a view. -/
def RecordView.Exact (v : RecordView) : Prop :=
  (v.directory.map (fun e => symbolKey e.1)).Pairwise (· < ·)
    ∧ ∀ (c : SymbolCode) (n : Nat), (c, n) ∈ v.directory ↔ ∃ r, tableGet v.records n = some r ∧ r.symbol = c

/-- A code free for a record that does not hold it stands nowhere in an exact directory. -/
theorem RecordView.Exact.not_mem {v : RecordView} (h : v.Exact) {n : Nat} {c : SymbolCode} (hfree : v.FreeFor n c)
    (hn : ∀ r, tableGet v.records n = some r → r.symbol ≠ c) (m : Nat) : (c, m) ∉ v.directory := by
  have hnone : lookup v.directory c = none := by
    by_contra hsome
    obtain ⟨k, hk⟩ := Option.ne_none_iff_exists'.mp hsome
    obtain ⟨r, hr, hrc⟩ := (h.2 c k).mp (mem_of_lookup hk)
    rw [hfree k hk] at hr
    exact hn r hr hrc
  exact lookup_eq_none_iff.mp hnone m

/-- A record written, whose symbol is the one that the directory gives it, keeps the directory exact. -/
theorem exact_tableSet {v : RecordView} {d : List (SymbolCode × Nat)} {n : Nat} {r : QuoteRecord}
    (hsort : (d.map (fun e => symbolKey e.1)).Pairwise (· < ·))
    (hmem : ∀ c m, (c, m) ∈ d ↔ if m = n then r.symbol = c else (c, m) ∈ v.directory) (h : v.Exact) :
    RecordView.Exact { v with directory := d, records := tableSet v.records n r } := by
  refine ⟨hsort, fun c m => ?_⟩
  simp only [hmem, tableGet_tableSet]
  by_cases hm : m = n
  · simp [hm]
  · simp [hm, h.2 c m]

/-- Every operation keeps the directory exact. -/
theorem RecordMove.exact {v w : RecordView} (hmove : RecordMove v w) (h : v.Exact) : w.Exact := by
  have hother {c : SymbolCode} {n : Nat} {r : QuoteRecord} (hr : tableGet v.records n = some r) :
      (c, n) ∈ v.directory ↔ r.symbol = c := by simp [h.2 c n, hr]
  cases hmove with
  | heard => exact h
  | changed hget hchange =>
    refine exact_tableSet h.1 (fun c m => ?_) h
    split
    · rename_i hm
      rw [hm, hother hget, hchange.symbol]
    · rfl
  | staled hdir hget =>
    refine ⟨by rw [hdir]; exact h.1, fun c m => ?_⟩
    rw [hdir, h.2, hget]
    cases tableGet v.records m <;> simp
  | @defined n _ q hq hempty hfree =>
    have hnot := h.not_mem hfree (fun r hr => by rw [hempty] at hr; cases hr)
    refine exact_tableSet (pairwise_directoryInsert h.1 hnot) (fun c m => ?_) h
    rw [mem_directoryInsert, Prod.mk.injEq]
    by_cases hm : m = n
    · have hgone : (c, n) ∉ v.directory := by simp [h.2, hempty]
      simp [hm, hgone, definedRecord, eq_comm]
    · simp [hm]
  | @deleted n r hget =>
    refine ⟨pairwise_directoryRemove _ h.1, fun c m => ?_⟩
    rw [mem_directoryRemove, tableGet_tableErase]
    by_cases hm : m = n
    · simp [hm, hother hget, eq_comm]
    · have hkeep (hc : (c, m) ∈ v.directory) : c ≠ r.symbol := fun hs =>
        hm (number_unique h.1 hc ((hother hget).mpr hs.symm))
      simp only [hm, if_false, ← h.2]
      exact ⟨And.left, fun hc => ⟨hc, hkeep hc⟩⟩
  | @renamed n _ q r hq hget hne hfree =>
    have hnot := h.not_mem hfree (fun r' hr' => by
      obtain rfl := Option.some.inj (hget.symm.trans hr')
      exact hne.symm)
    have hsort := pairwise_directoryInsert (n := n) (pairwise_directoryRemove r.symbol h.1)
      (fun m hm => hnot m (mem_directoryRemove.mp hm).1)
    refine exact_tableSet hsort (fun c m => ?_) h
    rw [mem_directoryInsert, mem_directoryRemove, Prod.mk.injEq]
    by_cases hm : m = n
    · simp only [hm, and_true, hother hget, if_true, definedRecord]
      constructor
      · rintro (hc | ⟨hc, hcne⟩)
        · exact hc.symm
        · exact absurd hc.symm hcne
      · exact fun hc => .inl hc.symm
    · have hkeep (hc : (c, m) ∈ v.directory) : c ≠ r.symbol := fun hs =>
        hm (number_unique h.1 hc ((hother hget).mpr hs.symm))
      simp only [hm, and_false, false_or, if_false]
      exact ⟨And.left, fun hc => ⟨hc, hkeep hc⟩⟩
  | emptied => exact ⟨by simp, by simp [tableGet]⟩

/-- What every operation keeps of the view, operations keep one after the other. -/
theorem RecordMoves.keeps {P : RecordView → Prop} (hP : ∀ v w, RecordMove v w → P v → P w) {s t : State}
    (h : RecordMoves s t) (hs : P s.recordView) : P t.recordView := by
  refine Relation.ReflTransGen.head_induction_on (motive := fun v _ => P v → P t.recordView) h id ?_ hs
  exact fun hmove _ ih hv => ih (hP _ _ hmove hv)

/-- Settles O51: a step is operations on the records and the directory, each of which keeps it exact. -/
theorem directoryStaysExact : Obligations.DirectoryStaysExact := by
  unfold Obligations.DirectoryStaysExact
  intro s t hs ht
  exact (step_moves ht).keeps (fun _ _ hmove => hmove.exact) hs

end Sys2Proof.Machine

namespace Sys2Proof.Machine

open Sys2Proof.Safety

/-! ## What a payload carries (R1, R23, R49, Tables 3-4, 11-2 and 11-3) -/

/-! ### Items -/

theorem isLetter_iff (b : Byte) : isLetter b = true ↔ IsLetter b := by
  simp [isLetter]

theorem letterOrBlank_iff (b : Byte) : letterOrBlank b = true ↔ IsLetter b ∨ b = 0x20 := by
  simp [letterOrBlank, isLetter, chBlank]

/-- A blank is no letter. -/
theorem not_isLetter_blank {b : Byte} (h : b = 0x20) : ¬ IsLetter b := by
  subst h
  decide

/-- R1, as the model tests it and as the manual spells it. -/
theorem symbolWellFormed_iff (c : SymbolCode) : symbolWellFormed c = true ↔ GoodSymbol c := by
  obtain ⟨c0, c1, c2, c3, c4⟩ := c
  have h0 := not_isLetter_blank (b := c0)
  have h1 := not_isLetter_blank (b := c1)
  have h2 := not_isLetter_blank (b := c2)
  have h3 := not_isLetter_blank (b := c3)
  have hb : (({ r0 := c0, r1 := c1, r2 := c2, r3 := c3, cls := c4 } : SymbolCode) == blankSymbol) = true
      ↔ c0 = 0x20 ∧ c1 = 0x20 ∧ c2 = 0x20 ∧ c3 = 0x20 ∧ c4 = 0x20 := by
    simp [blankSymbol]
  simp only [symbolWellFormed, Bool.and_eq_true, Bool.or_eq_true, Bool.not_eq_true', ← Bool.not_eq_true, hb,
    letterOrBlank_iff, isLetter_iff, GoodSymbol, List.mem_cons, List.not_mem_nil, or_false, forall_eq_or_imp,
    forall_eq, exists_eq_or_imp, exists_eq_left, List.pairwise_cons, List.Pairwise.nil, and_true, false_imp_iff,
    implies_true]
  generalize IsLetter c0 = l0 at *
  generalize IsLetter c1 = l1 at *
  generalize IsLetter c2 = l2 at *
  generalize IsLetter c3 = l3 at *
  generalize IsLetter c4 = l4 at *
  constructor
  · rintro ⟨⟨⟨⟨⟨⟨⟨⟨a0, a1⟩, a2⟩, a3⟩, a10⟩, a21⟩, a32⟩, a4⟩, hroot⟩
    have d1 (hl : l1) : l0 := a10.resolve_right (not_not.mpr hl)
    have d2 (hl : l2) : l1 := a21.resolve_right (not_not.mpr hl)
    have d3 (hl : l3) : l2 := a32.resolve_right (not_not.mpr hl)
    refine ⟨⟨a0, a1, a2, a3, a4⟩, ⟨⟨?_, ?_, ?_⟩, ⟨?_, ?_⟩, ?_⟩, by simpa only [or_assoc] using hroot⟩
    · exact fun hb hl => h0 hb (d1 hl)
    · exact fun hb hl => h0 hb (d1 (d2 hl))
    · exact fun hb hl => h0 hb (d1 (d2 (d3 hl)))
    · exact fun hb hl => h1 hb (d2 hl)
    · exact fun hb hl => h1 hb (d2 (d3 hl))
    · exact fun hb hl => h2 hb (d3 hl)
  · rintro ⟨⟨a0, a1, a2, a3, a4⟩, ⟨⟨b01, -, -⟩, ⟨b12, -⟩, b23⟩, hroot⟩
    exact ⟨⟨⟨⟨⟨⟨⟨⟨a0, a1⟩, a2⟩, a3⟩, a0.imp_right b01⟩, a1.imp_right b12⟩, a2.imp_right b23⟩, a4⟩,
      by simpa only [or_assoc] using hroot⟩

theorem goodSymbolAt_of_good {p : List Byte} {i : Nat} (h : GoodSymbol (symbolAt p i)) :
    goodSymbolAt p i = some (symbolAt p i) := by
  rw [goodSymbolAt, if_pos ((symbolWellFormed_iff _).mpr h)]

theorem goodSymbolAt_of_bad {p : List Byte} {i : Nat} (h : ¬ GoodSymbol (symbolAt p i)) :
    goodSymbolAt p i = none := by
  rw [goodSymbolAt, if_neg (fun hw => h ((symbolWellFormed_iff _).mp hw))]

/-- The three forms of a price field (R23). -/
theorem priceAt_of_absent {p : List Byte} {i : Nat} (h : PriceAbsent p i) : priceAt p i = .absent := by
  simp only [priceAt, priceField]
  exact if_pos h

theorem priceAt_of_fails {p : List Byte} {i : Nat} (h : PriceFails p i) : priceAt p i = .failed := by
  obtain ⟨hpresent, hbad⟩ := h
  simp only [priceAt, priceField]
  rw [if_neg hpresent, if_neg (by omega)]

theorem priceAt_of_good {p : List Byte} {i : Nat} (ha : ¬ PriceAbsent p i) (hf : ¬ PriceFails p i) :
    priceAt p i = .units (unitsAt p i) := by
  have hgood := fun hbad => hf ⟨ha, hbad⟩
  simp only [priceAt, priceField]
  rw [if_neg ha, if_pos (by omega)]
  rfl

/-- A price where absence is allowed. -/
theorem optional_priceAt {p : List Byte} {i : Nat} (hf : ¬ PriceFails p i) :
    (priceAt p i).optional = some (priceOf p i) := by
  by_cases ha : PriceAbsent p i
  · simp [priceAt_of_absent ha, priceOf, ha, PriceField.optional]
  · simp [priceAt_of_good ha hf, priceOf, ha, PriceField.optional]

/-- The numerator's part of a price is less than one dollar. -/
theorem fraction_lt {code numerator : Nat} (hc : code ≤ 8) (hn : numerator < 2 ^ code) :
    numerator * (256 / 2 ^ code) < 256 := by
  have hpow : 2 ^ code * (256 / 2 ^ code) = 256 := Nat.mul_div_cancel' (by simpa using Nat.pow_dvd_pow 2 hc)
  have hpos : 0 < 256 / 2 ^ code := Nat.pos_of_ne_zero (fun h => by simp [h] at hpow)
  calc numerator * (256 / 2 ^ code) < 2 ^ code * (256 / 2 ^ code) := Nat.mul_lt_mul_of_pos_right hn hpos
    _ = 256 := hpow

/-- A price of a field that does not fail lies in its range (R23). -/
theorem unitsAt_le {p : List Byte} {i : Nat} (ha : ¬ PriceAbsent p i) (hf : ¬ PriceFails p i) :
    unitsAt p i ≤ 2559999 := by
  have hgood : at16 p i ≤ 9999 ∧ at8 p (i + 2) ≤ 8 ∧ at8 p (i + 3) < 2 ^ at8 p (i + 2) := by
    have := fun hbad => hf ⟨ha, hbad⟩
    omega
  obtain ⟨hwhole, hcode, hnum⟩ := hgood
  have := fraction_lt hcode hnum
  simp only [unitsAt]
  omega

theorem priceOf_inRange {p : List Byte} {i : Nat} (hf : ¬ PriceFails p i) : PriceInRange (priceOf p i) := by
  intro x hx
  simp only [priceOf] at hx
  split at hx
  · cases hx
  · rename_i ha
    obtain rfl := Option.some.inj hx
    exact unitsAt_le ha hf

theorem timeAt_of_good {p : List Byte} {i : Nat} (h : ¬ TimeFails p i) : timeAt p i = some (timeOf p i) := by
  simp only [timeAt, timeOf]
  rw [if_pos (by omega)]

theorem timeAt_of_fails {p : List Byte} {i : Nat} (h : TimeFails p i) : timeAt p i = none := by
  simp only [timeAt]
  rw [if_neg (by omega)]

/-- The codes of Table 11-3. -/
theorem conditionOfCode_of_le {n : Nat} (h : ¬ 2 < n) : conditionOfCode n
    = some (if n = 0 then .regular else if n = 1 then .opening else .outOfSequence) := by
  interval_cases n <;> rfl

theorem conditionOfCode_of_gt {n : Nat} (h : 2 < n) : conditionOfCode n = none := by
  match n, h with
  | n + 3, _ => rfl

theorem tradingStateOfCode_of_le {n : Nat} (h : ¬ 2 < n) : tradingStateOfCode n
    = some (if n = 0 then .notOpen else if n = 1 then .trading else .halted) := by
  interval_cases n <;> rfl

theorem tradingStateOfCode_of_gt {n : Nat} (h : 2 < n) : tradingStateOfCode n = none := by
  match n, h with
  | n + 3, _ => rfl

theorem tickOfCode_of_le {n : Nat} (h : ¬ 4 < n) : tickOfCode n
    = some (if n = 0 then .none else if n = 1 then .up else if n = 2 then .down
      else if n = 3 then .zeroPlus else .zeroMinus) := by
  interval_cases n <;> rfl

theorem tickOfCode_of_gt {n : Nat} (h : 4 < n) : tickOfCode n = none := by
  match n, h with
  | n + 5, _ => rfl

theorem tapeClassOfCode_of_le {n : Nat} (h : ¬ 2 < n) : tapeClassOfCode n
    = some (if n = 0 then .none else if n = 1 then .a else .b) := by
  interval_cases n <;> rfl

theorem tapeClassOfCode_of_gt {n : Nat} (h : 2 < n) : tapeClassOfCode n = none := by
  match n, h with
  | n + 3, _ => rfl

/-- Table 11-11, as the model tests it and as the manual lists it. -/
theorem isCharCode_iff (b : Byte) : isCharCode b = true ↔ InCharacterSet b := by
  revert b
  decide +kernel

/-! ### Payloads -/

/-- A reading by its two halves: what does not fail is read, and what is read does not fail. -/
theorem reads_of {α : Type} {items : List Byte → Option α} {fails : List Byte → Prop} {carried : List Byte → α}
    (hgood : ∀ p, ¬ fails p → items p = some (carried p)) (hread : ∀ p x, items p = some x → ¬ fails p) :
    Reads items fails carried := by
  refine fun p => ⟨fun hf => ?_, hgood p⟩
  cases hx : items p with
  | none => rfl
  | some x => exact absurd hf (hread p x hx)

/-- What is read is what the payload carries, and the payload does not fail. -/
theorem inv_of_reads {α : Type} {items : List Byte → Option α} {fails : List Byte → Prop} {carried : List Byte → α}
    (h : Reads items fails carried) {p : List Byte} {x : α} (hx : items p = some x) : ¬ fails p ∧ x = carried p := by
  have hf : ¬ fails p := fun hf => by simp [(h p).1 hf] at hx
  exact ⟨hf, Option.some.inj (hx.symm.trans ((h p).2 hf))⟩

theorem reads_tradeItems : Reads tradeItems TradeFails tradeOf := by
  refine reads_of (fun p h => ?_) (fun p x h => ?_)
  · obtain ⟨hlen, h⟩ := not_or.mp h
    obtain ⟨hsym, h⟩ := not_or.mp h
    obtain ⟨ha, h⟩ := not_or.mp h
    obtain ⟨hp, h⟩ := not_or.mp h
    obtain ⟨hlow, h⟩ := not_or.mp h
    obtain ⟨hhigh, h⟩ := not_or.mp h
    obtain ⟨htime, hcond⟩ := not_or.mp h
    have hsym := not_not.mp hsym
    simp only [tradeItems, not_not.mp hlen, if_true, goodSymbolAt_of_good hsym, priceAt_of_good ha hp, PriceField.required,
      timeAt_of_good htime, conditionOfCode_of_le hcond]
    rw [if_pos ⟨Nat.pos_of_ne_zero hlow, Nat.le_of_not_lt hhigh⟩]
    rfl
  · simp only [tradeItems] at h
    split at h
    · rename_i hlen
      split at h
      · rename_i symbol price time condition hsym hprice htime hcond
        split at h
        · rename_i hvol
          rintro (hf | hf | hf | hf | hf | hf | hf | hf)
          · exact hf hlen
          · simp [goodSymbolAt_of_bad hf] at hsym
          · simp [priceAt_of_absent hf, PriceField.required] at hprice
          · simp [priceAt_of_fails hf, PriceField.required] at hprice
          · omega
          · omega
          · simp [timeAt_of_fails hf] at htime
          · simp [conditionOfCode_of_gt hf] at hcond
        · cases h
      · cases h
    · cases h

theorem reads_quoteItems : Reads quoteItems QuoteFails quoteOf := by
  refine reads_of (fun p h => ?_) (fun p x h => ?_)
  · obtain ⟨hlen, h⟩ := not_or.mp h
    obtain ⟨hsym, h⟩ := not_or.mp h
    obtain ⟨hbid, hask⟩ := not_or.mp h
    simp only [quoteItems, not_not.mp hlen, if_true, goodSymbolAt_of_good (not_not.mp hsym), optional_priceAt hbid, optional_priceAt hask]
    rfl
  · simp only [quoteItems] at h
    split at h
    · rename_i hlen
      split at h
      · rename_i symbol bid ask hsym hbid hask
        rintro (hf | hf | hf | hf)
        · exact hf hlen
        · simp [goodSymbolAt_of_bad hf] at hsym
        · simp [priceAt_of_fails hf, PriceField.optional] at hbid
        · simp [priceAt_of_fails hf, PriceField.optional] at hask
      · cases h
    · cases h

theorem reads_symbolStateItems : Reads symbolStateItems SymbolStateFails symbolStateOf := by
  refine reads_of (fun p h => ?_) (fun p x h => ?_)
  · obtain ⟨hlen, h⟩ := not_or.mp h
    obtain ⟨hsym, haction⟩ := not_or.mp h
    simp only [symbolStateItems, not_not.mp hlen, if_true, goodSymbolAt_of_good (not_not.mp hsym), symbolStateOf]
    by_cases h1 : at8 p 5 = 1
    · simp [h1]
    · have h2 : at8 p 5 = 2 := by omega
      simp [h2]
  · simp only [symbolStateItems] at h
    split at h
    · rename_i hlen
      split at h
      · rename_i symbol hsym
        rintro (hf | hf | ⟨hf1, hf2⟩)
        · exact hf hlen
        · simp [goodSymbolAt_of_bad hf] at hsym
        · simp [hf1, hf2] at h
      · cases h
    · cases h

theorem reads_recapItems : Reads recapItems RecapFails recapOf := by
  refine reads_of (fun p h => ?_) (fun p x h => ?_)
  · obtain ⟨hlen, h⟩ := not_or.mp h
    obtain ⟨hsym, h⟩ := not_or.mp h
    obtain ⟨hstate, h⟩ := not_or.mp h
    obtain ⟨ha, h⟩ := not_or.mp h
    obtain ⟨htick, h⟩ := not_or.mp h
    obtain ⟨hvol, hprices⟩ := not_or.mp h
    have good (i : Nat) (hi : i ∈ [6, 10, 15, 19, 27, 31]) : ¬ PriceFails p i := fun hf => hprices ⟨i, hi, hf⟩
    simp only [recapItems, not_not.mp hlen, if_true, goodSymbolAt_of_good (not_not.mp hsym),
      tradingStateOfCode_of_le hstate, priceAt_of_good ha (good 6 (by simp)), PriceField.required,
      optional_priceAt (good 10 (by simp)), tickOfCode_of_le htick, optional_priceAt (good 15 (by simp)),
      optional_priceAt (good 19 (by simp)), optional_priceAt (good 27 (by simp)), optional_priceAt (good 31 (by simp))]
    rw [if_pos (Nat.le_of_not_lt hvol)]
    rfl
  · simp only [recapItems] at h
    split at h
    · rename_i hlen
      split at h
      · rename_i symbol state prevClose last tick hsym hstate hclose hlast htick
        split at h
        · rename_i high low bid ask hhigh hlow hbid hask
          split at h
          · rename_i hvol
            rintro (hf | hf | hf | hf | hf | hf | ⟨i, hi, hf⟩)
            · exact hf hlen
            · simp [goodSymbolAt_of_bad hf] at hsym
            · simp [tradingStateOfCode_of_gt hf] at hstate
            · simp [priceAt_of_absent hf, PriceField.required] at hclose
            · simp [tickOfCode_of_gt hf] at htick
            · omega
            · simp only [List.mem_cons, List.not_mem_nil, or_false] at hi
              rcases hi with rfl | rfl | rfl | rfl | rfl | rfl
              · simp [priceAt_of_fails hf, PriceField.required] at hclose
              · simp [priceAt_of_fails hf, PriceField.optional] at hlast
              · simp [priceAt_of_fails hf, PriceField.optional] at hhigh
              · simp [priceAt_of_fails hf, PriceField.optional] at hlow
              · simp [priceAt_of_fails hf, PriceField.optional] at hbid
              · simp [priceAt_of_fails hf, PriceField.optional] at hask
          · cases h
        · cases h
      · cases h
    · cases h

theorem reads_clockItems : Reads clockItems ClockFails (fun p => timeOf p 0) := by
  refine reads_of (fun p h => ?_) (fun p x h => ?_)
  · obtain ⟨hlen, htime⟩ := not_or.mp h
    simp only [clockItems, not_not.mp hlen, if_true]
    exact timeAt_of_good htime
  · simp only [clockItems] at h
    split at h
    · rename_i hlen
      rintro (hf | hf)
      · exact hf hlen
      · simp [timeAt_of_fails hf] at h
    · cases h

theorem reads_sessionItems : Reads sessionItems SessionFails sessionCodeOf := by
  refine reads_of (fun p h => ?_) (fun p x h => ?_)
  · obtain ⟨hlen, hcode⟩ := not_or.mp h
    simp only [sessionItems, not_not.mp hlen, if_true, sessionCodeOf]
    generalize at8 p 0 = n at *
    have hn : 1 ≤ n ∧ n ≤ 5 := by omega
    obtain ⟨hlow, hhigh⟩ := hn
    interval_cases n <;> rfl
  · simp only [sessionItems] at h
    split at h
    · rename_i hlen
      have hcode : 1 ≤ at8 p 0 ∧ at8 p 0 ≤ 5 := by
        generalize at8 p 0 = n at *
        match n with
        | 0 => cases h
        | 1 | 2 | 3 | 4 | 5 => omega
        | n + 6 => cases h
      rintro (hf | hf | hf)
      · exact hf hlen
      · omega
      · omega
    · cases h

theorem reads_bulletinItems : Reads bulletinItems BulletinFails bulletinOf := by
  refine reads_of (fun p h => ?_) (fun p x h => ?_)
  · have hset (b : Byte) (hb : b ∈ p.drop 6) : InCharacterSet b := by
      by_contra hf
      exact h (.inr (.inr (.inr (.inr (.inr (.inr (.inr (.inr ⟨b, hb, hf⟩))))))))
    have hall : (p.drop 6).all isCharCode = true :=
      List.all_eq_true.mpr (fun b hb => (isCharCode_iff b).mpr (hset b hb))
    have hnums : 6 ≤ p.length ∧ p.length = 6 + at8 p 5 ∧ at8 p 0 ≤ 7 ∧ 1 ≤ at8 p 1 ∧ at8 p 1 ≤ 3 ∧ at16 p 2 ≤ 3600
        ∧ at8 p 4 ≤ 1 ∧ at8 p 5 ≤ 32 := by
      by_contra hf
      refine h ?_
      clear hall hset h
      omega
    obtain ⟨hshort, hlen, hstack, hact0, hact, hdur, hflag, htext⟩ := hnums
    have hk : at8 p 0 < 8 := by omega
    have hkey : (⟨at8 p 0, hk⟩ : StackId) = Fin.ofNat 8 (at8 p 0) := Fin.ext (Nat.mod_eq_of_lt hk).symm
    have hflag' : (at8 p 4 == 1) = decide (at8 p 4 = 1) := rfl
    simp only [bulletinItems, hk, dif_pos, hall, hkey, hflag', bulletinOf]
    rw [if_pos ⟨hshort, hlen, htext, hact0, hact, hdur, hflag, trivial⟩]
  · simp only [bulletinItems] at h
    split at h
    · split at h
      · rename_i hgood
        obtain ⟨hshort, hlen, htext, hact0, hact, hdur, hflag, hall⟩ := hgood
        rintro (hf | hf | hf | hf | hf | hf | hf | hf | ⟨b, hb, hf⟩)
        · omega
        · omega
        · omega
        · omega
        · omega
        · omega
        · omega
        · omega
        · exact hf ((isCharCode_iff b).mp (List.all_eq_true.mp hall b hb))
      · cases h
    · cases h

end Sys2Proof.Machine

namespace Sys2Proof.Machine

open Sys2Proof.Safety

/-! ## What the items of frames and entries hold (R23, Tables 11-2 and 11-7) -/

/-- The price and the time of a TRADE lie in their ranges. -/
theorem tradeItems_inRange {p : List Byte} {q : TradeItems} (h : tradeItems p = some q) :
    q.price ≤ 2559999 ∧ q.time.hour ≤ 23 ∧ q.time.minute ≤ 59 ∧ q.time.second ≤ 59 := by
  obtain ⟨hf, rfl⟩ := inv_of_reads reads_tradeItems h
  obtain ⟨-, hf⟩ := not_or.mp hf
  obtain ⟨-, hf⟩ := not_or.mp hf
  obtain ⟨ha, hf⟩ := not_or.mp hf
  obtain ⟨hp, hf⟩ := not_or.mp hf
  obtain ⟨-, hf⟩ := not_or.mp hf
  obtain ⟨-, hf⟩ := not_or.mp hf
  obtain ⟨htime, -⟩ := not_or.mp hf
  refine ⟨unitsAt_le ha hp, ?_⟩
  simp only [tradeOf, timeOf]
  omega

/-- The prices of a QUOTE lie in their range. -/
theorem quoteItems_inRange {p : List Byte} {q : QuoteItems} (h : quoteItems p = some q) :
    PriceInRange q.bid ∧ PriceInRange q.ask := by
  obtain ⟨hf, rfl⟩ := inv_of_reads reads_quoteItems h
  obtain ⟨-, hf⟩ := not_or.mp hf
  obtain ⟨-, hf⟩ := not_or.mp hf
  obtain ⟨hbid, hask⟩ := not_or.mp hf
  exact ⟨priceOf_inRange hbid, priceOf_inRange hask⟩

/-- The prices and the volume of a RECAP lie in their ranges. -/
theorem recapItems_inRange {p : List Byte} {q : RecapItems} (h : recapItems p = some q) :
    q.prevClose ≤ 2559999 ∧ PriceInRange q.last ∧ PriceInRange q.high ∧ PriceInRange q.low ∧ PriceInRange q.bid
      ∧ PriceInRange q.ask ∧ q.volume ≤ 999999999 := by
  obtain ⟨hf, rfl⟩ := inv_of_reads reads_recapItems h
  obtain ⟨-, hf⟩ := not_or.mp hf
  obtain ⟨-, hf⟩ := not_or.mp hf
  obtain ⟨-, hf⟩ := not_or.mp hf
  obtain ⟨ha, hf⟩ := not_or.mp hf
  obtain ⟨-, hf⟩ := not_or.mp hf
  obtain ⟨hvol, hprices⟩ := not_or.mp hf
  have good (i : Nat) (hi : i ∈ [6, 10, 15, 19, 27, 31]) : ¬ PriceFails p i := fun hf => hprices ⟨i, hi, hf⟩
  exact ⟨unitsAt_le ha (good 6 (by simp)), priceOf_inRange (good 10 (by simp)), priceOf_inRange (good 15 (by simp)),
    priceOf_inRange (good 19 (by simp)), priceOf_inRange (good 27 (by simp)), priceOf_inRange (good 31 (by simp)),
    Nat.le_of_not_lt hvol⟩

/-- The values for which R7 refuses a SYMBOL entry. -/
abbrev SymbolEntryFails (x : List Byte) : Prop :=
  ¬ GoodSymbol (symbolAt x 0) ∨ 2 < at8 x 5 ∨ (at8 x 6 ≠ 8 ∧ at8 x 6 ≠ 16) ∨ PriceAbsent x 7 ∨ PriceFails x 7

/-- The items of a SYMBOL entry (Table 11-7). -/
def symbolEntryOf (x : List Byte) : SymbolEntry :=
  { symbol := symbolAt x 0,
    tapeClass := if at8 x 5 = 0 then .none else if at8 x 5 = 1 then .a else .b,
    denom := if at8 x 6 = 8 then .eighths else .sixteenths, prevClose := unitsAt x 7 }

theorem denomOfCode_of_good {n : Nat} (h : n = 8 ∨ n = 16) :
    denomOfCode n = some (if n = 8 then .eighths else .sixteenths) := by
  rcases h with rfl | rfl <;> rfl

theorem denomOfCode_of_bad {n : Nat} (h : n ≠ 8 ∧ n ≠ 16) : denomOfCode n = none := by
  unfold denomOfCode
  split
  · exact absurd rfl h.1
  · exact absurd rfl h.2
  · rfl

theorem reads_symbolEntry : Reads symbolEntry SymbolEntryFails symbolEntryOf := by
  refine reads_of (fun p h => ?_) (fun p x h => ?_)
  · obtain ⟨hsym, h⟩ := not_or.mp h
    obtain ⟨hclass, h⟩ := not_or.mp h
    obtain ⟨hdenom, h⟩ := not_or.mp h
    obtain ⟨ha, hp⟩ := not_or.mp h
    have hdenom : at8 p 6 = 8 ∨ at8 p 6 = 16 := by omega
    simp only [symbolEntry, goodSymbolAt_of_good (not_not.mp hsym), tapeClassOfCode_of_le hclass,
      denomOfCode_of_good hdenom, priceAt_of_good ha hp, PriceField.required]
    rfl
  · simp only [symbolEntry] at h
    split at h
    · rename_i symbol tapeClass denom prevClose hsym hclass hdenom hclose
      rintro (hf | hf | hf | hf | hf)
      · simp [goodSymbolAt_of_bad hf] at hsym
      · simp [tapeClassOfCode_of_gt hf] at hclass
      · simp [denomOfCode_of_bad hf] at hdenom
      · simp [priceAt_of_absent hf, PriceField.required] at hclose
      · simp [priceAt_of_fails hf, PriceField.required] at hclose
    · cases h

/-- The previous close of a SYMBOL entry lies in its range. -/
theorem symbolEntry_inRange {x : List Byte} {q : SymbolEntry} (h : symbolEntry x = some q) : q.prevClose ≤ 2559999 := by
  obtain ⟨hf, rfl⟩ := inv_of_reads reads_symbolEntry h
  obtain ⟨-, hf⟩ := not_or.mp hf
  obtain ⟨-, hf⟩ := not_or.mp hf
  obtain ⟨-, hf⟩ := not_or.mp hf
  obtain ⟨ha, hp⟩ := not_or.mp hf
  exact unitsAt_le ha hp

/-! ## Laws of one record (R19 to R21, Table 1-2) -/

/-- R20, of one record. -/
def QuoteRecord.NetChangeFits (r : QuoteRecord) : Prop := r.netChange = netChangeOf r.last r.prevClose

/-- R19, of one record. -/
def QuoteRecord.RangeFits (r : QuoteRecord) : Prop :=
  r.tick ≠ .none → ∃ low last high, r.low = some low ∧ r.last = some last ∧ r.high = some high
    ∧ low ≤ last ∧ last ≤ high

/-- Table 1-2, of one record. -/
structure QuoteRecord.InRange (r : QuoteRecord) : Prop where
  prevClose : r.prevClose ≤ 2559999
  last : PriceInRange r.last
  high : PriceInRange r.high
  low : PriceInRange r.low
  bid : PriceInRange r.bid
  ask : PriceInRange r.ask
  volume : r.volume ≤ 999999999
  lastTime : ∀ t, r.lastTime = some t → t.hour ≤ 23 ∧ t.minute ≤ 59 ∧ t.second ≤ 59
  tapeWhole : ∀ w, r.tapeWhole = some w → w ≤ 9999

theorem priceInRange_none : PriceInRange none := by
  intro x hx
  cases hx

theorem priceInRange_some {p : Nat} (h : p ≤ 2559999) : PriceInRange (some p) := by
  rintro x ⟨rfl⟩
  exact h

theorem priceInRange_raiseTo {high : Option Nat} {p : Nat} (hh : PriceInRange high) (hp : p ≤ 2559999) :
    PriceInRange (raiseTo high p) := by
  refine priceInRange_some ?_
  cases high with
  | none => simpa using hp
  | some h => simpa using ⟨hh h rfl, hp⟩

theorem priceInRange_lowerTo {low : Option Nat} {p : Nat} (hp : p ≤ 2559999) : PriceInRange (lowerTo low p) :=
  priceInRange_some ((min_le_right _ _).trans hp)

/-- A high raised to a price, and a low lowered to it, take it in. -/
theorem le_raiseTo (high : Option Nat) (p : Nat) : ∃ h, raiseTo high p = some h ∧ p ≤ h := ⟨_, rfl, le_max_right _ _⟩

theorem lowerTo_le (low : Option Nat) (p : Nat) : ∃ l, lowerTo low p = some l ∧ l ≤ p := ⟨_, rfl, min_le_right _ _⟩

namespace RecordChange

variable {lost : Bool} {r r' : QuoteRecord}

/-- Every update keeps R20. -/
theorem netChangeFits (h : RecordChange lost r r') (hr : r.NetChangeFits) : r'.NetChangeFits := by
  cases h with
  | traded _ =>
    simp only [tradedRecord]
    split
    · rfl
    · exact hr
  | recapped _ =>
    simp only [recappedRecord, adjustRange]
    split <;> rfl
  | redescribed _ => rfl
  | dayReset => rfl
  | staled => exact hr
  | watched _ => exact hr
  | taped _ _ => exact hr
  | quoted _ => exact hr
  | haltedOrResumed _ => exact hr

/-- Every update keeps R19. -/
theorem rangeFits (h : RecordChange lost r r') (hr : r.RangeFits) : r'.RangeFits := by
  cases h with
  | @traded _ q _ =>
    obtain ⟨h, hh, hle⟩ := le_raiseTo r.high q.price
    obtain ⟨l, hl, hge⟩ := lowerTo_le r.low q.price
    simp only [tradedRecord]
    split
    · exact fun _ => ⟨l, q.price, h, hl, rfl, hh, hge, hle⟩
    · intro htick
      obtain ⟨low, last, high, hlow, hlast, hhigh, h1, h2⟩ := hr htick
      refine ⟨min low q.price, last, max high q.price, ?_, hlast, ?_, by omega, by omega⟩
      · simp [tradeAny, lowerTo, hlow]
      · simp [tradeAny, raiseTo, hhigh]
  | @recapped _ q _ =>
    simp only [recappedRecord, adjustRange]
    cases hq : q.last with
    | none => exact fun htick => absurd rfl htick
    | some p =>
      obtain ⟨h, hh, hle⟩ := le_raiseTo q.high p
      obtain ⟨l, hl, hge⟩ := lowerTo_le q.low p
      exact fun _ => ⟨l, p, h, hl, rfl, hh, hge, hle⟩
  | dayReset => exact fun htick => absurd rfl htick
  | staled => exact hr
  | watched _ => exact hr
  | taped _ _ => exact hr
  | quoted _ => exact hr
  | haltedOrResumed _ => exact hr
  | redescribed _ => exact hr

/-- An update made while the feed is LOST keeps a stale mark (R21). -/
theorem stale (h : RecordChange true r r') (hr : r.stale = true) : r'.stale = true := by
  cases h with
  | traded _ =>
    simp only [tradedRecord]
    split <;> exact hr
  | recapped _ =>
    simp only [recappedRecord, adjustRange]
    split <;> simp [hr]
  | dayReset => simp [dayResetRecord, hr]
  | staled => rfl
  | watched _ => exact hr
  | taped _ _ => exact hr
  | quoted _ => exact hr
  | haltedOrResumed _ => exact hr
  | redescribed _ => exact hr

/-- The values that every trade changes keep their ranges. -/
theorem inRange_tradeAny {p : List Byte} {q : TradeItems} (h : tradeItems p = some q) (hr : r.InRange) :
    (tradeAny q r).InRange := by
  obtain ⟨hprice, htime⟩ := tradeItems_inRange h
  exact { hr with
    high := priceInRange_raiseTo hr.high hprice
    low := priceInRange_lowerTo hprice
    volume := min_le_left _ _
    lastTime := by
      rintro t ⟨rfl⟩
      exact htime }

/-- Every update keeps the ranges of Table 1-2. -/
theorem inRange (h : RecordChange lost r r') (hr : r.InRange) : r'.InRange := by
  cases h with
  | staled => exact { hr with }
  | watched _ => exact { hr with }
  | haltedOrResumed _ => exact { hr with }
  | taped _ _ =>
    exact { hr with
      tapeWhole := by
        rintro w ⟨rfl⟩
        exact min_le_right _ _ }
  | @traded _ q hq =>
    have hany := inRange_tradeAny hq hr
    simp only [tradedRecord]
    split
    · exact { hany with last := priceInRange_some (tradeItems_inRange hq).1 }
    · exact hany
  | quoted hq =>
    obtain ⟨hbid, hask⟩ := quoteItems_inRange hq
    exact { hr with bid := hbid, ask := hask }
  | @recapped _ q hq =>
    obtain ⟨hclose, hlast, hhigh, hlow, hbid, hask, hvol⟩ := recapItems_inRange hq
    clear hq
    obtain ⟨_, _, _, last, _, _, _, _, _, _⟩ := q
    cases last with
    | none =>
      exact { hr with
        prevClose := hclose, last := priceInRange_none, high := hhigh, low := hlow, bid := hbid, ask := hask,
        volume := hvol }
    | some p =>
      exact { hr with
        prevClose := hclose, last := hlast, high := priceInRange_raiseTo hhigh (hlast p rfl),
        low := priceInRange_lowerTo (hlast p rfl), bid := hbid, ask := hask, volume := hvol }
  | redescribed hq => exact { hr with prevClose := symbolEntry_inRange hq }
  | dayReset =>
    exact {
      prevClose := by
        show r.last.getD r.prevClose ≤ 2559999
        cases hl : r.last with
        | none => exact hr.prevClose
        | some p => exact hr.last p hl
      last := priceInRange_none, high := priceInRange_none, low := priceInRange_none, bid := priceInRange_none,
      ask := priceInRange_none, volume := Nat.zero_le _, lastTime := by rintro t ⟨⟩, tapeWhole := by rintro w ⟨⟩ }

end RecordChange

/-- A record as a definition gives it meets the laws. -/
theorem netChangeFits_definedRecord (lost : Bool) (q : SymbolEntry) : (definedRecord lost q).NetChangeFits := rfl

theorem rangeFits_definedRecord (lost : Bool) (q : SymbolEntry) : (definedRecord lost q).RangeFits :=
  fun htick => absurd rfl htick

theorem inRange_definedRecord {x : List Byte} {q : SymbolEntry} (h : symbolEntry x = some q) (lost : Bool) :
    (definedRecord lost q).InRange where
  prevClose := symbolEntry_inRange h
  last := priceInRange_none
  high := priceInRange_none
  low := priceInRange_none
  bid := priceInRange_none
  ask := priceInRange_none
  volume := Nat.zero_le _
  lastTime := by rintro t ⟨⟩
  tapeWhole := by rintro w ⟨⟩

/-! ## Laws of every record -/

/-- A law of every DEFINED record of a view. -/
def RecordView.All (P : QuoteRecord → Prop) (v : RecordView) : Prop := ∀ n r, tableGet v.records n = some r → P r

/-- A law of every DEFINED record, after a record is written that meets it. -/
theorem all_tableSet {P : QuoteRecord → Prop} {t : Table QuoteRecord} {n : Nat} {r : QuoteRecord} (hr : P r)
    (h : ∀ m r, tableGet t m = some r → P r) (m : Nat) (r' : QuoteRecord) (hget : tableGet (tableSet t n r) m = some r') :
    P r' := by
  rw [tableGet_tableSet] at hget
  split at hget
  · rw [← Option.some.inj hget]
    exact hr
  · exact h m r' hget

/-- A law that every update keeps and every definition gives is kept of every record. -/
theorem RecordMove.all {P : QuoteRecord → Prop} (hchange : ∀ lost r r', RecordChange lost r r' → P r → P r')
    (hdefine : ∀ x q lost, symbolEntry x = some q → P (definedRecord lost q)) {v w : RecordView} (hmove : RecordMove v w)
    (h : v.All P) : w.All P := by
  cases hmove with
  | heard => exact h
  | changed hget hr => exact all_tableSet (hchange _ _ _ hr (h _ _ hget)) h
  | staled hdir hread =>
    intro m r hr
    rw [hread, Option.map_eq_some_iff] at hr
    obtain ⟨r₀, hr₀, rfl⟩ := hr
    exact hchange v.lost _ _ .staled (h m r₀ hr₀)
  | defined hq hempty hfree => exact all_tableSet (hdefine _ _ _ hq) h
  | @deleted n r hget =>
    intro m r' hr'
    simp only [tableGet_tableErase] at hr'
    split at hr'
    · cases hr'
    · exact h m r' hr'
  | renamed hq hget hne hfree => exact all_tableSet (hdefine _ _ _ hq) h
  | emptied =>
    rintro m r ⟨⟩

/-- R21, of a view. -/
def RecordView.LostStale (v : RecordView) : Prop := v.lost = true → v.All (fun r => r.stale = true)

/-- While the feed is LOST, every operation keeps every record stale; and what makes it LOST marks them (R21). -/
theorem RecordMove.lostStale {v w : RecordView} (hmove : RecordMove v w) (h : v.LostStale) : w.LostStale := by
  intro hlost
  cases hmove with
  | heard => cases hlost
  | changed hget hr =>
    have hall := h hlost
    rw [show v.lost = true from hlost] at hr
    exact all_tableSet (P := fun r => r.stale = true) (hr.stale (hall _ _ hget)) hall
  | staled hdir hread =>
    intro m r hr
    rw [hread, Option.map_eq_some_iff] at hr
    obtain ⟨r₀, -, rfl⟩ := hr
    rfl
  | defined hq hempty hfree => exact all_tableSet (P := fun r => r.stale = true) hlost (h hlost)
  | @deleted n r hget =>
    intro m r' hr'
    simp only [tableGet_tableErase] at hr'
    split at hr'
    · cases hr'
    · exact h hlost m r' hr'
  | renamed hq hget hne hfree => exact all_tableSet (P := fun r => r.stale = true) hlost (h hlost)
  | emptied => cases hlost

/-! ### The laws of the statements, as laws of the view -/

theorem netChangeExact_iff (s : State) : NetChangeExact s ↔ s.recordView.All QuoteRecord.NetChangeFits :=
  forall₂_congr fun _ r => by
    simp only [QuoteRecord.NetChangeFits, netChangeOf]
    rfl

theorem rangeHoldsLast_iff (s : State) : RangeHoldsLast s ↔ s.recordView.All QuoteRecord.RangeFits := Iff.rfl

theorem lostIsStale_iff (s : State) : LostIsStale s ↔ s.recordView.LostStale := by
  simp only [LostIsStale, RecordView.LostStale, RecordView.lost, beq_iff_eq]
  rfl

theorem recordsInRange_iff (s : State) : RecordsInRange s ↔ s.recordView.All QuoteRecord.InRange :=
  forall₂_congr fun _ _ => imp_congr_right fun _ =>
    ⟨fun ⟨h1, h2, h3, h4, h5, h6, h7, h8, h9⟩ => ⟨h1, h2, h3, h4, h5, h6, h7, h8, h9⟩,
      fun ⟨h1, h2, h3, h4, h5, h6, h7, h8, h9⟩ => ⟨h1, h2, h3, h4, h5, h6, h7, h8, h9⟩⟩

/-- Settles O52: a step is operations on the records and the feed state, each of which keeps each law. -/
theorem recordsStaySound : Obligations.RecordsStaySound := by
  unfold Obligations.RecordsStaySound
  intro s t ht
  have hmoves := step_moves ht
  rw [netChangeExact_iff, netChangeExact_iff, rangeHoldsLast_iff, rangeHoldsLast_iff, lostIsStale_iff, lostIsStale_iff,
    recordsInRange_iff, recordsInRange_iff]
  refine ⟨hmoves.keeps fun _ _ hmove => hmove.all ?_ ?_, hmoves.keeps fun _ _ hmove => hmove.all ?_ ?_,
    hmoves.keeps fun _ _ hmove => hmove.lostStale, hmoves.keeps fun _ _ hmove => hmove.all ?_ ?_⟩
  · exact fun _ _ _ => RecordChange.netChangeFits
  · exact fun _ q lost _ => netChangeFits_definedRecord lost q
  · exact fun _ _ _ => RecordChange.rangeFits
  · exact fun _ q lost _ => rangeFits_definedRecord lost q
  · exact fun _ _ _ => RecordChange.inRange
  · exact fun _ _ lost hq => inRange_definedRecord hq lost

end Sys2Proof.Machine

namespace Sys2Proof.Machine

open Sys2Proof.Safety

/-! ## A frame at the head of the intake queue (R47 to R50) -/

@[simp] theorem afterGap_intake (e : IntakeEntry) (s : State) : (afterGap e s).intake = s.intake := by
  simp only [afterGap]
  split
  · rw [markAllStale_frame]
  · rfl

@[simp] theorem afterGap_load (e : IntakeEntry) (s : State) : (afterGap e s).load = s.load := by
  simp only [afterGap]
  split
  · rw [markAllStale_frame]
  · rfl

@[simp] theorem afterGap_phase (e : IntakeEntry) (s : State) : (afterGap e s).phase = s.phase := by
  simp only [afterGap]
  split
  · rw [markAllStale_frame]
  · rfl

/-- A step that applies a frame by a meaning that leaves the queue alone: the frame applied after the gap-before
marking, and its entry gone. -/
theorem whenRunning_takeHead {s : State} {e : IntakeEntry} {rest : List IntakeEntry} {step : FrameStep}
    {apply : List Byte → State → State} (h : HeadIs s e rest step)
    (hintake : (apply e.body (afterGap e s)).intake = (afterGap e s).intake) :
    whenRunning (takeHead step apply) s = .next ((apply e.body (afterGap e s)).setIntake rest) := by
  obtain ⟨hphase, hi, hstep⟩ := h
  have hhead : takeHead step apply s
      = (apply e.body (afterGap e s)).setIntake ((apply e.body (afterGap e s)).intake.drop 1) := by
    simp only [takeHead, hi, hstep, if_true]
    rfl
  simp only [whenRunning, hphase, if_true, hhead, hintake, afterGap_intake, hi, List.drop_one, List.tail_cons]

/-- A market data frame whose payload reads. -/
theorem applyItems_of_some {α : Type} {items : List Byte → Option α} {apply : α → State → State} {body : List Byte}
    {x : α} (h : items (payload body) = some x) (s : State) : applyItems items apply body s = apply x s := by
  simp only [applyItems, h]

/-- A market data frame whose payload is malformed (R49). -/
theorem applyItems_of_none {α : Type} {items : List Byte → Option α} {apply : α → State → State} {body : List Byte}
    (h : items (payload body) = none) (s : State) : applyItems items apply body s = s := by
  simp only [applyItems, h]

/-! ## A record updated (R6, R12, R96, R98, R157) -/

/-- What the update of record n and its change set bring about, told of the state u before it and a state t after it:
the record, the rows, the boards, and what stays. -/
structure RecordUpdated (n : Nat) (r : QuoteRecord) (names : NameSet) (u t : State) : Prop where
  record : tableGet t.records n = some r
  line : t.line = lineWithNames n names u.line
  boards : NamesReachBoards n names { u with records := t.records } t
  others : KeepsOtherRecords n u t
  keeps : KeepsFeedAndTime u t
  refresh : BoardsOnlyRefresh u t
  directory : t.directory = u.directory
  bulletins : t.bulletins = u.bulletins

/-- A change set handed on, at the boards. -/
theorem namesReachBoards_handNames (n : Nat) (names : NameSet) (v : State) :
    NamesReachBoards n names v (handNames n names v) := by
  refine ⟨fun h => ?_, fun h => ?_⟩
  · simp [handNames, h]
  · rw [handNames_eq n h]
    exact boardsMarked_markedBoards _ v

theorem updateRecord_records (n : Nat) (r : QuoteRecord) (names : NameSet) (s : State) :
    (updateRecord n r names s).records = tableSet s.records n r := by
  rw [updateRecord_frame]

/-- A record update is such an update. -/
theorem recordUpdated_updateRecord (n : Nat) (r : QuoteRecord) (names : NameSet) (u : State) :
    RecordUpdated n r names u (updateRecord n r names u) where
  record := by rw [updateRecord_records, tableGet_tableSet_self]
  line := by rw [updateRecord_frame]
  boards := by
    rw [updateRecord_records]
    exact namesReachBoards_handNames n names _
  others := fun m hm => by rw [updateRecord_records, tableGet_tableSet_of_ne _ _ hm]
  keeps := by
    rw [updateRecord_frame]
    exact ⟨rfl, rfl, rfl, rfl, rfl, rfl⟩
  refresh := updateRecord_boards n r names u
  directory := by rw [updateRecord_frame]
  bulletins := by rw [updateRecord_frame]

/-- The intake queue, the ticker and the responder are no part of it. -/
theorem RecordUpdated.with_queue {n : Nat} {r : QuoteRecord} {names : NameSet} {u t : State}
    (h : RecordUpdated n r names u t) (intake : List IntakeEntry) (ticker : Ticker) (mgmt : Management) :
    RecordUpdated n r names u { t with intake := intake, ticker := ticker, mgmt := mgmt } :=
  ⟨h.record, h.line, h.boards, h.others, h.keeps, h.refresh, h.directory, h.bulletins⟩

@[simp] theorem updateRecord_intake (n : Nat) (r : QuoteRecord) (names : NameSet) (s : State) :
    (updateRecord n r names s).intake = s.intake := by
  rw [updateRecord_frame]

@[simp] theorem updateRecord_ticker (n : Nat) (r : QuoteRecord) (names : NameSet) (s : State) :
    (updateRecord n r names s).ticker = s.ticker := by
  rw [updateRecord_frame]

@[simp] theorem updateRecord_mgmt (n : Nat) (r : QuoteRecord) (names : NameSet) (s : State) :
    (updateRecord n r names s).mgmt = s.mgmt := by
  rw [updateRecord_frame]

@[simp] theorem offerPrint_intake (p : Print) (s : State) : (offerPrint p s).intake = s.intake := by
  rw [offerPrint_frame]

@[simp] theorem offerText_intake (atHead : Bool) (text : List Byte) (s : State) :
    (offerText atHead text s).intake = s.intake := by
  rw [offerText_frame]

/-! ## Offers hang on the ticker and the responder alone -/

/-- Two states with the same ticker and the same responder. -/
structure SameOffers (s t : State) : Prop where
  ticker : t.ticker = s.ticker
  mgmt : t.mgmt = s.mgmt

namespace SameOffers

variable {s t : State}

theorem onTicker (h : SameOffers s t) (f : Ticker → Ticker) : SameOffers (onTicker f s) (onTicker f t) :=
  ⟨congrArg f h.ticker, h.mgmt⟩

theorem raiseAlert (h : SameOffers s t) (a : Alert) : SameOffers (raiseAlert a s) (raiseAlert a t) :=
  ⟨h.ticker, congrArg (alertSet a) h.mgmt⟩

theorem setQueue (h : SameOffers s t) (q : List TickerEntry) : SameOffers (setQueue q s) (setQueue q t) := h.onTicker _

theorem countOmitted (h : SameOffers s t) (n : Nat) : SameOffers (countOmitted n s) (countOmitted n t) := by
  simp only [Machine.countOmitted]
  split
  · exact h.onTicker _
  · exact (h.onTicker _).raiseAlert _

theorem admitToFull (h : SameOffers s t) (p : Print) : SameOffers (admitToFull p s) (admitToFull p t) := by
  simp only [Machine.admitToFull, h.ticker]
  split
  · exact h.onTicker _
  · split
    · exact h.countOmitted 1
    · split
      · exact (h.setQueue _).countOmitted 1
      · exact h.countOmitted 1

/-- A print is taken alike. -/
theorem offerPrint (h : SameOffers s t) (p : Print) : SameOffers (offerPrint p s) (offerPrint p t) := by
  simp only [Machine.offerPrint, h.ticker]
  split
  · exact h
  · split
    · exact (h.onTicker _).setQueue _
    · exact (h.onTicker _).admitToFull p

/-- A text is taken alike. -/
theorem offerText (h : SameOffers s t) (atHead : Bool) (text : List Byte) :
    SameOffers (offerText atHead text s) (offerText atHead text t) := by
  simp only [Machine.offerText, h.ticker]
  split
  · exact h
  · split
    · exact h.setQueue _
    · split
      · exact (h.setQueue _).countOmitted 1
      · exact h

end SameOffers

/-- An offer, or none: it reaches the ticker and the responder alone, and hangs on them alone. -/
structure Offers (offered : State → State) : Prop where
  frame : ∀ v, offered v = { v with ticker := (offered v).ticker, mgmt := (offered v).mgmt }
  same : ∀ v w, SameOffers v w → SameOffers (offered v) (offered w)

theorem offers_none : Offers (fun v => v) := ⟨fun _ => rfl, fun _ _ h => h⟩

theorem offers_offerPrint (p : Print) : Offers (offerPrint p) := ⟨offerPrint_frame p, fun _ _ h => h.offerPrint p⟩

theorem offers_offerText (atHead : Bool) (text : List Byte) : Offers (offerText atHead text) :=
  ⟨offerText_frame atHead text, fun _ _ h => h.offerText atHead text⟩

theorem Offers.ite {f g : State → State} (hf : Offers f) (hg : Offers g) (p : Prop) [Decidable p] :
    Offers (fun v => if p then f v else g v) := by
  by_cases h : p
  · simpa only [h, if_true] using hf
  · simpa only [h, if_false] using hg

/-- A frame whose meaning is an update of record n and an offer: what the step answers. -/
theorem exists_updated {α : Type} {s : State} {e : IntakeEntry} {rest : List IntakeEntry} {step : FrameStep}
    {items : List Byte → Option α} {apply : α → State → State} {q : α} {n : Nat} {r : QuoteRecord} {names : NameSet}
    {offered : State → State} (hhead : HeadIs s e rest step) (hq : items (payload e.body) = some q)
    (happly : apply q (afterGap e s) = offered (updateRecord n r names (afterGap e s))) (hoffer : Offers offered) :
    ∃ t, whenRunning (takeHead step (applyItems items apply)) s = .next t
      ∧ RecordUpdated n r names (afterGap e s) t ∧ t.intake = rest
      ∧ t.ticker = (offered (afterGap e s)).ticker ∧ t.mgmt = (offered (afterGap e s)).mgmt := by
  let u := afterGap e s
  let updated := updateRecord n r names u
  have happly : applyItems items apply e.body u = offered updated := (applyItems_of_some hq u).trans happly
  have hintake : (offered updated).intake = u.intake := by
    rw [hoffer.frame]
    exact updateRecord_intake n r names u
  have hsame : SameOffers (offered u) (offered updated) :=
    hoffer.same u updated ⟨updateRecord_ticker n r names u, updateRecord_mgmt n r names u⟩
  have ht : (offered updated).setIntake rest
      = { updated with intake := rest, ticker := (offered updated).ticker, mgmt := (offered updated).mgmt } := by
    rw [hoffer.frame]
    rfl
  refine ⟨(offered updated).setIntake rest, ?_, ?_, rfl, hsame.ticker, hsame.mgmt⟩
  · refine (whenRunning_takeHead hhead ?_).trans (by rw [happly])
    rw [happly, hintake]
  · rw [ht]
    exact (recordUpdated_updateRecord n r names u).with_queue rest (offered updated).ticker (offered updated).mgmt

/-- A frame whose meaning is an update of record n and no offer. -/
theorem exists_updated_silent {α : Type} {s : State} {e : IntakeEntry} {rest : List IntakeEntry} {step : FrameStep}
    {items : List Byte → Option α} {apply : α → State → State} {q : α} {n : Nat} {r : QuoteRecord} {names : NameSet}
    (hhead : HeadIs s e rest step) (hq : items (payload e.body) = some q)
    (happly : apply q (afterGap e s) = updateRecord n r names (afterGap e s)) :
    ∃ t, whenRunning (takeHead step (applyItems items apply)) s = .next t
      ∧ RecordUpdated n r names (afterGap e s) t ∧ t.intake = rest
      ∧ t.ticker = (afterGap e s).ticker ∧ t.mgmt = (afterGap e s).mgmt :=
  exists_updated (offered := fun v => v) hhead hq happly offers_none

end Sys2Proof.Machine

namespace Sys2Proof.Machine

open Sys2Proof.Safety

/-! ## Change sets, as the manual lists them (R12, R14, R16, R18) -/

/-- The two spellings of a value that differs. -/
theorem bne_eq_decide_ne {α : Type} [BEq α] [LawfulBEq α] [DecidableEq α] (a b : α) : (a != b) = decide (a ≠ b) := by
  by_cases h : a = b <;> simp [h]

/-- The change set of a TRADE (R14). -/
theorem tradeNames_eq (condition : Condition) (r r' : QuoteRecord) : tradeNames condition r r'
    = (nameIf (r.volume ≠ r'.volume) nameVolume ||| nameIf (r.high ≠ r'.high) nameHigh
      ||| nameIf (r.low ≠ r'.low) nameLow ||| nameIf (r.state ≠ r'.state) nameState
      ||| (if condition = .outOfSequence then 0
        else nameLast ||| nameTick ||| nameIf (r.netChange ≠ r'.netChange) nameChange)) := by
  simp only [tradeNames, differingNames, bne_eq_decide_ne]
  generalize decide (r.state ≠ r'.state) = b1
  generalize decide (r.last ≠ r'.last) = b2
  generalize decide (r.netChange ≠ r'.netChange) = b3
  generalize decide (r.tick ≠ r'.tick) = b4
  generalize decide (r.high ≠ r'.high) = b5
  generalize decide (r.low ≠ r'.low) = b6
  generalize decide (r.volume ≠ r'.volume) = b7
  generalize decide (r.bid ≠ r'.bid) = b8
  generalize decide (r.ask ≠ r'.ask) = b9
  revert b1 b2 b3 b4 b5 b6 b7 b8 b9
  cases condition <;> decide

/-- The change set of a QUOTE (R16). -/
theorem quoteNames_eq (q : QuoteItems) (r : QuoteRecord) : quoteNames r { r with bid := q.bid, ask := q.ask }
    = nameIf (r.bid ≠ q.bid) nameBid ||| nameIf (r.ask ≠ q.ask) nameAsk := by
  simp only [quoteNames, differingNames, bne_self_eq_false, bne_eq_decide_ne r.bid, bne_eq_decide_ne r.ask]
  generalize decide (r.bid ≠ q.bid) = b1
  generalize decide (r.ask ≠ q.ask) = b2
  revert b1 b2
  decide

/-- The change set of a RECAP, which clears a stale mark and sets none (R18). -/
theorem recapNames_eq {r r' : QuoteRecord} (hstale : r'.stale = true → r.stale = true) : recapNames r r'
    = (nameIf (r.state ≠ r'.state) nameState
      ||| nameIf (r.last ≠ r'.last ∨ (r.prevClose ≠ r'.prevClose ∧ r'.state = .notOpen)) nameLast
      ||| nameIf (r.netChange ≠ r'.netChange) nameChange ||| nameIf (r.tick ≠ r'.tick) nameTick
      ||| nameIf (r.high ≠ r'.high) nameHigh ||| nameIf (r.low ≠ r'.low) nameLow
      ||| nameIf (r.volume ≠ r'.volume) nameVolume ||| nameIf (r.bid ≠ r'.bid) nameBid
      ||| nameIf (r.ask ≠ r'.ask) nameAsk ||| nameIf (r.stale ≠ r'.stale) nameStale) := by
  have hs : (r.stale && !r'.stale) = decide (r.stale ≠ r'.stale) := by
    cases h : r.stale <;> cases h' : r'.stale <;> simp_all
  have hn : (r'.state == .notOpen) = decide (r'.state = .notOpen) := by
    rw [Bool.eq_iff_iff]
    simp
  simp only [recapNames, differingNames, bne_eq_decide_ne, hs, hn, Bool.decide_or, Bool.decide_and]
  generalize decide (r.state ≠ r'.state) = b1
  generalize decide (r.last ≠ r'.last) = b2
  generalize decide (r.netChange ≠ r'.netChange) = b3
  generalize decide (r.tick ≠ r'.tick) = b4
  generalize decide (r.high ≠ r'.high) = b5
  generalize decide (r.low ≠ r'.low) = b6
  generalize decide (r.volume ≠ r'.volume) = b7
  generalize decide (r.bid ≠ r'.bid) = b8
  generalize decide (r.ask ≠ r'.ask) = b9
  generalize decide (r.stale ≠ r'.stale) = b10
  generalize (decide (r.prevClose ≠ r'.prevClose) && decide (r'.state = .notOpen)) = b11
  revert b1 b2 b3 b4 b5 b6 b7 b8 b9 b10 b11
  decide

/-- The change set of a static update (R11). -/
theorem staticNames_eq (q : SymbolEntry) (r : QuoteRecord) : staticNames r (staticRecord q r)
    = (nameIf (r.denom ≠ q.denom ∨ (r.prevClose ≠ q.prevClose ∧ r.state = .notOpen)) nameLast
      ||| nameIf (r.denom ≠ q.denom ∨ r.netChange ≠ netChangeOf r.last q.prevClose) nameChange
      ||| nameIf (r.denom ≠ q.denom) (nameHigh ||| nameLow ||| nameBid ||| nameAsk)) := by
  have hn : (r.state == .notOpen) = decide (r.state = .notOpen) := by
    rw [Bool.eq_iff_iff]
    simp
  simp only [staticNames, differingNames, staticRecord, bne_self_eq_false, bne_eq_decide_ne r.denom,
    bne_eq_decide_ne r.netChange, bne_eq_decide_ne r.prevClose, hn, Bool.decide_or, Bool.decide_and]
  generalize decide (r.denom ≠ q.denom) = b1
  generalize decide (r.netChange ≠ netChangeOf r.last q.prevClose) = b2
  generalize (decide (r.prevClose ≠ q.prevClose) && decide (r.state = .notOpen)) = b3
  revert b1 b2 b3
  decide

/-! ## Records after a frame, as the manual tells them -/

/-- The tick rule (Table 1-5). -/
theorem tickRule_eq (r : QuoteRecord) (price : Nat) :
    tickRule price (r.last.getD r.prevClose) (priorTick r) = tickOf r price := by
  have hprior : (if r.tick = .none then r.carryTick else r.tick) = priorTick r := rfl
  simp only [tickRule, tickOf, hprior]
  generalize priorTick r = prior
  cases r.last <;> cases prior <;> simp

/-- A price with what it raises, and with what it lowers. -/
theorem raiseTo_eq (high : Option Nat) (p : Nat) : raiseTo high p = some (match high with
    | some h => max h p
    | none => p) := by
  cases high <;> simp [raiseTo]

theorem lowerTo_eq (low : Option Nat) (p : Nat) : lowerTo low p = some (match low with
    | some l => min l p
    | none => p) := by
  cases low <;> simp [lowerTo]

/-! ## TRADE (R13 to R15) -/

/-- The changes of every trade (R13). -/
theorem tradeAny_eq (q : TradeItems) (r : QuoteRecord) : tradeAny q r = { r with
    volume := min 999999999 (r.volume + q.volume),
    high := some (match r.high with
      | some h => max h q.price
      | none => q.price),
    low := some (match r.low with
      | some l => min l q.price
      | none => q.price),
    lastTime := some q.time,
    state := if r.state = .notOpen then .trading else r.state } := by
  simp only [tradeAny, raiseTo_eq, lowerTo_eq, volumeLimit]

/-- A record after a TRADE (R13, R15, R20). -/
theorem tradedRecord_eq (q : TradeItems) (r : QuoteRecord) : tradedRecord q r
    = if q.condition = .outOfSequence then tradeAny q r
      else { tradeAny q r with tick := tickOf r q.price, last := some q.price,
                               netChange := (q.price : Int) - (r.prevClose : Int) } := by
  have htick : tickRule q.price ((tradeAny q r).last.getD (tradeAny q r).prevClose) (priorTick (tradeAny q r))
      = tickOf r q.price := tickRule_eq r q.price
  cases hc : q.condition
  all_goals simp only [tradedRecord, hc, setsLast, tradeLast, htick]
  all_goals rfl

/-- The offer of a TRADE of a record, where its volume calls for one (R14). -/
def tradeOffered (n : Nat) (q : TradeItems) (r : QuoteRecord) (v : State) : State :=
  if 100 ≤ q.volume then offerPrint (tradeOffer n q r) v else v

theorem offers_tradeOffered (n : Nat) (q : TradeItems) (r : QuoteRecord) : Offers (tradeOffered n q r) :=
  (offers_offerPrint (tradeOffer n q r)).ite offers_none (100 ≤ q.volume)

/-- A TRADE of a symbol that the directory holds (R13, R14). -/
theorem applyTrade_of_found {q : TradeItems} {u : State} {n : Nat} {r : QuoteRecord}
    (hn : lookup u.directory q.symbol = some n) (hr : tableGet u.records n = some r) :
    applyTrade q u = tradeOffered n q r
      (updateRecord n (tradedRecord q r) (tradeNames q.condition r (tradedRecord q r)) u) := by
  simp only [applyTrade, hn, hr, tradeOffered]

/-- Settles O10: a TRADE is an update of its record, and an offer that reaches the ticker and the responder alone. -/
theorem tradeIsApplied : Obligations.TradeIsApplied := by
  unfold Obligations.TradeIsApplied
  intro s e rest q n r u hhead hq hn hr
  obtain ⟨t, ht, hup, hintake, hticker, hmgmt⟩ :=
    exists_updated hhead hq (applyTrade_of_found hn hr) (offers_tradeOffered n q r)
  refine ⟨t, tradedRecord q r, _, ht, hup.record, ?_, tradeNames_eq _ _ _, hup.line, hup.boards, ⟨hticker, hmgmt⟩,
    hup.others, hup.keeps, hup.refresh, hintake, hup.directory, hup.bulletins⟩
  have hrecord := tradedRecord_eq q r
  rw [tradeAny_eq] at hrecord
  exact hrecord

/-! ## QUOTE, SYMBOL STATE and RECAP (R16 to R19) -/

/-- A QUOTE of a symbol that the directory holds (R16). -/
theorem applyQuote_of_found {q : QuoteItems} {u : State} {n : Nat} {r : QuoteRecord}
    (hn : lookup u.directory q.symbol = some n) (hr : tableGet u.records n = some r) :
    applyQuote q u = updateRecord n { r with bid := q.bid, ask := q.ask }
      (nameIf (r.bid ≠ q.bid) nameBid ||| nameIf (r.ask ≠ q.ask) nameAsk) u := by
  simp only [applyQuote, hn, hr, quoteNames_eq]

/-- The trading state that a HALT or a RESUME gives (R17). -/
theorem stateAfter_eq (halt : Bool) (r : QuoteRecord) :
    stateAfter halt r = if halt then .halted else if r.last = none then .notOpen else .trading := by
  cases hl : r.last <;> simp [stateAfter, hl]

/-- The announcement of a HALT or a RESUME, for a symbol of tape class A or B (R17). -/
def stateOffered (q : SymbolStateItems) (r : QuoteRecord) (v : State) : State :=
  if r.tapeClass = .none then v else offerText false (haltText q.halt r.symbol) v

theorem offers_stateOffered (q : SymbolStateItems) (r : QuoteRecord) : Offers (stateOffered q r) :=
  offers_none.ite (offers_offerText false (haltText q.halt r.symbol)) (r.tapeClass = .none)

/-- A SYMBOL STATE of a symbol that the directory holds (R17). -/
theorem applySymbolState_of_found {q : SymbolStateItems} {u : State} {n : Nat} {r : QuoteRecord}
    (hn : lookup u.directory q.symbol = some n) (hr : tableGet u.records n = some r) :
    applySymbolState q u = if stateAfter q.halt r = r.state then u
      else stateOffered q r (updateRecord n { r with state := stateAfter q.halt r } nameState u) := by
  simp only [applySymbolState, hn, hr, stateOffered]

/-- A RECAP of a symbol that the directory holds (R18). -/
theorem applyRecap_of_found {q : RecapItems} {u : State} {n : Nat} {r : QuoteRecord}
    (hn : lookup u.directory q.symbol = some n) (hr : tableGet u.records n = some r) :
    applyRecap q u = updateRecord n (recappedRecord (feedLost u) q r) (recapNames r (recappedRecord (feedLost u) q r)) u := by
  simp only [applyRecap, hn, hr]

/-- Settles O12: a QUOTE, and a SYMBOL STATE that changes the state, are each an update of the record. -/
theorem quoteAndSymbolStateAreApplied : Obligations.QuoteAndSymbolStateAreApplied := by
  unfold Obligations.QuoteAndSymbolStateAreApplied
  constructor
  · intro s e rest q n r u names hhead hq hn hr
    obtain ⟨t, ht, hup, hintake, hticker, hmgmt⟩ := exists_updated_silent hhead hq (applyQuote_of_found hn hr)
    exact ⟨t, ht, hup.record, hup.line, hup.boards, hup.others, hup.keeps, hup.refresh, hintake, hup.directory,
      hup.bulletins, hticker, hmgmt⟩
  · intro s e rest q n r u new hhead hq hn hr
    have hnew : stateAfter q.halt r = new := stateAfter_eq q.halt r
    have happly := applySymbolState_of_found hn hr
    rw [hnew] at happly
    refine ⟨fun hsame => ?_, fun hdiff => ?_⟩
    · rw [if_pos hsame] at happly
      have hitems := (applyItems_of_some hq u).trans happly
      refine (whenRunning_takeHead hhead (by rw [hitems])).trans ?_
      rw [hitems]
      rfl
    · rw [if_neg hdiff] at happly
      obtain ⟨t, ht, hup, hintake, hticker, hmgmt⟩ := exists_updated hhead hq happly (offers_stateOffered q r)
      exact ⟨t, ht, hup.record, hup.line, hup.boards, ⟨hticker, hmgmt⟩, hup.others, hup.keeps, hup.refresh, hintake,
        hup.directory, hup.bulletins⟩

/-- A record after a RECAP clears a stale mark at most (R18). -/
theorem stale_recappedRecord (lost : Bool) (q : RecapItems) (r : QuoteRecord) :
    (recappedRecord lost q r).stale = (r.stale && lost) := by
  simp only [recappedRecord, adjustRange]
  split <;> rfl

/-- A record after a RECAP (R18, R19, R20). -/
theorem recappedRecord_eq (u : State) (q : RecapItems) (r : QuoteRecord) : recappedRecord (feedLost u) q r
    = { r with
        state := q.state, prevClose := q.prevClose, last := q.last,
        tick := if q.last = none then .none else q.tick,
        high := (match q.last, q.high with
          | none, h => h
          | some p, none => some p
          | some p, some h => some (max h p)),
        low := (match q.last, q.low with
          | none, l => l
          | some p, none => some p
          | some p, some l => some (min l p)),
        volume := q.volume, bid := q.bid, ask := q.ask,
        netChange := (match q.last with
          | none => 0
          | some p => (p : Int) - (q.prevClose : Int)),
        stale := if u.feed.feedState = .lost then r.stale else false } := by
  have hstale : (r.stale && feedLost u) = if u.feed.feedState = .lost then r.stale else false := by
    by_cases h : u.feed.feedState = .lost <;> simp [feedLost, h]
  obtain ⟨_, _, _, last, _, high, low, _, _, _⟩ := q
  rw [← hstale]
  cases last with
  | none => rfl
  | some p => cases high <;> cases low <;> simp [recappedRecord, adjustRange, raiseTo, lowerTo, netChangeOf]

/-- Settles O13: a RECAP is an update of its record. -/
theorem recapIsApplied : Obligations.RecapIsApplied := by
  unfold Obligations.RecapIsApplied
  intro s e rest q n r u hhead hq hn hr
  obtain ⟨t, ht, hup, hintake, hticker, hmgmt⟩ := exists_updated_silent hhead hq (applyRecap_of_found hn hr)
  have hstale : (recappedRecord (feedLost u) q r).stale = true → r.stale = true := by
    rw [stale_recappedRecord, Bool.and_eq_true]
    exact And.left
  have hrecord := recappedRecord_eq u q r
  generalize recappedRecord (feedLost u) q r = r' at *
  exact ⟨t, r', recapNames r r', ht, hup.record, hrecord, recapNames_eq hstale, hup.line, hup.boards, hup.others,
    hup.keeps, hup.refresh, hintake, hup.directory, hup.bulletins, hticker, hmgmt⟩

end Sys2Proof.Machine

namespace Sys2Proof.Machine

open Sys2Proof.Safety

/-! ## The step that a frame calls for (R45, R50, Tables 3-5, 11-4 and 11-5) -/

/-- A market data frame but for BULLETIN, and a REPORT, by their TYPE. -/
theorem frameStep_of_type {body : List Byte} {e : Nat × FrameStep}
    (he : e ∈ [(0x21, FrameStep.trade), (0x22, .quote), (0x23, .symbolState), (0x24, .recap), (0x25, .clock),
      (0x26, .session), (0x43, .report)]) (h : at8 body 2 = e.1) : frameStep body = e.2 := by
  have htype : frameType body = e.1 := h
  simp only [List.mem_cons, List.not_mem_nil, or_false] at he
  rcases he with rfl | rfl | rfl | rfl | rfl | rfl | rfl
  all_goals simp only [frameStep, htype]

theorem frameStep_bulletin {body : List Byte} (h : at8 body 2 = 0x27) :
    frameStep body = bulletinStep (payload body) := by
  simp only [frameStep, frameType, h]

theorem frameStep_load {body : List Byte} (h : at8 body 2 = 0x41) : frameStep body = loadStep (payload body) := by
  simp only [frameStep, frameType, h]

theorem frameStep_read {body : List Byte} (h : at8 body 2 = 0x42) : frameStep body = readStep (payload body) := by
  simp only [frameStep, frameType, h]

theorem frameStep_control {body : List Byte} (h : at8 body 2 = 0x44) :
    frameStep body = controlStep (payload body) := by
  simp only [frameStep, frameType, h]

theorem frameStep_reset {body : List Byte} (h : at8 body 2 = 0x45) : frameStep body = resetStep (payload body) := by
  simp only [frameStep, frameType, h]

/-- A TYPE that is not taken calls for no step. -/
theorem frameStep_of_not_taken {body : List Byte} (h : ¬ TypeIsTaken body) : frameStep body = .none := by
  simp only [TypeIsTaken, not_or, not_and_or, Nat.not_le] at h
  unfold frameStep frameType
  split
  case h_13 => rfl
  all_goals omega

/-- A LOAD by its table (Table 11-5). -/
theorem loadStep_of_table {p : List Byte} {e : Nat × FrameStep}
    (he : e ∈ [(1, FrameStep.loadParam), (2, .loadSymbol), (3, .loadSlot), (4, .loadChain), (5, .loadModule),
      (6, .loadTerminal)]) (hlen : 5 ≤ p.length) (h : at8 p 0 = e.1) : loadStep p = e.2 := by
  simp only [List.mem_cons, List.not_mem_nil, or_false] at he
  rcases he with rfl | rfl | rfl | rfl | rfl | rfl
  all_goals simp only [loadStep, Nat.not_lt.mpr hlen, if_false, h]

/-- A LOAD too short for its header, or of no loadable table (R167). -/
theorem loadStep_refused {p : List Byte} (h : p.length < 5 ∨ at8 p 0 = 0 ∨ 6 < at8 p 0) : loadStep p = .refused := by
  unfold loadStep
  split
  · rfl
  · next hlen =>
      have h : at8 p 0 = 0 ∨ 6 < at8 p 0 := h.resolve_left hlen
      split
      case h_7 => rfl
      all_goals omega

/-- A READ (R169). -/
theorem readStep_refused {p : List Byte} (h : p.length < 5 ∨ at8 p 0 = 0 ∨ 8 < at8 p 0) : readStep p = .refused := by
  rw [readStep, if_neg (by omega)]

/-- A CONTROL by its action (R171). -/
theorem controlStep_of_action {p : List Byte} {e : Nat × FrameStep}
    (he : e ∈ [(1, FrameStep.clearAlerts), (2, .setMask), (3, .chainReset), (4, .terminalReset), (5, .tickerFlush)])
    (hlen : 1 ≤ p.length) (h : at8 p 0 = e.1) : controlStep p = e.2 := by
  simp only [List.mem_cons, List.not_mem_nil, or_false] at he
  rcases he with rfl | rfl | rfl | rfl | rfl
  all_goals simp only [controlStep, Nat.not_lt.mpr hlen, if_false, h]

theorem controlStep_refused {p : List Byte} (h : p.length = 0 ∨ at8 p 0 = 0 ∨ 5 < at8 p 0) :
    controlStep p = .refused := by
  unfold controlStep
  split
  · rfl
  · next hlen =>
      have h : at8 p 0 = 0 ∨ 5 < at8 p 0 := h.resolve_left (by omega)
      split
      case h_6 => rfl
      all_goals omega

/-- A RESET by its kind (R175). -/
theorem resetStep_refused {p : List Byte} (h : p.length ≠ 1 ∨ at8 p 0 = 0 ∨ 2 < at8 p 0) : resetStep p = .refused := by
  unfold resetStep
  split
  · next hlen =>
      have h : at8 p 0 = 0 ∨ 2 < at8 p 0 := h.resolve_left (by omega)
      split
      case h_3 => rfl
      all_goals omega
  · rfl

/-- Whether a step is one of a LOAD. -/
def stepsLoad (step : FrameStep) : Bool :=
  step ∈ [FrameStep.loadParam, .loadSymbol, .loadSlot, .loadChain, .loadModule, .loadTerminal]

theorem stepsLoad_table (table : LoadTable) : stepsLoad table.step = true := by
  cases table <;> rfl

theorem stepsLoad_bulletinStep (p : List Byte) : stepsLoad (bulletinStep p) = false := by
  unfold bulletinStep
  split
  · rfl
  · split <;> rfl

theorem stepsLoad_readStep (p : List Byte) : stepsLoad (readStep p) = false := by
  unfold readStep
  split <;> rfl

theorem stepsLoad_controlStep (p : List Byte) : stepsLoad (controlStep p) = false := by
  unfold controlStep
  split
  · rfl
  · split <;> rfl

theorem stepsLoad_resetStep (p : List Byte) : stepsLoad (resetStep p) = false := by
  unfold resetStep
  split
  · split <;> rfl
  · rfl

/-- A frame that calls for a LOAD step is a LOAD. -/
theorem type_of_stepsLoad {body : List Byte} (h : stepsLoad (frameStep body) = true) : at8 body 2 = 0x41 := by
  by_contra htype
  refine absurd h (Bool.not_eq_true _ ▸ ?_)
  unfold frameStep frameType
  split
  case h_7 => exact stepsLoad_bulletinStep _
  case h_8 => contradiction
  case h_9 => exact stepsLoad_readStep _
  case h_11 => exact stepsLoad_controlStep _
  case h_12 => exact stepsLoad_resetStep _
  all_goals rfl

/-- A frame that a LOAD step takes is no shorter than the header of a LOAD (R167). -/
theorem five_le_of_stepsLoad {body : List Byte} (h : stepsLoad (frameStep body) = true) :
    5 ≤ (payload body).length := by
  by_contra hlen
  rw [frameStep_load (type_of_stepsLoad h), loadStep_refused (.inl (by omega))] at h
  exact absurd h (by decide)

/-- The three BULLETIN steps by the action (log entry 9). -/
theorem bulletinStep_calls (p : List Byte) : (at8 p 1 = 2 → bulletinStep p = .bulletinPop)
    ∧ (at8 p 1 = 3 → bulletinStep p = .bulletinClear)
    ∧ (at8 p 1 ≠ 2 → at8 p 1 ≠ 3 → bulletinStep p = .bulletinPush) := by
  refine ⟨fun h => ?_, fun h => ?_, fun h h' => ?_⟩
  · rw [bulletinStep, if_pos h]
  · rw [bulletinStep, if_neg (by omega), if_pos h]
  · rw [bulletinStep, if_neg h, if_neg h']

/-- The two RESET steps by the kind. -/
theorem resetStep_calls {p : List Byte} (hlen : p.length = 1) :
    (at8 p 0 = 1 → resetStep p = .resetCold) ∧ (at8 p 0 = 2 → resetStep p = .resetWarm) := by
  constructor <;> intro h <;> simp only [resetStep, hlen, h, if_true]

/-- A four-byte number by its bytes (R176). -/
theorem at32_eq (p : List Byte) (i : Nat) :
    at32 p i = at8 p i * 2 ^ 24 + at8 p (i + 1) * 2 ^ 16 + at8 p (i + 2) * 2 ^ 8 + at8 p (i + 3) := by
  have h : i + 2 + 1 = i + 3 := rfl
  simp only [at32, at16, h]
  omega

/-! ## Frames that change nothing but a reply (R4, R49, R50, R166, R167, R171) -/

/-- A frame discarded after the gap-before marking. -/
theorem whenRunning_takeHead_discarded {s : State} {e : IntakeEntry} {rest : List IntakeEntry} {step : FrameStep}
    {apply : List Byte → State → State} (h : HeadIs s e rest step)
    (happly : apply e.body (afterGap e s) = afterGap e s) :
    whenRunning (takeHead step apply) s = .next { afterGap e s with intake := rest } := by
  rw [whenRunning_takeHead h (by rw [happly]), happly]
  rfl

/-- A frame answered after the gap-before marking, with no other effect. -/
theorem whenRunning_takeHead_answered {s : State} {e : IntakeEntry} {rest : List IntakeEntry} {step : FrameStep}
    {apply : List Byte → State → State} {code : Byte} (h : HeadIs s e rest step)
    (happly : apply e.body (afterGap e s) = replyTo e.body [code] (afterGap e s)) :
    whenRunning (takeHead step apply) s = .next { afterGap e s with
      intake := rest, mgmt := replied (seqTag e.body) [code] (afterGap e s).mgmt } := by
  rw [replyTo_frame] at happly
  rw [whenRunning_takeHead h (by rw [happly]), happly]
  rfl

/-- A market data frame whose payload fails, or whose items change nothing, is discarded. -/
theorem applyItems_discards {α : Type} {items : List Byte → Option α} {fails : List Byte → Prop}
    {carried : List Byte → α} (hreads : Reads items fails carried) {apply : α → State → State} {body : List Byte}
    {u : State} (h : fails (payload body) ∨ apply (carried (payload body)) u = u) :
    applyItems items apply body u = u := by
  by_cases hfails : fails (payload body)
  · exact applyItems_of_none ((hreads _).1 hfails) u
  · rw [applyItems_of_some ((hreads _).2 hfails)]
    exact h.resolve_left hfails

/-- A CONTROL of a known action whose length is wrong (R171). -/
theorem applyControl_of_length {length : Nat} {act : List Byte → State → Option State} {body : List Byte}
    (h : (payload body).length ≠ length) (s : State) :
    applyControl length act body s = replyTo body [codeBadLength] s := by
  rw [applyControl, if_pos h]

/-- A LOAD whose check fails: its answer, and its entry gone (R167). -/
theorem whenRunning_takeLoad_checked {s : State} {e : IntakeEntry} {rest : List IntakeEntry} {step : FrameStep}
    {size entrySize : Nat} {apply : Nat → List Byte → State → Option State} {code : Byte} (h : HeadIs s e rest step)
    (hload : s.load = none) (hcheck : loadCheck size entrySize (payload e.body) = some code) :
    whenRunning (takeLoad step size entrySize apply) s = .next { afterGap e s with
      intake := rest, mgmt := replied (seqTag e.body) [code] (afterGap e s).mgmt } := by
  obtain ⟨hphase, hi, hstep⟩ := h
  have htake : takeLoad step size entrySize apply s = loadEnds e.body [code] (afterGap e s) := by
    simp only [takeLoad, hi, hstep, if_true, hload, hcheck]
    rfl
  have hu : (afterGap e s).load = none := (afterGap_load e s).trans hload
  simp only [whenRunning, hphase, if_true, htake, loadEnds_frame, afterGap_intake, hi, List.drop_one, List.tail_cons]
  rw [← hu]

/-- A LOAD whose range exceeds its table (R167). -/
theorem loadCheck_of_range {size entrySize : Nat} {p : List Byte} (hlen : 5 ≤ p.length)
    (h : size < at16 p 1 + at16 p 3) : loadCheck size entrySize p = some codeBadRange := by
  rw [loadCheck, if_neg (by omega), if_pos h]

/-- A LOAD of a table, as its command takes it. -/
theorem exec_load (table : LoadTable) (s : State) : exec table.command s
    = whenRunning (takeLoad table.step table.size table.entrySize (table.apply s)) s := by
  cases table <;> rfl

/-- The code of a refused management frame, by its TYPE (R166). -/
theorem refusalCode_eq (body : List Byte) :
    (at8 body 2 = 0x41 → refusalCode body = if (payload body).length < 5 then 3 else 1)
      ∧ (at8 body 2 = 0x42 → refusalCode body = if (payload body).length = 5 then 1 else 3)
      ∧ (at8 body 2 = 0x44 → refusalCode body = if (payload body).length = 0 then 3 else 5)
      ∧ (at8 body 2 = 0x45 → refusalCode body = if (payload body).length = 1 then 5 else 3) := by
  refine ⟨fun h => ?_, fun h => ?_, fun h => ?_, fun h => ?_⟩
  · simp only [refusalCode, frameType, h]
    rfl
  · simp only [refusalCode, frameType, h, ite_not]
    rfl
  · simp only [refusalCode, frameType, h, Nat.lt_one_iff]
    rfl
  · simp only [refusalCode, frameType, h, ite_not]
    rfl

/-- A TRADE, a QUOTE, a SYMBOL STATE or a RECAP of a symbol that is not in the directory (R4). -/
theorem applyTrade_of_unknown {q : TradeItems} {u : State} (h : lookup u.directory q.symbol = none) :
    applyTrade q u = u := by
  simp only [applyTrade, h]

theorem applyQuote_of_unknown {q : QuoteItems} {u : State} (h : lookup u.directory q.symbol = none) :
    applyQuote q u = u := by
  simp only [applyQuote, h]

theorem applySymbolState_of_unknown {q : SymbolStateItems} {u : State} (h : lookup u.directory q.symbol = none) :
    applySymbolState q u = u := by
  simp only [applySymbolState, h]

theorem applyRecap_of_unknown {q : RecapItems} {u : State} (h : lookup u.directory q.symbol = none) :
    applyRecap q u = u := by
  simp only [applyRecap, h]

/-- A market data frame whose payload fails, discarded at its step. -/
theorem whenRunning_malformed {α : Type} {s : State} {e : IntakeEntry} {rest : List IntakeEntry} {step : FrameStep}
    {items : List Byte → Option α} {fails : List Byte → Prop} {carried : List Byte → α} {apply : α → State → State}
    (hreads : Reads items fails carried) (hhead : HeadIs s e rest step) (h : fails (payload e.body)) :
    whenRunning (takeHead step (applyItems items apply)) s = .next { afterGap e s with intake := rest } :=
  whenRunning_takeHead_discarded hhead (applyItems_discards hreads (.inl h))

/-- Settles O9: each frame that fails is discarded, or answered alone, at the end of its step. -/
theorem badFramesChangeNothing : Obligations.BadFramesChangeNothing := by
  unfold Obligations.BadFramesChangeNothing
  refine ⟨fun body => ⟨rfl, rfl⟩, fun p i => ⟨rfl, rfl, at32_eq p i, rfl⟩,
    fun d c => ⟨fun n => mem_of_lookup, fun h n hmem => lookup_eq_none_iff.mp h _ hmem⟩, reads_tradeItems,
    reads_quoteItems, reads_symbolStateItems, reads_recapItems, reads_clockItems, reads_sessionItems,
    reads_bulletinItems, fun body => ⟨fun e he h => frameStep_of_type he h, fun h => ?_, fun h => ?_, fun h => ?_,
      fun h => ?_, fun h => ?_, frameStep_of_not_taken⟩, ?_⟩
  · simpa only [frameStep_bulletin h] using bulletinStep_calls (payload body)
  · simp only [frameStep_load h]
    exact ⟨fun e he => loadStep_of_table he, loadStep_refused⟩
  · simp only [frameStep_read h]
    exact ⟨fun hlen ha hb => if_pos ⟨hlen, ha, hb⟩, readStep_refused⟩
  · simp only [frameStep_control h]
    exact ⟨fun e he => controlStep_of_action he, controlStep_refused⟩
  · simp only [frameStep_reset h]
    exact ⟨resetStep_calls, resetStep_refused⟩
  intro s e rest u p type gone answered unknown
  refine ⟨fun hhead h => ?_, fun hhead h => ?_, fun hhead h => ?_, fun hhead h => ?_,
    whenRunning_malformed reads_clockItems, whenRunning_malformed reads_sessionItems,
    whenRunning_malformed reads_bulletinItems, whenRunning_malformed reads_bulletinItems,
    whenRunning_malformed reads_bulletinItems, fun hhead => ?_, fun table hhead hload h => ?_,
    fun hhead h => whenRunning_takeHead_answered hhead (applyControl_of_length h _),
    fun hhead h => whenRunning_takeHead_answered hhead (applyControl_of_length h _),
    fun hhead h => whenRunning_takeHead_answered hhead (applyControl_of_length h _),
    fun hhead h => whenRunning_takeHead_answered hhead (applyControl_of_length h _),
    fun hhead h => whenRunning_takeHead_answered hhead (applyControl_of_length h _)⟩
  · exact whenRunning_takeHead_discarded hhead (applyItems_discards reads_tradeItems
      (h.imp_right fun hnone => applyTrade_of_unknown hnone))
  · exact whenRunning_takeHead_discarded hhead (applyItems_discards reads_quoteItems
      (h.imp_right fun hnone => applyQuote_of_unknown hnone))
  · exact whenRunning_takeHead_discarded hhead (applyItems_discards reads_symbolStateItems
      (h.imp_right fun hnone => applySymbolState_of_unknown hnone))
  · exact whenRunning_takeHead_discarded hhead (applyItems_discards reads_recapItems
      (h.imp_right fun hnone => applyRecap_of_unknown hnone))
  · have hanswered : answered .refusedManagementFrame (refusalCode e.body) :=
      whenRunning_takeHead_answered (apply := fun body s' => replyTo body [refusalCode body] s') hhead rfl
    obtain ⟨hload, hread, hcontrol, hreset⟩ := refusalCode_eq e.body
    exact ⟨fun h => hload h ▸ hanswered, fun h => hread h ▸ hanswered, fun h => hcontrol h ▸ hanswered,
      fun h => hreset h ▸ hanswered⟩
  · have hstep : stepsLoad (frameStep e.body) = true := by
      rw [hhead.2.2]
      exact stepsLoad_table table
    exact (exec_load table s).trans (whenRunning_takeLoad_checked hhead hload
      (loadCheck_of_range (five_le_of_stepsLoad hstep) h))

end Sys2Proof.Machine

namespace Sys2Proof.Machine

open Sys2Proof.Safety

/-! ## What marks bring about at the boards, step by step (R75, R76, R95) -/

/-- Chain c is in the state t what it is in the state u. -/
def ChainStands (c : ChainId) (u t : State) : Prop := t.chains[c] = u.chains[c]

/-- A change of the boards by marks alone: a chain stays as it is, or is IDLE and starts a refresh; every slot comes from
one of the same description, and stays dirty where its chain stays as it is. -/
structure BoardsAdvance (u t : State) : Prop where
  chain : ∀ c : ChainId, ChainStands c u t
    ∨ ((u.chains[c]).state = .idle ∧ (t.chains[c]).state ≠ .idle ∧ (t.chains[c]).cycle.isSome = true)
  slot : ∀ n sl, tableGet t.slots n = some sl → ∃ before, tableGet u.slots n = some before
    ∧ description sl = description before ∧ (ChainStands sl.chain u t → before.dirty = true → sl.dirty = true)

/-- Every slot of a kind is dirty after a change of the boards, but on a chain that has started a refresh. -/
def DirtyUnlessStarted (kind : SlotKind → Prop) (u t : State) : Prop :=
  ∀ n sl, tableGet t.slots n = some sl → kind sl.kind → ChainStands sl.chain u t → sl.dirty = true

/-- The chains have been told of what is dirty: none that is IDLE has a dirty slot (R75). -/
def ChainsSettled (t : State) : Prop :=
  ∀ n sl, tableGet t.slots n = some sl → (t.chains[sl.chain]).state = .idle → sl.dirty = false

theorem chain_eq_of_description {a b : Slot} (h : description a = description b) : a.chain = b.chain :=
  congrArg Prod.fst h

theorem kind_eq_of_description {a b : Slot} (h : description a = description b) : a.kind = b.kind :=
  congrArg (fun d => d.2.2) h

/-- The state of a chain that stands. -/
theorem ChainStands.state_eq {c : ChainId} {u t : State} (h : ChainStands c u t) :
    (t.chains[c]).state = (u.chains[c]).state := congrArg Chain.state h

namespace BoardsAdvance

variable {u v w : State}

theorem refl (u : State) : BoardsAdvance u u :=
  ⟨fun _ => .inl rfl, fun _ sl h => ⟨sl, h, rfl, fun _ hd => hd⟩⟩

/-- Boards that hold the same are as good. -/
theorem of_eq (hchains : v.chains = u.chains) (hslots : v.slots = u.slots) : BoardsAdvance u v :=
  ⟨fun _ => .inl (by rw [ChainStands, hchains]), fun _ sl h => ⟨sl, hslots ▸ h, rfl, fun _ hd => hd⟩⟩

/-- A chain that is as it was at the end was so in between. -/
theorem unchanged (h : BoardsAdvance u v) (h' : BoardsAdvance v w) {c : ChainId} (hc : ChainStands c u w) :
    ChainStands c u v ∧ ChainStands c v w := by
  rcases h.chain c with hv | ⟨hidle, hbusy, -⟩
  · exact ⟨hv, hc.trans hv.symm⟩
  · rcases h'.chain c with hw | ⟨hv, -, -⟩
    · exact absurd (hw.state_eq.symm.trans (hc.state_eq.trans hidle)) hbusy
    · exact absurd hv hbusy

theorem trans (h : BoardsAdvance u v) (h' : BoardsAdvance v w) : BoardsAdvance u w := by
  refine ⟨fun c => ?_, fun n sl hsl => ?_⟩
  · rcases h'.chain c with hw | ⟨hidle, hbusy, hcycle⟩
    · rw [ChainStands, show w.chains[c] = v.chains[c] from hw]
      exact h.chain c
    · rcases h.chain c with hv | ⟨-, hv, -⟩
      · exact .inr ⟨hv.state_eq.symm.trans hidle, hbusy, hcycle⟩
      · exact absurd hidle hv
  · obtain ⟨mid, hmid, hd', hdirty'⟩ := h'.slot n sl hsl
    obtain ⟨before, hbefore, hd, hdirty⟩ := h.slot n mid hmid
    refine ⟨before, hbefore, hd'.trans hd, fun hc hb => ?_⟩
    obtain ⟨hv, hw⟩ := h.unchanged h' hc
    rw [← chain_eq_of_description hd'] at hdirty
    exact hdirty' hw (hdirty hv hb)

/-- A chain that is not IDLE stays as it is. -/
theorem busy (h : BoardsAdvance u v) {c : ChainId} (hc : (u.chains[c]).state ≠ .idle) : ChainStands c u v :=
  (h.chain c).resolve_right fun hidle => hc hidle.1

/-- Slots made dirty stay so. -/
theorem dirty_left {kind : SlotKind → Prop} (h : BoardsAdvance u v) (hdirty : DirtyUnlessStarted kind u v)
    (h' : BoardsAdvance v w) : DirtyUnlessStarted kind u w := by
  intro n sl hsl hkind hc
  obtain ⟨mid, hmid, hd, hkept⟩ := h'.slot n sl hsl
  obtain ⟨hv, hw⟩ := h.unchanged h' hc
  rw [chain_eq_of_description hd] at hv
  exact hkept hw (hdirty n mid hmid (kind_eq_of_description hd ▸ hkind) hv)

/-- Slots made dirty later are dirty. -/
theorem dirty_right {kind : SlotKind → Prop} (h : BoardsAdvance u v) (h' : BoardsAdvance v w)
    (hdirty : DirtyUnlessStarted kind v w) : DirtyUnlessStarted kind u w :=
  fun n sl hsl hkind hc => hdirty n sl hsl hkind (h.unchanged h' hc).2

/-- A mark reaches its slots where the chains have been told of what it made dirty. -/
theorem markReaches {kind : SlotKind → Prop} (h : BoardsAdvance u v) (hdirty : DirtyUnlessStarted kind u v)
    (hsettled : ChainsSettled v) : MarkReaches kind u v := by
  intro n sl hsl hkind
  refine ⟨fun hbusy => hdirty n sl hsl hkind (h.busy hbusy), fun hidle => ?_⟩
  rcases h.chain sl.chain with hc | ⟨-, -, hcycle⟩
  · have hclean := hsettled n sl hsl (hc.state_eq.trans hidle)
    exact absurd ((hdirty n sl hsl hkind hc).symm.trans hclean) (by decide)
  · exact hcycle

end BoardsAdvance

/-! ## One mark, so told -/

/-- A chain that has started a refresh is not IDLE, and holds its cycle. -/
theorem startedChain_started (c : ChainId) (v : State) :
    (startedChain c v).state ≠ .idle ∧ (startedChain c v).cycle.isSome = true := by
  simp only [startedChain]
  split <;> simp

/-- A chain after a mark: as it was, or IDLE before and started. -/
theorem markedBoards_chain (mark : Slot → Slot) (v : State) (c : ChainId) : ChainStands c v (markedBoards mark v)
    ∨ ((v.chains[c]).state = .idle ∧ ((markedBoards mark v).chains[c]).state ≠ .idle
      ∧ ((markedBoards mark v).chains[c]).cycle.isSome = true) := by
  obtain ⟨hstart, hstay⟩ := (boardsMarked_markedBoards mark v).1 c
  by_cases hw : (v.chains[c]).state = .idle
      ∧ ((v.chains[c]).resync = true ∨ ∃ e ∈ v.slots.map (fun e => (e.1, mark e.2)), e.2.chain = c ∧ e.2.dirty = true)
  · rw [show (markedBoards mark v).chains[c] = _ from hstart hw]
    exact .inr ⟨hw.1, startedChain_started c _⟩
  · exact .inl (hstay hw)

/-- A slot after a mark: what the mark makes of one, and cleaned where its chain has started a refresh. -/
theorem markedBoards_slot {mark : Slot → Slot} {v : State} {n : Nat} {sl : Slot}
    (h : tableGet (markedBoards mark v).slots n = some sl) : ∃ before, tableGet v.slots n = some before
      ∧ ((sl = mark before ∧ ((v.chains[sl.chain]).state = .idle → sl.dirty = false))
        ∨ (sl = { mark before with dirty := false } ∧ ¬ ChainStands sl.chain v (markedBoards mark v))) := by
  obtain ⟨hchains, hslots⟩ := boardsMarked_markedBoards mark v
  cases hb : tableGet v.slots n with
  | none => simp [(hslots n).2 hb] at h
  | some before =>
    obtain ⟨hcleaned, hmarked⟩ := (hslots n).1 before hb
    refine ⟨before, rfl, ?_⟩
    by_cases hw : (v.chains[(mark before).chain]).state = .idle
        ∧ ((v.chains[(mark before).chain]).resync = true
          ∨ ∃ e ∈ v.slots.map (fun e => (e.1, mark e.2)), e.2.chain = (mark before).chain ∧ e.2.dirty = true)
    · obtain rfl := Option.some.inj (h.symm.trans (hcleaned hw))
      refine .inr ⟨rfl, fun hstands => ?_⟩
      have hstarted : (markedBoards mark v).chains[(mark before).chain] = startedChain _ _ :=
        (hchains (mark before).chain).1 hw
      exact (startedChain_started _ _).1 (hstarted ▸ hstands.state_eq.trans hw.1)
    · obtain rfl := Option.some.inj (h.symm.trans (hmarked hw))
      refine .inl ⟨rfl, fun hidle => ?_⟩
      by_contra hdirty
      exact hw ⟨hidle, .inr ⟨_, List.mem_map_of_mem (mem_of_tableGet hb), rfl, by simpa using hdirty⟩⟩

/-- A mark that keeps what a slot is and its dirty flag is such a change. -/
theorem markedBoards_advance {mark : Slot → Slot} (hmark : Marks mark)
    (hmono : ∀ sl, sl.dirty = true → (mark sl).dirty = true) (v : State) : BoardsAdvance v (markedBoards mark v) := by
  refine ⟨markedBoards_chain mark v, fun n sl hsl => ?_⟩
  obtain ⟨before, hb, ⟨rfl, -⟩ | ⟨rfl, hstarted⟩⟩ := markedBoards_slot hsl
  · exact ⟨before, hb, hmark.keeps before, fun _ => hmono before⟩
  · exact ⟨before, hb, hmark.keeps before, fun hc => absurd hc hstarted⟩

/-- A mark that makes the slots of a kind dirty. -/
theorem markedBoards_dirty {mark : Slot → Slot} {kind : SlotKind → Prop} (hmark : Marks mark)
    (hdirty : ∀ sl, kind sl.kind → (mark sl).dirty = true) (v : State) :
    DirtyUnlessStarted kind v (markedBoards mark v) := by
  intro n sl hsl hkind hc
  obtain ⟨before, hb, ⟨rfl, -⟩ | ⟨rfl, hstarted⟩⟩ := markedBoards_slot hsl
  · exact hdirty before (kind_eq_of_description (hmark.keeps before) ▸ hkind)
  · exact absurd hc hstarted

/-- The chains have been told of a mark. -/
theorem markedBoards_settled (mark : Slot → Slot) (v : State) : ChainsSettled (markedBoards mark v) := by
  intro n sl hsl hidle
  obtain ⟨before, hb, ⟨rfl, hclean⟩ | ⟨rfl, hstarted⟩⟩ := markedBoards_slot hsl
  · rcases markedBoards_chain mark v (mark before).chain with hc | ⟨-, hbusy, -⟩
    · exact hclean (hc.state_eq.symm.trans hidle)
    · exact absurd hidle hbusy
  · rfl

/-- Boards marked from a state that shows the same. -/
theorem boardsMarked_of_sameShown {mark : Slot → Slot} {v w t : State} (h : SameShown v w)
    (hmarked : BoardsMarked mark w t) : BoardsMarked mark v t := by
  have hslots : SameShown { v with slots := v.slots.map (fun e => (e.1, mark e.2)) }
      { w with slots := w.slots.map (fun e => (e.1, mark e.2)) } := { h with slots := by rw [h.slots] }
  unfold BoardsMarked at hmarked ⊢
  simp only [RefreshStarted, hslots.startedChain_eq] at hmarked
  simp only [h.chains, h.slots] at hmarked
  exact hmarked

/-- Boards marked in turn from a state that shows the same. -/
theorem boardsMarkedInTurn_of_sameShown {turns : List Turn} {v w t : State} (h : SameShown v w)
    (hreads : ∀ turn ∈ turns, ∀ v w, SameShown v w → SameShown (turn.reads v) (turn.reads w))
    (hmarked : BoardsMarkedInTurn turns w t) : BoardsMarkedInTurn turns v t :=
  ⟨hmarked.1.trans (h.turns hreads).chains, hmarked.2.trans (h.turns hreads).slots⟩

/-- An update of a record reads alike. -/
theorem sameShown_recordTurn {n : Nat} {r : QuoteRecord} {names : NameSet} {period : Nat} {v w : State}
    (h : SameShown v w) :
    SameShown ((recordTurn n r names period).reads v) ((recordTurn n r names period).reads w) :=
  { h with records := congrArg (tableSet · n r) h.records }

/-! ## A run of record updates (R6, R21, R22) -/

/-- A mark of the QUOTE slots keeps a dirty slot so. -/
theorem quoteMark_mono (n : Nat) (names : NameSet) (period : Nat) {sl : Slot} (h : sl.dirty = true) :
    (quoteMark n names period sl).dirty = true := by
  obtain ⟨_, _, kind, _, _⟩ := sl
  cases kind
  case quote record _ _ _ _ => by_cases hr : record = n <;> simp_all [quoteMark]
  all_goals exact h

/-- A mark of the STATUS slots keeps a dirty slot so. -/
theorem statusMark_mono {sl : Slot} (h : sl.dirty = true) : (statusMark sl).dirty = true := by
  simp only [statusMark]
  split
  · rfl
  · exact h

/-- A record update with a change set that is not empty, at the boards. -/
theorem updateRecord_boards_eq (n : Nat) (r : QuoteRecord) {names : NameSet} (h : names ≠ 0) (v : State) :
    let marked := markedBoards (quoteMark n names (param v 5)) { v with records := tableSet v.records n r }
    (updateRecord n r names v).chains = marked.chains ∧ (updateRecord n r names v).slots = marked.slots := by
  rw [updateRecord_turn n r h]
  exact ⟨rfl, rfl⟩

theorem updateRecord_advance (n : Nat) (r : QuoteRecord) {names : NameSet} (h : names ≠ 0) (v : State) :
    BoardsAdvance v (updateRecord n r names v) := by
  obtain ⟨hchains, hslots⟩ := updateRecord_boards_eq n r h v
  have hmarked := markedBoards_advance (marks_quoteMark n names (param v 5)) (fun _ => quoteMark_mono n names (param v 5))
    { v with records := tableSet v.records n r }
  have hset : BoardsAdvance v { v with records := tableSet v.records n r } := .of_eq rfl rfl
  exact hset.trans (hmarked.trans (.of_eq hchains hslots))

/-- Changes one after the other. -/
theorem BoardsAdvance.foldl {α : Type} {one : State → α → State} (hone : ∀ v x, BoardsAdvance v (one v x)) :
    ∀ (xs : List α) (v : State), BoardsAdvance v (xs.foldl one v)
  | [], v => .refl v
  | x :: rest, v => (hone v x).trans (BoardsAdvance.foldl hone rest (one v x))

/-! ## The rows of the terminal line (R157, R158) -/

/-- The terminal line with every row become `f` of itself. -/
def lineWithRows (f : Row → Row) (l : TerminalLine) : TerminalLine :=
  { l with terminals := l.terminals.map (fun t => { t with rows := t.rows.map f }) }

/-- A row with names added, where it names a record of the kind p. -/
def rowGains (names : NameSet) (p : Nat → Bool) (row : Row) : Row :=
  if row.record.any p then { row with pending := row.pending ||| names } else row

theorem lineWithRows_lineWithRows (f g : Row → Row) (l : TerminalLine) :
    lineWithRows f (lineWithRows g l) = lineWithRows (fun row => f (g row)) l := by
  simp only [lineWithRows, Vector.map_map]
  congr 2
  funext t
  simp only [Function.comp_apply, Vector.map_map]
  rfl

theorem lineWithNames_eq (n : Nat) (names : NameSet) (l : TerminalLine) :
    lineWithNames n names l = lineWithRows (rowGains names (fun m => decide (m = n))) l := by
  have h : (fun row : Row => if row.record = some n then { row with pending := row.pending ||| names } else row)
      = rowGains names (fun m => decide (m = n)) := by
    funext row
    cases hrow : row.record <;> simp [rowGains, hrow]
  rw [← h]
  rfl

theorem lineWithRows_self {f : Row → Row} (h : ∀ row, f row = row) (l : TerminalLine) : lineWithRows f l = l := by
  have hf : f = id := funext h
  simp [lineWithRows, hf]

/-- Names added twice. -/
theorem rowGains_rowGains (names : NameSet) (p q : Nat → Bool) (row : Row) :
    rowGains names p (rowGains names q row) = rowGains names (fun n => q n || p n) row := by
  obtain ⟨record, pending, inFlight⟩ := row
  cases record with
  | none => rfl
  | some n => cases hp : p n <;> cases hq : q n <;> simp [rowGains, hp, hq, BitVec.or_assoc]

/-- The rows after a run of changes of records, each of which adds the names to the rows of its record where the
record, as it stands, meets a test. -/
theorem foldl_line {one : State → Nat → State} {test : Option QuoteRecord → Bool} {names : NameSet}
    (hline : ∀ v n, (one v n).line
      = lineWithRows (rowGains names (fun m => decide (m = n) && test (tableGet v.records m))) v.line)
    (hothers : ∀ v n m, m ≠ n → tableGet (one v n).records m = tableGet v.records m)
    (hself : ∀ v n, test (tableGet (one v n).records n) = true → test (tableGet v.records n) = true) :
    ∀ (ns : List Nat) (v : State), (ns.foldl one v).line
      = lineWithRows (rowGains names (fun n => decide (n ∈ ns) && test (tableGet v.records n))) v.line := by
  intro ns
  induction ns with
  | nil => exact fun v => (lineWithRows_self (fun row => by simp [rowGains]) v.line).symm
  | cons n rest ih =>
    intro v
    rw [List.foldl_cons, ih, hline, lineWithRows_lineWithRows]
    congr 1
    funext row
    rw [rowGains_rowGains]
    congr 1
    funext m
    by_cases hm : m = n
    · subst hm
      have h : test (tableGet v.records m) = false → test (tableGet (one v m).records m) = false :=
        fun hv => Bool.eq_false_iff.mpr fun ht => absurd (hself v m ht) (by rw [hv]; decide)
      cases hv : test (tableGet v.records m)
      · simp [h hv]
      · simp
    · simp [hm, hothers v n m hm]

end Sys2Proof.Machine

namespace Sys2Proof.Machine

open Sys2Proof.Safety

/-! ## The symbol directory at a change (R3, R7 to R10) -/

theorem lookup_directoryInsert_of_ne {c c' : SymbolCode} (h : c' ≠ c) (n : Nat) (d : List (SymbolCode × Nat)) :
    lookup (directoryInsert c n d) c' = lookup d c' := by
  induction d with
  | nil => simp [directoryInsert, lookup, h.symm]
  | cons e rest ih =>
    simp only [directoryInsert]
    split
    · simp [lookup, h.symm]
    · simp only [lookup, ih]

/-- A symbol inserted is found, where the directory held none. -/
theorem lookup_directoryInsert_self {c : SymbolCode} {d : List (SymbolCode × Nat)} (h : lookup d c = none) (n : Nat) :
    lookup (directoryInsert c n d) c = some n := by
  induction d with
  | nil => simp [directoryInsert, lookup]
  | cons e rest ih =>
    simp only [lookup] at h
    split at h
    · cases h
    · next hne =>
        simp only [directoryInsert]
        split
        · simp [lookup]
        · simp only [lookup, hne, if_false, ih h]

theorem lookup_directoryRemove_self (c : SymbolCode) (d : List (SymbolCode × Nat)) :
    lookup (directoryRemove c d) c = none :=
  lookup_eq_none_iff.mpr fun n hmem => by simp [directoryRemove] at hmem

theorem lookup_directoryRemove_of_ne {c c' : SymbolCode} (h : c' ≠ c) (d : List (SymbolCode × Nat)) :
    lookup (directoryRemove c d) c' = lookup d c' := by
  induction d with
  | nil => rfl
  | cons e rest ih =>
    simp only [directoryRemove, ne_eq, decide_not] at ih ⊢
    by_cases he : e.1 = c
    · have hne : ¬ c = c' := fun hc => h hc.symm
      simp [he, lookup, hne, ih]
    · simp [he, lookup, ih]

/-! ## A SYMBOL entry, case by case (R7 to R11) -/

section Cases

variable {n : Nat} {x : List Byte} {q : SymbolEntry} {u : State}

/-- R7: a symbol that another record holds. -/
theorem heldElsewhere_of_lookup {m : Nat} {c : SymbolCode} (h : lookup u.directory c = some m) (hne : m ≠ n) :
    heldElsewhere u n c = true := by
  simp [heldElsewhere, h, hne]

theorem heldElsewhere_of_none {c : SymbolCode} (h : lookup u.directory c = none) : heldElsewhere u n c = false := by
  simp [heldElsewhere, h]

theorem heldElsewhere_of_self {c : SymbolCode} (h : lookup u.directory c = some n) : heldElsewhere u n c = false := by
  simp [heldElsewhere, h]

theorem applySymbolEntry_of_fails (h : symbolEntry x = none) : applySymbolEntry n x u = none := by
  unfold applySymbolEntry
  simp only [h]

theorem applySymbolEntry_of_held (hq : symbolEntry x = some q) (hb : q.symbol ≠ blankSymbol)
    (hheld : heldElsewhere u n q.symbol = true) : applySymbolEntry n x u = none := by
  unfold applySymbolEntry
  simp only [hq, hb, hheld, ne_eq, not_false_eq_true, and_self, if_true]

theorem applySymbolEntry_of_define (hq : symbolEntry x = some q) (hb : q.symbol ≠ blankSymbol)
    (hheld : heldElsewhere u n q.symbol = false) (hr : tableGet u.records n = none) :
    applySymbolEntry n x u = some (defineRecord n q u) := by
  unfold applySymbolEntry
  simp only [hq, hb, hheld, Bool.false_eq_true, and_false, if_false, hr]

theorem applySymbolEntry_of_blank (hq : symbolEntry x = some q) (hb : q.symbol = blankSymbol)
    (hr : tableGet u.records n = none) : applySymbolEntry n x u = some u := by
  unfold applySymbolEntry
  simp only [hq, hb, ne_eq, not_true_eq_false, false_and, if_false, hr, if_true]

theorem applySymbolEntry_of_delete {r : QuoteRecord} (hq : symbolEntry x = some q) (hb : q.symbol = blankSymbol)
    (hr : tableGet u.records n = some r) : applySymbolEntry n x u = some (deleteRecord n r.symbol u) := by
  unfold applySymbolEntry
  simp only [hq, hb, ne_eq, not_true_eq_false, false_and, if_false, hr, if_true]

theorem applySymbolEntry_of_redescribe {r : QuoteRecord} (hq : symbolEntry x = some q) (hb : q.symbol ≠ blankSymbol)
    (hheld : heldElsewhere u n q.symbol = false) (hr : tableGet u.records n = some r) (hsame : q.symbol = r.symbol) :
    applySymbolEntry n x u = some (updateRecord n (staticRecord q r) (staticNames r (staticRecord q r)) u) := by
  unfold applySymbolEntry
  simp only [hq, hheld, Bool.false_eq_true, and_false, if_false, hr]
  rw [if_neg hb, if_pos hsame]

theorem applySymbolEntry_of_rename {r : QuoteRecord} (hq : symbolEntry x = some q) (hb : q.symbol ≠ blankSymbol)
    (hheld : heldElsewhere u n q.symbol = false) (hr : tableGet u.records n = some r) (hdiff : q.symbol ≠ r.symbol) :
    applySymbolEntry n x u = some (renameRecord n r.symbol q u) := by
  unfold applySymbolEntry
  simp only [hq, hheld, Bool.false_eq_true, and_false, if_false, hr]
  rw [if_neg hb, if_neg hdiff]

end Cases

/-! ## A LOAD of one entry (R167) -/

section OneEntryLoad

variable {s : State} {e : IntakeEntry} {rest : List IntakeEntry} {step : FrameStep} {size entrySize n : Nat}
  {apply : Nat → List Byte → State → Option State}

/-- A LOAD of one entry in its table comes to its entry. -/
theorem whenRunning_takeLoad_one (h : HeadIs s e rest step) (hload : s.load = none) (hone : OneEntry e.body entrySize n)
    (hn : n < size) : whenRunning (takeLoad step size entrySize apply) s
      = .next (match apply n (entryOf e.body) (afterGap e s) with
        | none => loadEnds e.body [4, 0, 0] (afterGap e s)
        | some t => loadEnds e.body [0] t) := by
  obtain ⟨hphase, hi, hstep⟩ := h
  obtain ⟨hlen, hstart, hcount⟩ := hone
  have hcheck : loadCheck size entrySize (payload e.body) = none := by
    rw [loadCheck, hstart, hcount, if_neg (by omega), if_neg (by omega), if_neg (by omega)]
  have hbytes : ((payload e.body).drop (5 + 0 * entrySize)).take entrySize = entryOf e.body := by
    rw [Nat.zero_mul, entryOf]
    exact List.take_of_length_le (by rw [List.length_drop]; omega)
  have htake : takeLoad step size entrySize apply s = loadNext entrySize apply e.body 0 (afterGap e s) := by
    simp only [takeLoad, hi, hstep, if_true, hload, hcheck]
    rfl
  simp only [whenRunning, hphase, if_true, htake, loadNext, hcount, hstart, hbytes]
  cases apply n (entryOf e.body) (afterGap e s) <;> rfl

/-- One refused. -/
theorem whenRunning_takeLoad_refused (h : HeadIs s e rest step) (hload : s.load = none)
    (hone : OneEntry e.body entrySize n) (hn : n < size) (happly : apply n (entryOf e.body) (afterGap e s) = none) :
    whenRunning (takeLoad step size entrySize apply) s = .next { afterGap e s with
      intake := rest, mgmt := replied (seqTag e.body) [4, 0, 0] (afterGap e s).mgmt } := by
  have hu : (afterGap e s).load = none := (afterGap_load e s).trans hload
  have hi : (afterGap e s).intake.drop 1 = rest := by rw [afterGap_intake, h.2.1]; rfl
  rw [whenRunning_takeLoad_one h hload hone hn, happly, loadEnds_frame, hi, ← hu]

/-- One accepted, by what keeps the intake queue, the place of the LOAD and the responder. -/
theorem whenRunning_takeLoad_accepted {t : State} (h : HeadIs s e rest step) (hload : s.load = none)
    (hone : OneEntry e.body entrySize n) (hn : n < size) (happly : apply n (entryOf e.body) (afterGap e s) = some t)
    (hintake : t.intake = (afterGap e s).intake) (hkept : t.load = (afterGap e s).load)
    (hmgmt : t.mgmt = (afterGap e s).mgmt) :
    whenRunning (takeLoad step size entrySize apply) s = .next { t with
      intake := rest, mgmt := replied (seqTag e.body) [0] (afterGap e s).mgmt } := by
  have hu : t.load = none := hkept.trans ((afterGap_load e s).trans hload)
  have hi : t.intake.drop 1 = rest := by rw [hintake, afterGap_intake, h.2.1]; rfl
  rw [whenRunning_takeLoad_one h hload hone hn, happly]
  simp only [loadEnds_frame]
  rw [hi, hmgmt, ← hu]

end OneEntryLoad

/-! ## The records' changes, at the boards and the rows -/

/-- A record update reads and changes nothing of the directory. -/
theorem updateRecord_withDirectory (n : Nat) (r : QuoteRecord) {names : NameSet} (h : names ≠ 0) (u : State)
    (d : List (SymbolCode × Nat)) :
    updateRecord n r names { u with directory := d } = { updateRecord n r names u with directory := d } := by
  rw [updateRecord_turn n r h, updateRecord_turn n r h]
  rfl

/-- A definition (R8). -/
theorem defineRecord_eq (n : Nat) (q : SymbolEntry) (u : State) : defineRecord n q u
    = { updateRecord n (definedRecord (feedLost u) q) allNames u with
        directory := directoryInsert q.symbol n u.directory } :=
  updateRecord_withDirectory n _ (by decide) u _

/-- A deletion (R9). -/
theorem deleteRecord_eq (n : Nat) (symbol : SymbolCode) (u : State) : deleteRecord n symbol u
    = { markedBoards (deletionMark n) { u with records := tableErase u.records n } with
        directory := directoryRemove symbol u.directory, line := lineWithDeletion n u.line } :=
  handDeletion_eq n _

/-- Rows that hold no record more take no change set. -/
theorem lineWithNames_lineWithDeletion (n : Nat) (names : NameSet) (l : TerminalLine) :
    lineWithNames n names (lineWithDeletion n l) = lineWithDeletion n l := by
  simp only [lineWithNames, lineWithDeletion, Vector.map_map]
  congr 2
  funext t
  simp only [Function.comp_apply, Vector.map_map]
  congr 2
  funext row
  by_cases h : row.record = some n <;> simp [h]

/-- A rename (R10). -/
theorem renameRecord_eq (n : Nat) (symbol : SymbolCode) (q : SymbolEntry) (u : State) : renameRecord n symbol q u
    = { markedBoards (quoteMark n allNames (param u 5)) (markedBoards (deletionMark n)
          { u with records := tableSet u.records n (definedRecord (feedLost u) q) }) with
        directory := directoryInsert q.symbol n (directoryRemove symbol u.directory),
        line := lineWithDeletion n u.line } := by
  simp only [renameRecord]
  rw [handNames_eq n (by decide), handDeletion_eq]
  rw [lineWithNames_lineWithDeletion]
  rfl

/-- The frame of a LOAD of one SYMBOL entry that is accepted, from what its owner has made of the state. -/
structure SymbolLoaded (n : Nat) (u t : State) : Prop where
  others : KeepsOtherRecords n u t
  keeps : KeepsFeedAndTime u t
  refresh : BoardsOnlyRefresh u t
  intake : t.intake = u.intake
  bulletins : t.bulletins = u.bulletins
  ticker : t.ticker = u.ticker
  mgmt : t.mgmt = u.mgmt

/-- The directory and the line are no part of it. -/
theorem SymbolLoaded.with_directory {n : Nat} {u t : State} (h : SymbolLoaded n u t) (d : List (SymbolCode × Nat))
    (l : TerminalLine) : SymbolLoaded n u { t with directory := d, line := l } :=
  ⟨h.others, h.keeps, h.refresh, h.intake, h.bulletins, h.ticker, h.mgmt⟩

/-- A record update is such a change. -/
theorem symbolLoaded_updateRecord (n : Nat) (r : QuoteRecord) (names : NameSet) (u : State) :
    SymbolLoaded n u (updateRecord n r names u) :=
  have h := recordUpdated_updateRecord n r names u
  ⟨h.others, h.keeps, h.refresh, updateRecord_intake n r names u, h.bulletins, updateRecord_ticker n r names u,
    updateRecord_mgmt n r names u⟩

theorem symbolLoaded_defineRecord (n : Nat) (q : SymbolEntry) (u : State) : SymbolLoaded n u (defineRecord n q u) := by
  rw [defineRecord_eq]
  exact (symbolLoaded_updateRecord n (definedRecord (feedLost u) q) allNames u).with_directory _ _

/-- Records changed at n alone, with marks of the slots. -/
theorem symbolLoaded_of_boards {n : Nat} {u v : State} {records : Table QuoteRecord}
    (hrecords : ∀ m, m ≠ n → tableGet records m = tableGet u.records m)
    (hv : v = { u with records := records, chains := v.chains, slots := v.slots }) (hboards : BoardsOnlyRefresh u v) :
    SymbolLoaded n u v := by
  rw [hv] at hboards ⊢
  exact ⟨hrecords, ⟨rfl, rfl, rfl, rfl, rfl, rfl⟩, hboards, rfl, rfl, rfl, rfl⟩

/-- Marks of slots change the boards alone. -/
theorem markedBoards_frame (mark : Slot → Slot) (v : State) : markedBoards mark v
    = { v with chains := (markedBoards mark v).chains, slots := (markedBoards mark v).slots } := rfl

/-- A deletion's mark, at the boards. -/
theorem deletionMark_boards (n : Nat) (v : State) : BoardsOnlyRefresh v (markedBoards (deletionMark n) v) := by
  have h := handDeletion_boards n v
  rw [handDeletion_eq] at h
  exact h

/-- A change set's mark, at the boards. -/
theorem quoteMark_boards (n : Nat) {names : NameSet} (hnames : names ≠ 0) (v : State) :
    BoardsOnlyRefresh v (markedBoards (quoteMark n names (param v 5)) v) := by
  have h := handNames_boards n names v
  rw [handNames_eq n hnames] at h
  exact h

theorem symbolLoaded_deleteRecord (n : Nat) (symbol : SymbolCode) (u : State) :
    SymbolLoaded n u (deleteRecord n symbol u) := by
  rw [deleteRecord_eq]
  refine SymbolLoaded.with_directory ?_ _ _
  exact symbolLoaded_of_boards (records := tableErase u.records n)
    (fun m hm => (tableGet_tableErase u.records n m).trans (if_neg hm)) (markedBoards_frame _ _)
    (deletionMark_boards n { u with records := tableErase u.records n })

theorem symbolLoaded_renameRecord (n : Nat) (symbol : SymbolCode) (q : SymbolEntry) (u : State) :
    SymbolLoaded n u (renameRecord n symbol q u) := by
  rw [renameRecord_eq]
  refine SymbolLoaded.with_directory ?_ _ _
  let v : State := { u with records := tableSet u.records n (definedRecord (feedLost u) q) }
  have hboards : BoardsOnlyRefresh v (markedBoards (quoteMark n allNames (param u 5)) (markedBoards (deletionMark n) v)) :=
    boardsOnlyRefresh_trans (deletionMark_boards n v) (quoteMark_boards n (by decide) (markedBoards (deletionMark n) v))
  exact symbolLoaded_of_boards (records := v.records) (fun m hm => tableGet_tableSet_of_ne u.records _ hm)
    (markedBoards_frame _ _) hboards

/-- A deletion makes the QUOTE slots of its record dirty. -/
theorem dirty_deletionMark {n : Nat} {sl : Slot} (h : ∃ fields gap lamp flash, sl.kind = .quote n fields gap lamp flash) :
    (deletionMark n sl).dirty = true := by
  obtain ⟨fields, gap, lamp, flash, hk⟩ := h
  simp [deletionMark, hk]

theorem deletionMark_mono (n : Nat) {sl : Slot} (h : sl.dirty = true) : (deletionMark n sl).dirty = true := by
  obtain ⟨_, _, kind, _, _⟩ := sl
  cases kind
  case quote record _ _ _ _ => by_cases hr : record = n <;> simp_all [deletionMark]
  all_goals exact h

/-- The boards after a rename's two marks (R10, R97, R98). -/
theorem rename_boards (n period : Nat) (v : State) :
    let t := markedBoards (quoteMark n allNames period) (markedBoards (deletionMark n) v)
    MarkReaches (fun kind => ∃ fields gap lamp flash, kind = .quote n fields gap lamp flash) v t
      ∧ MarksStand (fun sl => quoteMark n allNames period (deletionMark n sl)) v t := by
  have hfirst := markedBoards_advance (marks_deletionMark n) (fun _ => deletionMark_mono n) v
  have hsecond := markedBoards_advance (marks_quoteMark n allNames period) (fun _ => quoteMark_mono n allNames period)
    (markedBoards (deletionMark n) v)
  have hdirty := markedBoards_dirty (kind := fun kind => ∃ fields gap lamp flash, kind = .quote n fields gap lamp flash)
    (marks_deletionMark n) (fun _ => dirty_deletionMark) v
  exact ⟨(hfirst.trans hsecond).markReaches (hfirst.dirty_left hdirty hsecond) (markedBoards_settled _ _),
    marksStand_then (marksStand_marked (marks_deletionMark n) v) (marksStand_marked (marks_quoteMark n allNames period) _)
      (marks_deletionMark n) (marks_quoteMark n allNames period) (fun _ h => hfirst.busy h)⟩

/-! ## A LOAD of one SYMBOL entry (R7 to R11, R167) -/

/-- What the records are after each change. -/
theorem defineRecord_records (n : Nat) (q : SymbolEntry) (u : State) :
    tableGet (defineRecord n q u).records n = some (definedRecord (feedLost u) q) := by
  rw [defineRecord_eq]
  have h := (recordUpdated_updateRecord n (definedRecord (feedLost u) q) allNames u).record
  generalize updateRecord n (definedRecord (feedLost u) q) allNames u = t at h ⊢
  exact h

theorem deleteRecord_records (n : Nat) (symbol : SymbolCode) (u : State) :
    (deleteRecord n symbol u).records = tableErase u.records n := by
  rw [deleteRecord_eq]
  rfl

theorem renameRecord_records (n : Nat) (symbol : SymbolCode) (q : SymbolEntry) (u : State) :
    (renameRecord n symbol q u).records = tableSet u.records n (definedRecord (feedLost u) q) := by
  rw [renameRecord_eq]
  rfl

/-- The boards and the line after a definition. -/
theorem defineRecord_boards (n : Nat) (q : SymbolEntry) (u : State) :
    (defineRecord n q u).line = lineWithNames n allNames u.line
      ∧ NamesReachBoards n allNames { u with records := (defineRecord n q u).records } (defineRecord n q u) := by
  rw [defineRecord_eq]
  have h := recordUpdated_updateRecord n (definedRecord (feedLost u) q) allNames u
  generalize updateRecord n (definedRecord (feedLost u) q) allNames u = t at h ⊢
  exact ⟨h.line, h.boards⟩

/-- The boards and the line after a deletion. -/
theorem deleteRecord_boards (n : Nat) (symbol : SymbolCode) (u : State) :
    (deleteRecord n symbol u).line = lineWithDeletion n u.line
      ∧ BoardsMarked (deletionMark n) { u with records := (deleteRecord n symbol u).records } (deleteRecord n symbol u) := by
  rw [deleteRecord_records]
  have h := boardsMarked_markedBoards (deletionMark n) { u with records := tableErase u.records n }
  rw [deleteRecord_eq]
  generalize markedBoards (deletionMark n) { u with records := tableErase u.records n } = t at h ⊢
  exact ⟨rfl, h⟩

/-- The boards and the line after a rename. -/
theorem renameRecord_boards (n : Nat) (symbol : SymbolCode) (q : SymbolEntry) (u : State) :
    let t := renameRecord n symbol q u
    let defined := quoteMark n allNames (param u 5)
    t.line = lineWithDeletion n u.line
      ∧ MarkReaches (fun kind => ∃ fields gap lamp flash, kind = .quote n fields gap lamp flash) u t
      ∧ MarksStand (fun sl => defined (deletionMark n sl)) u t
      ∧ BoardsMarkedInTurn [{ reads := id, mark := deletionMark n }, { reads := id, mark := defined }]
        { u with records := t.records } t := by
  intro t defined
  let v : State := { u with records := tableSet u.records n (definedRecord (feedLost u) q) }
  let marked := markedBoards defined (markedBoards (deletionMark n) v)
  have ht : t = { marked with
      directory := directoryInsert q.symbol n (directoryRemove symbol u.directory),
      line := lineWithDeletion n u.line } := renameRecord_eq n symbol q u
  have hrecords : t.records = v.records := renameRecord_records n symbol q u
  have hturns : BoardsMarkedInTurn [{ reads := id, mark := deletionMark n }, { reads := id, mark := defined }] v marked :=
    ⟨rfl, rfl⟩
  obtain ⟨hreach, hstand⟩ : MarkReaches _ v marked ∧ MarksStand _ v marked := rename_boards n (param u 5) v
  clear_value t marked
  rw [hrecords, ht]
  exact ⟨rfl, hreach, hstand, hturns⟩

/-- What a LOAD of one SYMBOL entry answers where its owner accepts it. -/
theorem exec_loadSymbol_accepted {s : State} {e : IntakeEntry} {rest : List IntakeEntry} {n : Nat} {t : State}
    (h : HeadIs s e rest .loadSymbol) (hload : s.load = none) (hone : OneEntry e.body 11 n) (hn : n ≤ 511)
    (happly : applySymbolEntry n (entryOf e.body) (afterGap e s) = some t) (ht : SymbolLoaded n (afterGap e s) t) :
    exec .loadSymbol s = .next { t with
      intake := rest, mgmt := replied (seqTag e.body) [0] (afterGap e s).mgmt } :=
  whenRunning_takeLoad_accepted h hload hone (by omega) happly ht.intake ht.keeps.2.2.2.2.1 ht.mgmt

/-- And where it refuses it. -/
theorem exec_loadSymbol_refused {s : State} {e : IntakeEntry} {rest : List IntakeEntry} {n : Nat}
    (h : HeadIs s e rest .loadSymbol) (hload : s.load = none) (hone : OneEntry e.body 11 n) (hn : n ≤ 511)
    (happly : applySymbolEntry n (entryOf e.body) (afterGap e s) = none) :
    exec .loadSymbol s = .next { afterGap e s with
      intake := rest, mgmt := replied (seqTag e.body) [4, 0, 0] (afterGap e s).mgmt } :=
  whenRunning_takeLoad_refused h hload hone (by omega) happly

/-- A record after a static update (R11, R20). -/
theorem staticRecord_eq (q : SymbolEntry) (r : QuoteRecord) : staticRecord q r = { r with
    tapeClass := q.tapeClass, denom := q.denom, prevClose := q.prevClose,
    netChange := (match r.last with
      | some p => (p : Int) - (q.prevClose : Int)
      | none => 0) } := by
  cases h : r.last <;> simp [staticRecord, netChangeOf, h]

/-- Settles O20: the entry's items are read, and each case of R7 to R11 is one change of the state. -/
theorem loadSymbolActs : Obligations.LoadSymbolActs := by
  unfold Obligations.LoadSymbolActs
  intro s e rest n u x fails boards refuses hhead hload hone hn
  refine ⟨fun hfails => ?_, (reads_symbolEntry x).2, ?_⟩
  · exact exec_loadSymbol_refused hhead hload hone hn (applySymbolEntry_of_fails ((reads_symbolEntry x).1 hfails))
  intro q afresh frame hq
  have accepted {t : State} (happly : applySymbolEntry n x u = some t) (ht : SymbolLoaded n u t) :
      exec .loadSymbol s = .next { t with intake := rest, mgmt := replied (seqTag e.body) [0] u.mgmt } :=
    exec_loadSymbol_accepted hhead hload hone hn happly ht
  have framed {t : State} (ht : SymbolLoaded n u t) :
      frame { t with intake := rest, mgmt := replied (seqTag e.body) [0] u.mgmt } :=
    ⟨ht.others, ht.keeps, ht.refresh, rfl, ht.bulletins, ht.ticker, rfl⟩
  refine ⟨fun hb hr hnone => ?_, fun r hb hr => ?_, fun r hb hr hne hnone => ?_, fun r hb hr hsame hself => ?_,
    fun hb hr => ?_, fun m hb hm hne => ?_⟩
  · have ht := symbolLoaded_defineRecord n q u
    obtain ⟨hline, hboards⟩ := defineRecord_boards n q u
    have hrecord := defineRecord_records n q u
    have hdirectory : (defineRecord n q u).directory = directoryInsert q.symbol n u.directory := by
      rw [defineRecord_eq]
    have hnext := accepted (applySymbolEntry_of_define hq hb (heldElsewhere_of_none hnone) hr) ht
    generalize defineRecord n q u = t at *
    refine ⟨_, hnext, hrecord, ?_, fun c hc => ?_, hline, hboards, framed ht⟩
    · exact hdirectory ▸ lookup_directoryInsert_self hnone n
    · exact hdirectory ▸ lookup_directoryInsert_of_ne hc n _
  · have ht := symbolLoaded_deleteRecord n r.symbol u
    obtain ⟨hline, hboards⟩ := deleteRecord_boards n r.symbol u
    have hrecords := deleteRecord_records n r.symbol u
    have hdirectory : (deleteRecord n r.symbol u).directory = directoryRemove r.symbol u.directory := by
      rw [deleteRecord_eq]
    have hnext := accepted (applySymbolEntry_of_delete hq hb hr) ht
    generalize deleteRecord n r.symbol u = t at *
    refine ⟨_, hnext, ?_, ?_, fun c hc => ?_, hline, hboards, framed ht⟩
    · exact (congrArg (tableGet · n) hrecords).trans ((tableGet_tableErase u.records n n).trans (if_pos rfl))
    · exact hdirectory ▸ lookup_directoryRemove_self _ _
    · exact hdirectory ▸ lookup_directoryRemove_of_ne hc _
  · have ht := symbolLoaded_renameRecord n r.symbol q u
    obtain ⟨hline, hreach, hstand, hturns⟩ := renameRecord_boards n r.symbol q u
    have hrecords := renameRecord_records n r.symbol q u
    have hdirectory : (renameRecord n r.symbol q u).directory
        = directoryInsert q.symbol n (directoryRemove r.symbol u.directory) := by
      rw [renameRecord_eq]
    have hnext := accepted (applySymbolEntry_of_rename hq hb (heldElsewhere_of_none hnone) hr hne) ht
    generalize renameRecord n r.symbol q u = t at *
    have hgone : lookup (directoryRemove r.symbol u.directory) q.symbol = none :=
      (lookup_directoryRemove_of_ne hne _).trans hnone
    refine ⟨_, hnext, ?_, ?_, ?_, fun c hc hc' => ?_, hline, hreach, ⟨hstand, hturns⟩, framed ht⟩
    · exact (congrArg (tableGet · n) hrecords).trans (tableGet_tableSet_self u.records n _)
    · exact hdirectory ▸ lookup_directoryInsert_self hgone n
    · exact hdirectory ▸ (lookup_directoryInsert_of_ne hne.symm n _).trans (lookup_directoryRemove_self _ _)
    · exact hdirectory ▸ (lookup_directoryInsert_of_ne hc n _).trans (lookup_directoryRemove_of_ne hc' _)
  · have hup := recordUpdated_updateRecord n (staticRecord q r) (staticNames r (staticRecord q r)) u
    have ht := symbolLoaded_updateRecord n (staticRecord q r) (staticNames r (staticRecord q r)) u
    have hnext := accepted (applySymbolEntry_of_redescribe hq hb (heldElsewhere_of_self hself) hr hsame) ht
    generalize updateRecord n (staticRecord q r) (staticNames r (staticRecord q r)) u = t at *
    exact ⟨_, staticRecord q r, staticNames r (staticRecord q r), hnext, hup.record, staticRecord_eq q r, hup.directory,
      staticNames_eq q r, hup.line, hup.boards, framed ht⟩
  · exact accepted (applySymbolEntry_of_blank hq hb hr) ⟨fun _ _ => rfl, ⟨rfl, rfl, rfl, rfl, rfl, rfl⟩,
      boardsOnlyRefresh_refl u, rfl, rfl, rfl, rfl⟩
  · exact exec_loadSymbol_refused hhead hload hone hn (applySymbolEntry_of_held hq hb (heldElsewhere_of_lookup hm hne))

end Sys2Proof.Machine

namespace Sys2Proof.Machine

open Sys2Proof.Safety

/-! ## The stale marking of every record, at the rows and the boards (R21, R96, R157) -/

/-- The stale marking of one record, of a record that is DEFINED and not stale, and of any other. -/
theorem markStale_of_fresh {v : State} {n : Nat} {r : QuoteRecord} (hr : tableGet v.records n = some r)
    (hfresh : r.stale = false) : markStale v n = updateRecord n { r with stale := true } nameStale v := by
  simp [markStale, hr, hfresh]

theorem markStale_of_not_fresh {v : State} {n : Nat}
    (h : (tableGet v.records n).any (fun r => !r.stale) = false) : markStale v n = v := by
  simp only [markStale]
  cases hr : tableGet v.records n with
  | none => rfl
  | some r => simp_all

theorem updateRecord_line (n : Nat) (r : QuoteRecord) (names : NameSet) (s : State) :
    (updateRecord n r names s).line = lineWithNames n names s.line := by
  rw [updateRecord_frame]

/-- The rows after the stale marking of one record. -/
theorem markStale_line (v : State) (n : Nat) : (markStale v n).line = lineWithRows (rowGains nameStale
    (fun m => decide (m = n) && (tableGet v.records m).any (fun r => !r.stale))) v.line := by
  cases hfresh : (tableGet v.records n).any (fun r => !r.stale)
  · rw [markStale_of_not_fresh hfresh]
    have hnone : (fun m => decide (m = n) && (tableGet v.records m).any (fun r => !r.stale)) = fun _ => false := by
      funext m
      by_cases hm : m = n <;> simp_all
    rw [hnone]
    exact (lineWithRows_self (fun row => by simp [rowGains]) v.line).symm
  · obtain ⟨r, hr, hst⟩ := (Option.any_eq_true _ _).mp hfresh
    rw [markStale_of_fresh hr (by simpa using hst), updateRecord_line, lineWithNames_eq]
    congr 2
    funext m
    by_cases hm : m = n <;> simp_all

/-- The rows after the stale marking of every record (R21, R157). -/
theorem markAllStale_line (s : State) : (markAllStale s).line = lineWithStale s s.line := by
  have hself (v : State) (n : Nat) (h : (tableGet (markStale v n).records n).any (fun r => !r.stale) = true) :
      (tableGet v.records n).any (fun r => !r.stale) = true := by
    rw [tableGet_markStale] at h
    cases hr : tableGet v.records n <;> simp [hr] at h
  have hothers (v : State) (n m : Nat) (hm : m ≠ n) :
      tableGet (markStale v n).records m = tableGet v.records m := by
    rw [tableGet_markStale]
    simp [hm]
  rw [markAllStale, foldl_line (test := fun x => x.any (fun r => !r.stale)) markStale_line hothers hself]
  have hrow : rowGains nameStale (fun n => decide (n ∈ definedNumbers s) && (tableGet s.records n).any (fun r => !r.stale))
      = fun row => if namesFresh s row then { row with pending := row.pending ||| nameStale } else row := by
    funext row
    have hdefined (n : Nat) : (decide (n ∈ definedNumbers s) && (tableGet s.records n).any (fun r => !r.stale))
        = (tableGet s.records n).any (fun r => !r.stale) := by
      simp only [definedNumbers, ← tableGet_isSome]
      cases tableGet s.records n <;> simp
    have hnames : namesFresh s row = row.record.any (fun n => (tableGet s.records n).any (fun r => !r.stale)) := by
      unfold namesFresh
      cases row.record <;> rfl
    simp only [rowGains, hdefined, hnames]
  rw [hrow]
  rfl

theorem markStale_advance (v : State) (n : Nat) : BoardsAdvance v (markStale v n) := by
  cases hfresh : (tableGet v.records n).any (fun r => !r.stale)
  · rw [markStale_of_not_fresh hfresh]
    exact .refl v
  · obtain ⟨r, hr, hst⟩ := (Option.any_eq_true _ _).mp hfresh
    rw [markStale_of_fresh hr (by simpa using hst)]
    exact updateRecord_advance n _ (by decide) v

theorem markAllStale_advance (s : State) : BoardsAdvance s (markAllStale s) :=
  BoardsAdvance.foldl markStale_advance (definedNumbers s) s

/-- A QUOTE slot of record n with a lamp cell. -/
def LampOf (n : Nat) (kind : SlotKind) : Prop := ∃ fields gap cell flash, kind = .quote n fields gap (some cell) flash

/-- The stale marking of a record that was not stale makes its lamp cells dirty. -/
theorem markStale_dirty {v : State} {n : Nat} {r : QuoteRecord} (hr : tableGet v.records n = some r)
    (hfresh : r.stale = false) : DirtyUnlessStarted (LampOf n) v (markStale v n) := by
  rw [markStale_of_fresh hr hfresh]
  obtain ⟨hchains, hslots⟩ := updateRecord_boards_eq n { r with stale := true } (names := nameStale) (by decide) v
  have hdirty := markedBoards_dirty (kind := LampOf n) (marks_quoteMark n nameStale (param v 5)) (fun sl hk => by
    obtain ⟨fields, gap, cell, flash, hk⟩ := hk
    simp [quoteMark_stale, hk]) { v with records := tableSet v.records n { r with stale := true } }
  intro m sl hsl hkind hc
  rw [hslots] at hsl
  rw [ChainStands, hchains] at hc
  exact hdirty m sl hsl hkind hc

/-- The stale marking of a run of records does so for each of them. -/
theorem foldl_markStale_dirty {n : Nat} {r : QuoteRecord} (hfresh : r.stale = false) (ns : List Nat) : ∀ v : State,
    n ∈ ns → tableGet v.records n = some r → DirtyUnlessStarted (LampOf n) v (ns.foldl markStale v) := by
  induction ns with
  | nil => exact fun _ hmem => absurd hmem List.not_mem_nil
  | cons m rest ih =>
    intro v hmem hr
    have hfirst := markStale_advance v m
    have hrest := BoardsAdvance.foldl markStale_advance rest (markStale v m)
    rw [List.foldl_cons]
    by_cases hm : n = m
    · have hdirty := markStale_dirty hr hfresh
      rw [hm] at hdirty ⊢
      exact hfirst.dirty_left hdirty hrest
    · have hr' : tableGet (markStale v m).records n = some r := by
        rw [tableGet_markStale, hr]
        simp [hm]
      exact hfirst.dirty_right hrest (ih _ ((List.mem_cons.mp hmem).resolve_left hm) hr')

/-- The stale marking of every record makes the lamp cells dirty of each record that was not stale (R96, R101). -/
theorem markAllStale_dirty (s : State) : DirtyUnlessStarted (FreshLamp s) s (markAllStale s) := by
  intro k sl hsl hkind
  obtain ⟨n, fields, gap, cell, flash, r, hk, hr, hfresh⟩ := hkind
  have hmem : n ∈ definedNumbers s := (tableGet_isSome s.records n).mp (by rw [hr]; rfl)
  exact foldl_markStale_dirty hfresh (definedNumbers s) s hmem hr k sl hsl ⟨fields, gap, cell, flash, hk⟩

theorem marks_staleMark (s : State) : Marks (staleMark s) := by
  refine ⟨fun sl => ?_, fun a b _ hf => ?_⟩
  · simp only [staleMark]
    split <;> rfl
  · simp only [staleMark]
    split <;> split <;> exact hf

/-! ## The announcement of the loss (R52, R117) -/

/-- What a text does to the ticker hangs on the ticker alone. -/
theorem offerText_ticker_withMgmt (atHead : Bool) (text : List Byte) (s : State) (m : Management) :
    (offerText atHead text { s with mgmt := m }).ticker = (offerText atHead text s).ticker := by
  simp only [offerText, apply_ite State.ticker]
  rfl

/-- A text clears no alert. -/
theorem alertIn_offerText {a : Alert} {s : State} (atHead : Bool) (text : List Byte)
    (h : alertIn a s.mgmt.alertStatus = true) : alertIn a (offerText atHead text s).mgmt.alertStatus = true := by
  have hset : alertIn a (alertSet .tapeOmit s.mgmt).alertStatus = true := by
    rw [alertIn_alertSet, h, Bool.or_true]
  simp only [offerText]
  split
  · exact h
  · split
    · exact h
    · split
      · exact hset
      · exact h

/-! ## The expiry of the silence timer (R52) -/

/-- The state in which the loss of the feed is handed on. -/
def feedGone (s : State) : State :=
  { s with feed := { s.feed with feedState := .lost, silence := none }, mgmt := alertSet .feedLost s.mgmt }

/-- The expiry, while the timer runs: the records marked, the STATUS slots, the status lines and the announcement. -/
theorem silenceExpire_eq {s : State} (h : s.feed.silence.isSome = true) : silenceExpire s
    = { markedBoards statusMark (markAllStale (feedGone s)) with
        line := lineWithStatus (lineWithStale s s.line),
        ticker := (offerText false textFeedInterrupted s).ticker,
        mgmt := (offerText false textFeedInterrupted { s with mgmt := alertSet .feedLost s.mgmt }).mgmt } := by
  have hexpire : silenceExpire s = handFeedState .lost (markAllStale (feedGone s)) := by
    simp only [silenceExpire, timerRuns, h, if_true]
    rfl
  have hline : (markAllStale (feedGone s)).line = lineWithStale s s.line := markAllStale_line (feedGone s)
  have hmarked : (markedBoards statusMark (markAllStale (feedGone s))).ticker = s.ticker
      ∧ (markedBoards statusMark (markAllStale (feedGone s))).mgmt = alertSet .feedLost s.mgmt
      ∧ (markedBoards statusMark (markAllStale (feedGone s))).line = lineWithStale s s.line := by
    refine ⟨?_, ?_, hline⟩
    · show (markAllStale (feedGone s)).ticker = _
      rw [markAllStale_frame]
      rfl
    · show (markAllStale (feedGone s)).mgmt = _
      rw [markAllStale_frame]
      rfl
  rw [hexpire, handFeedState, if_pos rfl, markStatus_eq]
  generalize markedBoards statusMark (markAllStale (feedGone s)) = v at hmarked ⊢
  obtain ⟨hticker, hmgmt, hl⟩ := hmarked
  have hsame : SameOffers { s with mgmt := alertSet .feedLost s.mgmt } (statusLinesPending v) := ⟨hticker, hmgmt⟩
  have hoffer := hsame.offerText false textFeedInterrupted
  have htext := offerText_frame false textFeedInterrupted (statusLinesPending v)
  rw [hoffer.ticker, hoffer.mgmt, offerText_ticker_withMgmt] at htext
  rw [htext, statusLinesPending_frame, statusLinesPending_line, hl]

/-- An alert set changes no parameter. -/
theorem alertSet_params (a : Alert) (m : Management) : (alertSet a m).params = m.params := by
  simp only [alertSet]
  split
  · rfl
  · split
    · simp only [queueAlert]
      split <;> rfl
    · rfl

theorem param_feedGone (s : State) (i : Fin 20) : param (feedGone s) i = param s i := by
  simp only [param, feedGone, alertSet_params]

/-- The boards after the loss: what reaches the slots (R98, R101, R104). -/
theorem feedGone_boards (s : State) :
    let t := markedBoards statusMark (markAllStale (feedGone s))
    BoardsOnlyRefresh s t ∧ MarkReaches (· = .status) s t ∧ MarkReaches (FreshLamp s) s t
      ∧ MarksStand (fun sl => statusMark (staleMark s sl)) s t
      ∧ ((s.records.map Prod.fst).Nodup → BoardsMarkedInTurn (staleTurns s ++ [statusTurn])
        { s with feed := { s.feed with feedState := .lost, silence := none } } t) := by
  intro t
  have hgone : BoardsAdvance s (feedGone s) := .of_eq rfl rfl
  have hstale := hgone.trans (markAllStale_advance (feedGone s))
  have hstatus := markedBoards_advance marks_statusMark (fun _ => statusMark_mono) (markAllStale (feedGone s))
  have hsettled : ChainsSettled t := markedBoards_settled statusMark (markAllStale (feedGone s))
  refine ⟨?_, (hstale.trans hstatus).markReaches ?_ hsettled, (hstale.trans hstatus).markReaches ?_ hsettled, ?_,
    fun hnodup => ?_⟩
  · have hmarked := markSlots_boards (fun sl => sl.kind == .status) (f := dirtied) (fun _ => rfl)
      (markAllStale (feedGone s))
    rw [← markStatus, markStatus_eq] at hmarked
    exact boardsOnlyRefresh_trans (markAllStale_boards (feedGone s)) hmarked
  · exact hstale.dirty_right hstatus
      (markedBoards_dirty marks_statusMark (fun sl hk => by simp [statusMark, hk]) (markAllStale (feedGone s)))
  · exact hstale.dirty_left (hgone.dirty_right (markAllStale_advance _) (markAllStale_dirty (feedGone s))) hstatus
  · exact marksStand_then (marksStand_markAllStale (feedGone s)) (marksStand_marked marks_statusMark _)
      (marks_staleMark s) marks_statusMark (fun c h => hstale.busy h)
  · obtain ⟨l, hl⟩ := markAllStale_turns (s := feedGone s) hnodup
    have hturns : staleTurns s = staleTurns (feedGone s) := by
      simp only [staleTurns, param_feedGone]
      rfl
    have hmarked : BoardsMarkedInTurn (staleTurns (feedGone s) ++ [statusTurn]) (feedGone s) t := by
      simp only [BoardsMarkedInTurn, List.foldl_append, t, hl, markedBoards_line]
      exact ⟨rfl, rfl⟩
    rw [hturns]
    refine boardsMarkedInTurn_of_sameShown (w := feedGone s) ⟨rfl, rfl, rfl, rfl, rfl, rfl, rfl, rfl⟩ ?_ hmarked
    intro turn hturn v w hvw
    rcases List.mem_append.mp hturn with h | h
    · obtain ⟨e, -, rfl⟩ := List.mem_map.mp h
      exact sameShown_recordTurn hvw
    · rw [List.mem_singleton.mp h]
      exact hvw

/-! ## The return of the feed (R42, R54) -/

/-- The byte that ends a frame of a good CRC (R40). -/
theorem takeByte_arrives {s : State} {low : Byte} (h : FrameArrives s low) :
    takeByte low s.feed.rx = (huntReceiver, .arrived s.feed.rx.body) := by
  obtain ⟨⟨-, hcheck, -, -⟩, hhigh, hlow⟩ := h
  simp only [takeByte, hcheck, hhigh, wordBytes, hlow, if_true]

/-- A frame that arrives is taken by `arrive`. -/
theorem exec_feedFrameReceived_arrives {s : State} {low : Byte} (h : FrameArrives s low) :
    exec (.feedFrameReceived low) s
      = .next (arrive s.feed.rx.body { s with feed := { s.feed with rx := huntReceiver } }) := by
  obtain ⟨hphase, hawaits⟩ := (frameEnds_iff s).mp h.1
  have hexec : exec (.feedFrameReceived low) s = whenRunning (takeLastByte low) s := rfl
  have htaken : takeLastByte low s = settleReception (huntReceiver, .arrived s.feed.rx.body) s := by
    rw [takeLastByte, if_pos hawaits, takeByte_arrives h]
  have hsettled : settleReception (huntReceiver, .arrived s.feed.rx.body) s
      = arrive s.feed.rx.body (s.setFeed { s.feed with rx := huntReceiver }) := by
    simp only [settleReception]
  rw [hexec, whenRunning, if_pos hphase, htaken, hsettled, State.setFeed]

/-- What the sequence check and the offer to the intake queue leave as it was, and of a gap that was owed. -/
structure ArrivalKeeps (body : List Byte) (u t : State) : Prop where
  frame : t = { u with feed := t.feed, mgmt := t.mgmt, intake := t.intake }
  feedState : t.feed.feedState = u.feed.feedState
  rx : t.feed.rx = u.feed.rx
  gap : u.feed.gapOwed = true → t.feed.gapOwed = true ∨ t.intake = u.intake ++ [{ body := body, gapBefore := true }]

/-- The sequence check (R43). -/
theorem arrivalKeeps_of_sequenceChecked {body : List Byte} {u v : State} (h : sequenceChecked body u = some v) :
    ArrivalKeeps body u v ∧ v.intake = u.intake ∧ (u.feed.gapOwed = true → v.feed.gapOwed = true) := by
  simp only [sequenceChecked] at h
  split at h
  · split at h
    · obtain rfl := Option.some.inj h
      exact ⟨⟨rfl, rfl, rfl, .inl⟩, rfl, id⟩
    · obtain rfl := Option.some.inj h
      exact ⟨⟨rfl, rfl, rfl, fun _ => .inl rfl⟩, rfl, fun _ => rfl⟩
    · cases h
  · obtain rfl := Option.some.inj h
    exact ⟨⟨rfl, rfl, rfl, .inl⟩, rfl, id⟩

/-- The offer to the intake queue (R46, R47). -/
theorem arrivalKeeps_offerIntake (body : List Byte) (u : State) : ArrivalKeeps body u (offerIntake body u) := by
  simp only [offerIntake]
  split
  · refine ⟨rfl, rfl, rfl, fun h => .inr ?_⟩
    show u.intake ++ [{ body := body, gapBefore := u.feed.gapOwed }] = _
    rw [h]
  · exact ⟨rfl, rfl, rfl, fun _ => .inl rfl⟩

/-- What follows the first step of an arrival. -/
theorem arrivalKeeps_arrive (body : List Byte) (s : State) : ArrivalKeeps body (arrivalSeen s) (arrive body s) := by
  simp only [arrive]
  generalize arrivalSeen s = u
  cases h : sequenceChecked body u with
  | none => exact ⟨rfl, rfl, rfl, .inl⟩
  | some v =>
    obtain ⟨hv, hintake, hgap⟩ := arrivalKeeps_of_sequenceChecked h
    dsimp only
    split
    · have ht := arrivalKeeps_offerIntake body v
      refine ⟨?_, ht.feedState.trans hv.feedState, ht.rx.trans hv.rx, fun hu => hintake ▸ ht.gap (hgap hu)⟩
      rw [ht.frame, hv.frame]
    · exact hv

/-- The state in which the return of the feed is handed on. -/
def feedBack (s : State) : State :=
  { s with feed := { s.feed with
      rx := huntReceiver, silence := silenceTimer s, gapOwed := s.feed.gapOwed || feedLost s, feedState := .running } }

/-- The first step of an arrival out of NOT_YET and LOST: the feed RUNNING, the STATUS slots and the status lines
marked (R42, R54). -/
theorem arrivalSeen_eq {s : State} (h : s.feed.feedState ≠ .running) :
    arrivalSeen { s with feed := { s.feed with rx := huntReceiver } }
      = { markedBoards statusMark (feedBack s) with line := lineWithStatus s.line } := by
  simp only [arrivalSeen, setFeedState, State.setFeed, h, if_false, handFeedState, reduceCtorEq, markStatus_eq]
  rfl

/-- What a frame's arrival out of NOT_YET and LOST comes to. -/
theorem feedReturns {s t : State} {body : List Byte} (h : s.feed.feedState ≠ .running)
    (ht : ArrivalKeeps body (arrivalSeen { s with feed := { s.feed with rx := huntReceiver } }) t) :
    t.feed.feedState = .running ∧ t.records = s.records ∧ t.feed.rx = huntReceiver ∧ FeedStateShown s t
      ∧ (s.feed.feedState = .lost →
        t.feed.gapOwed = true ∨ t.intake = s.intake ++ [{ body := body, gapBefore := true }]) := by
  rw [arrivalSeen_eq h] at ht
  have hmarked := boardsMarked_markedBoards statusMark (feedBack s)
  have hm := markedBoards_frame statusMark (feedBack s)
  generalize markedBoards statusMark (feedBack s) = m at *
  obtain ⟨hframe, hfeedState, hrx, hgap⟩ := ht
  have hfeed : m.feed = (feedBack s).feed := by rw [hm]
  have hrecords : m.records = s.records := by rw [hm]; rfl
  have hintake : m.intake = s.intake := by rw [hm]; rfl
  have hstate : t.feed.feedState = .running := hfeedState.trans (congrArg Feed.feedState hfeed)
  refine ⟨hstate, ?_, hrx.trans (congrArg Feed.rx hfeed), ⟨fun hrunning => absurd hrunning h, fun _ => ⟨?_, ?_⟩⟩,
    fun hlost => ?_⟩
  · rw [hframe]
    exact hrecords
  · rw [hframe]
  · have hshown : SameShown { s with feed := t.feed } (feedBack s) := ⟨rfl, hstate.symm, rfl, rfl, rfl, rfl, rfl, rfl⟩
    have hboards := boardsMarked_of_sameShown hshown hmarked
    rw [hframe]
    exact hboards
  · have howed : m.feed.gapOwed = true := by
      rw [hfeed]
      simp [feedBack, feedLost, hlost]
    exact hintake ▸ hgap howed

/-- An alert set for the loss stands after it. -/
theorem alertIn_feedLost (s : State) : alertIn .feedLost
    (offerText false textFeedInterrupted { s with mgmt := alertSet .feedLost s.mgmt }).mgmt.alertStatus = true := by
  apply alertIn_offerText
  show alertIn .feedLost (alertSet .feedLost s.mgmt).alertStatus = true
  rw [alertIn_alertSet]
  rfl

/-- The marks of the loss change the records, the boards and the line alone. -/
theorem feedGone_frame (s : State) :
    let t := markedBoards statusMark (markAllStale (feedGone s))
    t = { feedGone s with records := t.records, chains := t.chains, slots := t.slots, line := t.line }
      ∧ ∀ n, tableGet t.records n = (tableGet s.records n).map (fun r => { r with stale := true }) := by
  intro t
  have hmarked : t = { markAllStale (feedGone s) with chains := t.chains, slots := t.slots } :=
    markedBoards_frame statusMark (markAllStale (feedGone s))
  have hstale := markAllStale_frame (feedGone s)
  have hrecords := tableGet_markAllStale (feedGone s)
  clear_value t
  generalize markAllStale (feedGone s) = v at hmarked hstale hrecords
  constructor
  · rw [hmarked, hstale]
  · rw [hmarked]
    exact hrecords

/-- Settles O7: the loss is the marks of `feedGone_boards`; the return is the first step of an arrival. -/
theorem feedLossAndReturn : Obligations.FeedLossAndReturn := by
  unfold Obligations.FeedLossAndReturn
  intro s hphase
  refine ⟨fun k hk => ?_, fun low harrives hstate => ?_⟩
  · have hexec : exec .silenceTimerExpiry s = whenRunning silenceExpire s := rfl
    rw [hexec, whenRunning, if_pos hphase, silenceExpire_eq (by rw [hk]; rfl)]
    obtain ⟨honly, hstatus, hfresh, hstand, hturns⟩ := feedGone_boards s
    obtain ⟨hframe, hrecords⟩ := feedGone_frame s
    generalize markedBoards statusMark (markAllStale (feedGone s)) = m at *
    have hfeed : m.feed = { s.feed with feedState := .lost, silence := none } := congrArg State.feed hframe
    refine ⟨_, rfl, hfeed, rfl, alertIn_feedLost s, fun n r hr => ?_, fun n hnone => ?_, rfl, rfl, honly, hstatus, hfresh,
      hstand, fun hnodup => ?_, ?_⟩
    · exact (hrecords n).trans (by rw [hr]; rfl)
    · exact (hrecords n).trans (by rw [hnone]; rfl)
    · rw [← hfeed] at hturns
      exact hturns hnodup
    · rw [hframe]
      rfl
  · rw [exec_feedFrameReceived_arrives harrives]
    obtain ⟨hrunning, hrecords, hrx, hshown, hgap⟩ :=
      feedReturns hstate (arrivalKeeps_arrive s.feed.rx.body { s with feed := { s.feed with rx := huntReceiver } })
    exact ⟨_, rfl, hrunning, hrecords, hrx, hshown, hgap⟩

end Sys2Proof.Machine

namespace Sys2Proof.Machine

open Sys2Proof.Safety

/-! ## What a selection reads (R139, R160) -/

/-- Two states in which a selection reads the same. -/
structure SameServed (v w : State) : Prop where
  line : w.line = v.line
  records : w.records = v.records
  time : w.time = v.time
  feedState : w.feed.feedState = v.feed.feedState
  level : w.ticker.level = v.ticker.level
  lateMinutes : w.ticker.lateMinutes = v.ticker.lateMinutes
  params : w.mgmt.params = v.mgmt.params

namespace SameServed

variable {v w : State}

theorem statusItem_eq (h : SameServed v w) : statusItem w = statusItem v := by
  simp only [statusItem, h.time, h.feedState, h.level, h.lateMinutes]

theorem rowItem_eq (h : SameServed v w) (i : Fin 16) (r : Row) : rowItem w i r = rowItem v i r := by
  simp only [rowItem, h.records]

theorem composeUpdate_eq (h : SameServed v w) (t : Terminal) : composeUpdate w t = composeUpdate v t := by
  have hrow : composeRow w = composeRow v := by
    funext c i
    simp only [composeRow, h.rowItem_eq]
  simp only [composeUpdate, updateHead, h.statusItem_eq, hrow]

theorem setTerm (h : SameServed v w) (t : TermId) (term : Terminal) : SameServed (v.setTerm t term) (w.setTerm t term) :=
  { h with line := by simp only [State.setTerm, State.setLine, h.line] }

theorem beginTransaction_line (h : SameServed v w) (t : TermId) (kind : PrimaryKind) (body : List Byte) :
    (beginTransaction t kind body w).line = (beginTransaction t kind body v).line := by
  simp only [beginTransaction, State.setLine, h.line, h.params]

/-- The same terminal is served alike. -/
theorem serve_line (h : SameServed v w) (t : TermId) : (serve t w).line = (serve t v).line := by
  cases hstate : (v.line.terminals[t]).state
  all_goals simp only [serve, h.line, hstate]
  case absent => exact (h.setTerm t _).beginTransaction_line t .activate []
  case activating => exact h.beginTransaction_line t .screenInit _
  case active =>
    cases hpending : hasPending v.line.terminals[t]
    · exact h.beginTransaction_line t .poll []
    · rw [h.composeUpdate_eq]
      exact (h.setTerm t _).beginTransaction_line t .update _
  case recovery => exact h.beginTransaction_line t .enquiry []

/-- A selection does alike at the line. -/
theorem select_line (h : SameServed v w) : (select w).line = (select v).line := by
  simp only [select, h.line]
  cases v.line.transaction.isNone && !timerRuns v.line.gap
  · exact h.line
  · cases nextTerminal v.line
    · exact h.line
    · exact h.serve_line _

end SameServed

/-! ## The session change of a new morning (R64, R65, R140) -/

/-- The ticker as the morning finds it: RUNNING, its counts and its epoch as they were. -/
structure TickerWakes (before after : Ticker) : Prop where
  state : after.state = .running
  level : after.level = before.level
  lateMinutes : after.lateMinutes = before.lateMinutes
  epoch : after.epoch = before.epoch

/-- The ticker's part of a PRE_OPEN out of CLOSED. -/
theorem tickerSession_preOpen (v : State) :
    TickerWakes v.ticker (tickerSession .closed .preOpen v).ticker
      ∧ tickerSession .closed .preOpen v = { v with ticker := (tickerSession .closed .preOpen v).ticker } := by
  simp only [tickerSession, true_and, true_or, if_true]
  split
  · exact ⟨⟨rfl, rfl, rfl, rfl⟩, rfl⟩
  · exact ⟨⟨rfl, rfl, rfl, rfl⟩, rfl⟩

/-- The line's part: the status lines, the end of the night poll gap and the selection it brings. -/
theorem lineSession_closed (v : State) : lineSession .closed v
    = { v with line := (select { v with line := { lineWithStatus v.line with gap := none } }).line } := by
  have h : lineSession .closed v = select { v with line := { lineWithStatus v.line with gap := none } } := by
    simp only [lineSession, if_true, nightEnds]
    rfl
  rw [h, select_frame]

/-- The hand-off of a PRE_OPEN out of CLOSED, told whole. -/
theorem handSession_preOpen (v : State) : ∃ after, TickerWakes v.ticker after
    ∧ handSession .closed .preOpen v = { markedBoards statusMark v with
      ticker := after, line := (select { v with line := { lineWithStatus v.line with gap := none } }).line } := by
  obtain ⟨hwakes, hticker⟩ := tickerSession_preOpen (markedBoards statusMark v)
  refine ⟨_, hwakes, ?_⟩
  rw [handSession, markStatus_eq, hticker, lineSession_closed]
  generalize (tickerSession .closed .preOpen (markedBoards statusMark v)).ticker = after at *
  have hserved : SameServed { v with line := { lineWithStatus v.line with gap := none } }
      { markedBoards statusMark v with ticker := after, line := { lineWithStatus v.line with gap := none } } :=
    ⟨rfl, rfl, rfl, rfl, hwakes.level, hwakes.lateMinutes, rfl⟩
  have hline := hserved.select_line
  have hm : (markedBoards statusMark v).line = v.line := rfl
  generalize markedBoards statusMark v = m at *
  simp only [hm, hline]

/-! ## The day reset of the records (R22) -/

theorem feedLost_eq (s : State) : feedLost s = decide (s.feed.feedState = .lost) := rfl

/-- The day reset of one record, DEFINED or EMPTY. -/
theorem dayResetOne_of_some {v : State} {n : Nat} {r : QuoteRecord} (h : tableGet v.records n = some r) :
    dayResetOne v n = updateRecord n (dayRecord (decide (v.feed.feedState = .lost)) r) allNames v := by
  simp only [dayResetOne, h, dayResetRecord_eq, feedLost_eq]

theorem dayResetOne_of_none {v : State} {n : Nat} (h : tableGet v.records n = none) : dayResetOne v n = v := by
  simp only [dayResetOne, h]

/-- It changes the records, the boards and the line alone. -/
theorem dayResetOne_frame (v : State) (n : Nat) : dayResetOne v n
    = { v with records := (dayResetOne v n).records, chains := (dayResetOne v n).chains,
               slots := (dayResetOne v n).slots, line := (dayResetOne v n).line } := by
  cases h : tableGet v.records n with
  | none => rw [dayResetOne_of_none h]
  | some r =>
    rw [dayResetOne_of_some h]
    have hframe := updateRecord_frame n (dayRecord (decide (v.feed.feedState = .lost)) r) allNames v
    generalize updateRecord n (dayRecord (decide (v.feed.feedState = .lost)) r) allNames v = t at hframe ⊢
    rw [hframe]

theorem dayResetOne_mgmt (v : State) (n : Nat) : (dayResetOne v n).mgmt = v.mgmt := by
  rw [dayResetOne_frame]

theorem recordsDayReset_fold_frame (ns : List Nat) : ∀ v : State, ns.foldl dayResetOne v
    = { v with records := (ns.foldl dayResetOne v).records, chains := (ns.foldl dayResetOne v).chains,
               slots := (ns.foldl dayResetOne v).slots, line := (ns.foldl dayResetOne v).line } := by
  induction ns with
  | nil => exact fun _ => rfl
  | cons n rest ih =>
    intro v
    have hone := dayResetOne_frame v n
    have hrest := ih (dayResetOne v n)
    rw [List.foldl_cons]
    generalize rest.foldl dayResetOne (dayResetOne v n) = t at hrest ⊢
    rw [hrest, hone]

/-- The day reset of the records changes the records, the boards and the line alone. -/
theorem recordsDayReset_frame (s : State) : recordsDayReset s
    = { s with records := (recordsDayReset s).records, chains := (recordsDayReset s).chains,
               slots := (recordsDayReset s).slots, line := (recordsDayReset s).line } :=
  recordsDayReset_fold_frame (definedNumbers s) s

/-- The records after the day reset of one. -/
theorem tableGet_dayResetOne (v : State) (n m : Nat) : tableGet (dayResetOne v n).records m
    = (tableGet v.records m).map (fun r => if m = n then dayRecord (decide (v.feed.feedState = .lost)) r else r) := by
  cases h : tableGet v.records n with
  | none =>
    rw [dayResetOne_of_none h]
    by_cases hm : m = n
    · subst hm
      rw [h]
      rfl
    · simp [hm]
  | some r =>
    rw [dayResetOne_of_some h, updateRecord_records]
    by_cases hm : m = n
    · subst hm
      rw [tableGet_tableSet_self, h]
      simp
    · rw [tableGet_tableSet_of_ne _ _ hm]
      simp [hm]

/-- The records after the day reset of a run of them. -/
theorem tableGet_foldl_dayResetOne (m : Nat) (ns : List Nat) : ∀ v : State, ns.Nodup →
    tableGet (ns.foldl dayResetOne v).records m = (tableGet v.records m).map
      (fun r => if m ∈ ns then dayRecord (decide (v.feed.feedState = .lost)) r else r) := by
  induction ns with
  | nil => intro v _; simp
  | cons n rest ih =>
    intro v hnodup
    obtain ⟨hnot, hrest⟩ := List.nodup_cons.mp hnodup
    have hfeed : (dayResetOne v n).feed = v.feed := by rw [dayResetOne_frame]
    rw [List.foldl_cons, ih _ hrest, tableGet_dayResetOne, Option.map_map, hfeed]
    congr 1
    funext r
    by_cases hm : m = n
    · subst hm
      simp [hnot]
    · simp [hm]

/-- The records after the day reset (R22). -/
theorem tableGet_recordsDayReset {s : State} (h : (s.records.map Prod.fst).Nodup) (m : Nat) :
    tableGet (recordsDayReset s).records m
      = (tableGet s.records m).map (dayRecord (decide (s.feed.feedState = .lost))) := by
  rw [recordsDayReset, tableGet_foldl_dayResetOne m (definedNumbers s) s h]
  cases hr : tableGet s.records m with
  | none => rfl
  | some r =>
    have hm : m ∈ definedNumbers s := (tableGet_isSome s.records m).mp (by rw [hr]; rfl)
    simp [hm]

/-- The rows after the day reset of one record. -/
theorem dayResetOne_line (v : State) (n : Nat) : (dayResetOne v n).line = lineWithRows (rowGains allNames
    (fun m => decide (m = n) && (tableGet v.records m).isSome)) v.line := by
  cases h : tableGet v.records n with
  | none =>
    rw [dayResetOne_of_none h]
    have hnone : (fun m => decide (m = n) && (tableGet v.records m).isSome) = fun _ => false := by
      funext m
      by_cases hm : m = n <;> simp_all
    rw [hnone]
    exact (lineWithRows_self (fun row => by simp [rowGains]) v.line).symm
  | some r =>
    rw [dayResetOne_of_some h, updateRecord_line, lineWithNames_eq]
    congr 2
    funext m
    by_cases hm : m = n <;> simp_all

/-- The rows after the day reset of the records (R22, R157). -/
theorem recordsDayReset_line (s : State) : (recordsDayReset s).line
    = lineWithRows (rowGains allNames (fun n => (tableGet s.records n).isSome)) s.line := by
  have hsome (v : State) (n m : Nat) : (tableGet (dayResetOne v n).records m).isSome = (tableGet v.records m).isSome := by
    rw [tableGet_dayResetOne, Option.isSome_map]
  have hothers (v : State) (n m : Nat) (hm : m ≠ n) :
      tableGet (dayResetOne v n).records m = tableGet v.records m := by
    rw [tableGet_dayResetOne]
    simp [hm]
  rw [recordsDayReset, foldl_line (test := Option.isSome) dayResetOne_line hothers (fun v n h => (hsome v n n).symm.trans h)]
  congr 2
  funext n
  simp only [definedNumbers, ← tableGet_isSome]
  cases tableGet s.records n <;> rfl

theorem dayResetOne_advance (v : State) (n : Nat) : BoardsAdvance v (dayResetOne v n) := by
  cases h : tableGet v.records n with
  | none =>
    rw [dayResetOne_of_none h]
    exact .refl v
  | some r =>
    rw [dayResetOne_of_some h]
    exact updateRecord_advance n _ (by decide) v

theorem recordsDayReset_advance (s : State) : BoardsAdvance s (recordsDayReset s) :=
  BoardsAdvance.foldl dayResetOne_advance (definedNumbers s) s

/-! ## The flashes that the change sets start (R98) -/

/-- The flash of a slot where a change set with LAST has come for each record of the kind p. -/
def flashWhere (p : Nat → Bool) (period : Nat) (kind : SlotKind) (before : Timer) : Timer :=
  match kind with
  | .quote n _ _ _ flash => if flash = true ∧ p n = true ∧ period ≠ 0 then some (period * 100) else before
  | .message _ _ => before
  | .clock => before
  | .status => before

/-- Every slot keeps its description, and has the flash that such change sets give it. -/
def FlashesWhere (p : Nat → Bool) (period : Nat) (u t : State) : Prop :=
  ∀ n sl, tableGet u.slots n = some sl → ∃ sl', tableGet t.slots n = some sl'
    ∧ description sl' = description sl ∧ sl'.flash = flashWhere p period sl.kind sl.flash

theorem flashWhere_false (period : Nat) (kind : SlotKind) (before : Timer) :
    flashWhere (fun _ => false) period kind before = before := by
  cases kind <;> simp [flashWhere]

theorem flashWhere_flashWhere (p q : Nat → Bool) (period : Nat) (kind : SlotKind) (before : Timer) :
    flashWhere p period kind (flashWhere q period kind before) = flashWhere (fun n => q n || p n) period kind before := by
  cases kind with
  | quote n _ _ _ flash => grind [flashWhere]
  | message _ _ => rfl
  | clock => rfl
  | status => rfl

theorem FlashesWhere.trans {p q : Nat → Bool} {period : Nat} {u v w : State} (h : FlashesWhere q period u v)
    (h' : FlashesWhere p period v w) : FlashesWhere (fun n => q n || p n) period u w := by
  intro n sl hsl
  obtain ⟨mid, hmid, hd, hf⟩ := h n sl hsl
  obtain ⟨sl', hsl', hd', hf'⟩ := h' n mid hmid
  refine ⟨sl', hsl', hd'.trans hd, ?_⟩
  rw [hf', hf, kind_eq_of_description hd, flashWhere_flashWhere]

/-- Slots that stay as they are. -/
theorem flashesWhere_of_eq {u t : State} (period : Nat) (h : t.slots = u.slots) :
    FlashesWhere (fun _ => false) period u t :=
  fun n sl hsl => ⟨sl, by rw [h, hsl], rfl, (flashWhere_false period sl.kind sl.flash).symm⟩

theorem FlashesWhere.with_slots {p : Nat → Bool} {period : Nat} {u v t : State} (h : FlashesWhere p period u v)
    (ht : t.slots = v.slots) : FlashesWhere p period u t := by
  intro n sl hsl
  rw [ht]
  exact h n sl hsl

/-- A mark, by the flash that it gives. -/
theorem flashesWhere_of_marksStand {mark : Slot → Slot} {p : Nat → Bool} {period : Nat} {u t : State}
    (h : MarksStand mark u t) (hflash : ∀ sl, (mark sl).flash = flashWhere p period sl.kind sl.flash) :
    FlashesWhere p period u t := by
  intro n sl hsl
  obtain ⟨sl', hsl', hd, hf, -⟩ := h n sl hsl
  exact ⟨sl', hsl', hd, hf.trans (hflash sl)⟩

theorem quoteMark_allNames_flash (n period : Nat) (sl : Slot) : (quoteMark n allNames period sl).flash
    = flashWhere (fun m => decide (m = n)) period sl.kind sl.flash := by
  obtain ⟨_, _, kind, _, _⟩ := sl
  cases kind with
  | quote m _ _ _ flash =>
    have hlast : ¬ allNames &&& 4#12 = 0#12 := by decide
    by_cases hm : m = n <;> cases flash <;> by_cases hp : period = 0 <;> simp [quoteMark, flashWhere, hm, hp, hlast]
  | message _ _ => rfl
  | clock => rfl
  | status => rfl

theorem statusMark_flash (period : Nat) (sl : Slot) :
    (statusMark sl).flash = flashWhere (fun _ => false) period sl.kind sl.flash := by
  rw [flashWhere_false]
  simp only [statusMark]
  split <;> rfl

theorem flashesWhere_statusMark (period : Nat) (v : State) :
    FlashesWhere (fun _ => false) period v (markedBoards statusMark v) :=
  flashesWhere_of_marksStand (marksStand_marked marks_statusMark v) (statusMark_flash period)

/-- The flashes after the day reset of one record. -/
theorem flashesWhere_dayResetOne (v : State) (n : Nat) : FlashesWhere
    (fun m => decide (m = n) && (tableGet v.records m).isSome) (param v 5) v (dayResetOne v n) := by
  cases h : tableGet v.records n with
  | none =>
    have hnone : (fun m => decide (m = n) && (tableGet v.records m).isSome) = fun _ => false := by
      funext m
      by_cases hm : m = n <;> simp_all
    rw [dayResetOne_of_none h, hnone]
    exact flashesWhere_of_eq _ rfl
  | some r =>
    have hsome : (fun m => decide (m = n) && (tableGet v.records m).isSome) = fun m => decide (m = n) := by
      funext m
      by_cases hm : m = n <;> simp_all
    rw [dayResetOne_of_some h, hsome]
    obtain ⟨-, hslots⟩ := updateRecord_boards_eq n (dayRecord (decide (v.feed.feedState = .lost)) r) (names := allNames)
      (by decide) v
    have hmarked := flashesWhere_of_marksStand (marksStand_marked (marks_quoteMark n allNames (param v 5))
      { v with records := tableSet v.records n (dayRecord (decide (v.feed.feedState = .lost)) r) })
      (quoteMark_allNames_flash n (param v 5))
    exact hmarked.with_slots hslots

/-- The flashes after the day reset of a run of records. -/
theorem flashesWhere_foldl_dayResetOne (ns : List Nat) : ∀ v : State, FlashesWhere
    (fun m => decide (m ∈ ns) && (tableGet v.records m).isSome) (param v 5) v (ns.foldl dayResetOne v) := by
  induction ns with
  | nil => exact fun v => flashesWhere_of_eq (param v 5) rfl
  | cons n rest ih =>
    intro v
    have hone := flashesWhere_dayResetOne v n
    have hrest := ih (dayResetOne v n)
    have hparam : param (dayResetOne v n) 5 = param v 5 := by simp only [param, dayResetOne_mgmt]
    rw [hparam] at hrest
    have hp : (fun m => decide (m ∈ n :: rest) && (tableGet v.records m).isSome)
        = fun m => (decide (m = n) && (tableGet v.records m).isSome)
          || (decide (m ∈ rest) && (tableGet (dayResetOne v n).records m).isSome) := by
      funext m
      simp only [tableGet_dayResetOne, Option.isSome_map, List.mem_cons, Bool.decide_or, Bool.and_or_distrib_right]
    rw [List.foldl_cons, hp]
    exact hone.trans hrest

theorem flashesWhere_recordsDayReset (s : State) :
    FlashesWhere (fun m => (tableGet s.records m).isSome) (param s 5) s (recordsDayReset s) := by
  have hp : (fun m => decide (m ∈ definedNumbers s) && (tableGet s.records m).isSome)
      = fun m => (tableGet s.records m).isSome := by
    funext m
    simp only [definedNumbers, ← tableGet_isSome]
    cases tableGet s.records m <;> rfl
  have h := flashesWhere_foldl_dayResetOne (definedNumbers s) s
  rw [hp] at h
  exact h

end Sys2Proof.Machine

namespace Sys2Proof.Machine

open Sys2Proof.Safety

/-! ## The day reset of the ticker and of the slots (R110, R131) -/

/-- The ticker after the day reset (R131). -/
def tickerOfDay (t : Ticker) : Ticker :=
  { t with queue := [], admitted := 0, printed := 0, merged := 0, omitted := 0, level := 0, lateMinutes := 0 }

theorem tickerDayReset_eq (s : State) : tickerDayReset s
    = if s.ticker.level = 0 then { s with ticker := tickerOfDay s.ticker }
      else { markedBoards statusMark { s with ticker := tickerOfDay s.ticker } with line := lineWithStatus s.line } := by
  simp only [tickerDayReset, handLevel, markStatus_eq]
  rfl

/-- What the day reset of the ticker brings about. -/
structure TickerReset (s t : State) : Prop where
  frame : t = { s with ticker := tickerOfDay s.ticker, chains := t.chains, slots := t.slots,
                       line := if s.ticker.level = 0 then s.line else lineWithStatus s.line }
  advance : BoardsAdvance s t
  flashes : ∀ period, FlashesWhere (fun _ => false) period s t

theorem tickerReset_tickerDayReset (s : State) : TickerReset s (tickerDayReset s) := by
  rw [tickerDayReset_eq]
  split
  · next h => exact ⟨by simp only [h, if_true], .of_eq rfl rfl, fun period => flashesWhere_of_eq period rfl⟩
  · next h =>
    have hticker : BoardsAdvance s { s with ticker := tickerOfDay s.ticker } := .of_eq rfl rfl
    have hmarked := markedBoards_advance marks_statusMark (fun _ => statusMark_mono)
      { s with ticker := tickerOfDay s.ticker }
    have hflashes (period : Nat) := flashesWhere_statusMark period { s with ticker := tickerOfDay s.ticker }
    have hframe := markedBoards_frame statusMark { s with ticker := tickerOfDay s.ticker }
    generalize markedBoards statusMark { s with ticker := tickerOfDay s.ticker } = m at *
    refine ⟨?_, (hticker.trans hmarked).trans (.of_eq rfl rfl), hflashes⟩
    rw [hframe]
    simp only [h, if_false]

/-- The mark of every slot. -/
def dirtyMark (sl : Slot) : Slot := { sl with dirty := true }

theorem marks_dirtyMark : Marks dirtyMark := ⟨fun _ => rfl, fun _ _ _ hf => hf⟩

/-! ## The SESSION PRE_OPEN of a new day (R22, R65, R110, R131) -/

/-- The state in which the session of the new day is handed on. -/
def dayBegun (u : State) : State := { u with time := { u.time with session := .preOpen } }

/-- A SESSION PRE_OPEN in CLOSED. -/
theorem applySession_preOpen {u : State} (h : u.time.session = .closed) :
    applySession .preOpen u = dayReset (handSession .closed .preOpen (dayBegun u)) := by
  simp only [applySession, h, sessionAfter, reduceCtorEq, if_false, if_true]
  rfl

/-- What the hand-off of the session leaves of the records, the line and the boards. -/
structure SessionHanded (u t : State) : Prop where
  frame : t = { dayBegun u with ticker := t.ticker, chains := t.chains, slots := t.slots, line := t.line }
  wakes : TickerWakes u.ticker t.ticker
  line : t.line = (select { dayBegun u with line := { lineWithStatus u.line with gap := none } }).line
  advance : BoardsAdvance u t
  flashes : ∀ period, FlashesWhere (fun _ => false) period u t

theorem sessionHanded_handSession (u : State) : SessionHanded u (handSession .closed .preOpen (dayBegun u)) := by
  obtain ⟨after, hwakes, heq⟩ := handSession_preOpen (dayBegun u)
  have hbegun : BoardsAdvance u (dayBegun u) := .of_eq rfl rfl
  have hmarked := hbegun.trans (markedBoards_advance marks_statusMark (fun _ => statusMark_mono) (dayBegun u))
  have hflashes (period : Nat) := flashesWhere_statusMark period (dayBegun u)
  have hframe := markedBoards_frame statusMark (dayBegun u)
  rw [heq]
  generalize markedBoards statusMark (dayBegun u) = m at *
  exact ⟨by rw [hframe], hwakes, rfl, hmarked.trans (.of_eq rfl rfl), hflashes⟩

/-- The state after the records and the ticker of the new day, before the last mark. -/
def dayCleared (h : State) : State := tickerDayReset (recordsDayReset h)

theorem dayReset_eq (h : State) : dayReset h = markedBoards dirtyMark (dayCleared h) := markAllSlots_eq _

/-- What the day reset of the records and of the ticker leaves. -/
structure DayCleared (u t : State) : Prop where
  records : ∀ n, tableGet t.records n = (tableGet u.records n).map (dayRecord (decide (u.feed.feedState = .lost)))
  line : t.line = lineWithDayReset u (select { dayBegun u with line := { lineWithStatus u.line with gap := none } }).line
  time : t.time = (dayBegun u).time
  intake : t.intake = u.intake
  ticker : ∃ after, TickerWakes u.ticker after ∧ t.ticker = tickerOfDay after
  advance : BoardsAdvance u t
  flashes : FlashesWhere (fun n => (tableGet u.records n).isSome) (param u 5) u t

theorem dayCleared_handSession {u : State} (hnodup : (u.records.map Prod.fst).Nodup) :
    DayCleared u (dayCleared (handSession .closed .preOpen (dayBegun u))) := by
  have hs := sessionHanded_handSession u
  simp only [dayCleared]
  generalize handSession .closed .preOpen (dayBegun u) = h at hs ⊢
  have hrecords : h.records = u.records := by rw [hs.frame]; rfl
  have hfeed : h.feed = u.feed := by rw [hs.frame]; rfl
  have hmgmt : h.mgmt = u.mgmt := by rw [hs.frame]; rfl
  have htime : h.time = (dayBegun u).time := by rw [hs.frame]
  have hintake : h.intake = u.intake := by rw [hs.frame]; rfl
  have hget := tableGet_recordsDayReset (s := h) (by rw [hrecords]; exact hnodup)
  have hline := recordsDayReset_line h
  have hframe := recordsDayReset_frame h
  have hadvance := hs.advance.trans (recordsDayReset_advance h)
  have hparam : param h 5 = param u 5 := by simp only [param, hmgmt]
  have hflashes := (hs.flashes (param h 5)).trans (flashesWhere_recordsDayReset h)
  rw [hrecords] at hget hline hflashes
  rw [hfeed] at hget
  rw [hparam] at hflashes
  generalize recordsDayReset h = c at *
  have ht := tickerReset_tickerDayReset c
  generalize tickerDayReset c = t at ht ⊢
  have hticker : c.ticker = h.ticker := by rw [hframe]
  refine ⟨fun n => ?_, ?_, ?_, ?_, ⟨h.ticker, hs.wakes, ?_⟩, hadvance.trans ht.advance, ?_⟩
  · rw [ht.frame]
    exact hget n
  · have hl : t.line = if c.ticker.level = 0 then c.line else lineWithStatus c.line := by rw [ht.frame]
    rw [hl, hline, hticker, hs.wakes.level, hs.line]
    rfl
  · rw [ht.frame, hframe]
    exact htime
  · rw [ht.frame, hframe]
    exact hintake
  · rw [ht.frame, hticker]
  · have hall := hflashes.trans (ht.flashes (param u 5))
    simpa only [Bool.false_or, Bool.or_false] using hall

/-- The last mark, of every slot: what it comes to since the state before (R98, R110). -/
theorem dayMarks_stand {u d : State} (h : DayCleared u d) : MarksStand (dayMark u) u (markedBoards dirtyMark d) := by
  intro n sl hsl
  obtain ⟨mid, hmid, hd, hf⟩ := h.flashes n sl hsl
  obtain ⟨sl', hsl', hd', hf', hs'⟩ := marksStand_marked marks_dirtyMark d n mid hmid
  have hmark : dayMark u sl = { sl with dirty := true, flash := mid.flash } := by
    rw [hf]
    obtain ⟨_, _, kind, _, _⟩ := sl
    cases kind <;> rfl
  refine ⟨sl', hsl', hd'.trans hd, by rw [hmark]; exact hf', fun hbusy => ?_⟩
  rw [hmark]
  obtain ⟨_, _, _, _, _⟩ := mid
  obtain ⟨_, _, _, _, _⟩ := sl
  simp only [description, Prod.mk.injEq] at hd
  obtain ⟨rfl, rfl, rfl⟩ := hd
  exact hs' fun hidle => hbusy ((h.advance.busy hbusy).state_eq.symm.trans hidle)

theorem dayMarks_reach {u d : State} (h : DayCleared u d) : MarkReaches (fun _ => True) u (markedBoards dirtyMark d) := by
  have hmarked := markedBoards_advance marks_dirtyMark (fun _ _ => rfl) d
  have hdirty := markedBoards_dirty (kind := fun _ => True) marks_dirtyMark (fun _ _ => rfl) d
  exact (h.advance.trans hmarked).markReaches (h.advance.dirty_right hmarked hdirty) (markedBoards_settled dirtyMark d)

/-- Settles O17: the session handed on, the records and the ticker reset, and every slot marked. -/
theorem dayResetResets : Obligations.DayResetResets := by
  unfold Obligations.DayResetResets
  intro s e rest u hhead hq hclosed hnodup
  have hcleared := dayCleared_handSession hnodup
  have hturns : BoardsMarkedInTurn (dayTurns u) (dayBegun u) (dayReset (handSession .closed .preOpen (dayBegun u))) :=
    preOpen_turns hnodup
  have happly : applyItems sessionItems applySession e.body u
      = markedBoards dirtyMark (dayCleared (handSession .closed .preOpen (dayBegun u))) := by
    rw [applyItems_of_some hq, applySession_preOpen hclosed, dayReset_eq]
  have hstand := dayMarks_stand hcleared
  have hreach := dayMarks_reach hcleared
  obtain ⟨hrecords, hline, htime, hintake, ⟨after, hwakes, hticker⟩, -, -⟩ := hcleared
  rw [dayReset_eq] at hturns
  generalize dayCleared (handSession .closed .preOpen (dayBegun u)) = d at *
  have hframe := markedBoards_frame dirtyMark d
  generalize markedBoards dirtyMark d = m at *
  have hmrecords : m.records = d.records := by rw [hframe]
  have hmline : m.line = d.line := by rw [hframe]
  have hmtime : m.time = (dayBegun u).time := by rw [hframe]; exact htime
  have hmticker : m.ticker = tickerOfDay after := by rw [hframe]; exact hticker
  have hmintake : m.intake = u.intake := by rw [hframe]; exact hintake
  have hexec := whenRunning_takeHead hhead (apply := applyItems sessionItems applySession) (by rw [happly]; exact hmintake)
  rw [happly] at hexec
  refine ⟨m.setIntake rest, hexec, fun n r hr => ?_, fun n hnone => ?_, hreach, hstand, ?_, ?_, ?_⟩
  · show tableGet m.records n = _
    rw [hmrecords, hrecords, hr]
    rfl
  · show tableGet m.records n = _
    rw [hmrecords, hrecords, hnone]
    rfl
  · show BoardsMarkedInTurn (dayTurns u) { u with time := m.time } _
    rw [hmtime]
    exact hturns
  · show m.line = lineWithDayReset u (select { u with time := m.time, line := _ }).line
    rw [hmtime, hmline, hline]
    rfl
  · simp only [setIntake_ticker, hmticker]
    exact ⟨rfl, rfl, rfl, rfl, rfl, rfl, rfl, hwakes.epoch, hwakes.state⟩

end Sys2Proof.Machine

namespace Sys2Proof.Machine

open Sys2Proof.Safety

/-! ## Rounding (R23 to R25) -/

theorem denomValue_pos (d : Denom) : 0 < denomValue d := by
  cases d <;> decide

theorem roundNumerator_lt (d : Denom) (m : Nat) : roundNumerator d m < denomValue d :=
  Nat.mod_lt _ (denomValue_pos d)

/-- R24: q is the nearest multiple, and at a half way the one above. -/
theorem roundUnits_nearest (d : Denom) (m : Nat) :
    2 * m < (2 * roundUnits d m + 1) * denomStep d ∧ 2 * roundUnits d m * denomStep d ≤ 2 * m + denomStep d := by
  cases d
  · have hq : roundUnits .eighths m = (m + 16) / 32 := rfl
    have hs : denomStep .eighths = 32 := rfl
    rw [hq, hs]
    omega
  · have hq : roundUnits .sixteenths m = (m + 8) / 16 := rfl
    have hs : denomStep .sixteenths = 16 := rfl
    rw [hq, hs]
    omega

/-- The whole part and the numerator together are q. -/
theorem roundWhole_roundNumerator (d : Denom) (m : Nat) :
    roundWhole d m * denomValue d + roundNumerator d m = roundUnits d m :=
  Nat.div_add_mod' _ _

/-- R25: the reduced fraction has the value in sixteenths that the numerator over d has. -/
theorem glyphOf_toNat (d : Denom) {n : Nat} (hn : n < denomValue d) (h0 : n ≠ 0) :
    (glyphOf d n).toNat * denomValue d = n * 16 := by
  cases d
  · have hall : ∀ k : Fin 8, k.val ≠ 0 → (glyphOf .eighths k.val).toNat * 8 = k.val * 16 := by decide
    exact hall ⟨n, hn⟩ h0
  · have hall : ∀ k : Fin 16, k.val ≠ 0 → (glyphOf .sixteenths k.val).toNat * 16 = k.val * 16 := by decide
    exact hall ⟨n, hn⟩ h0

/-! ## Price fields (R23) -/

/-- A price field of a good form converts exactly: the denominator divides 256. -/
theorem priceField_of_good {whole code numerator : Nat} (hw : whole ≤ 9999) (h1 : 1 ≤ code) (h8 : code ≤ 8)
    (hn : numerator < 2 ^ code) :
    ∃ units, priceField whole code numerator = .units units
      ∧ units * 2 ^ code = (whole * 2 ^ code + numerator) * 256 ∧ units ≤ 2559999 := by
  have hmarker : whole ≠ 0xFFFF := by omega
  have hstep : 256 / 2 ^ code * 2 ^ code = 256 := Nat.div_mul_cancel (pow_dvd_pow 2 h8)
  generalize hs : 256 / 2 ^ code = step at hstep
  have hpart : numerator * step < 256 := by
    have hpos : 0 < step := Nat.pos_of_ne_zero (by rintro rfl; omega)
    calc numerator * step < 2 ^ code * step := Nat.mul_lt_mul_of_pos_right hn hpos
      _ = 256 := by rw [Nat.mul_comm, hstep]
  refine ⟨whole * 256 + numerator * step, ?_, ?_, by omega⟩
  · rw [priceField, if_neg hmarker, if_pos ⟨hw, h1, h8, hn⟩, hs]
  · rw [Nat.add_mul, Nat.mul_assoc numerator, hstep]
    ring

theorem priceField_of_marker {whole : Nat} (code numerator : Nat) (h : whole = 0xFFFF) :
    priceField whole code numerator = .absent := if_pos h

theorem priceField_of_bad {whole code numerator : Nat} (hmarker : whole ≠ 0xFFFF)
    (h : 9999 < whole ∨ code = 0 ∨ 8 < code ∨ 2 ^ code ≤ numerator) : priceField whole code numerator = .failed := by
  rw [priceField, if_neg hmarker, if_neg]
  rintro ⟨hw, h1, h8, hn⟩
  omega

/-- Settles O50: the conversion by cases of the field, the rounding by the value of d. -/
theorem pricesConvertAndRound : Obligations.PricesConvertAndRound := by
  unfold Obligations.PricesConvertAndRound
  refine ⟨fun whole code numerator =>
    ⟨priceField_of_good, priceField_of_marker code numerator, priceField_of_bad⟩, fun d m => ?_⟩
  obtain ⟨hbelow, habove⟩ := roundUnits_nearest d m
  exact ⟨hbelow, habove, roundWhole_roundNumerator d m, roundNumerator_lt d m, glyphOf_toNat d (roundNumerator_lt d m)⟩

end Sys2Proof.Machine

namespace Sys2Proof.Machine

open Sys2Proof.Safety

/-! ## Numbers in decimal digits (R26, R31, R36) -/

theorem digitChar_toNat {n : Nat} (h : n < 10) : (digitChar n).toNat = 0x30 + n := by
  simp only [digitChar, byteOf, BitVec.toNat_ofNat]
  omega

theorem isDecimal_digitChar {n : Nat} (h : n < 10) : IsDecimal n [digitChar n] := by
  have hn := digitChar_toNat h
  refine ⟨List.cons_ne_nil _ _, ?_, ?_, ?_⟩
  · simp only [List.mem_singleton, forall_eq, hn]
    omega
  · simp [hn]
  · simp

/-- A digit written behind a number that is not 0. -/
theorem isDecimal_append_digit {n k : Nat} {text : List Byte} (h : IsDecimal n text) (hn : n ≠ 0) (hk : k < 10) :
    IsDecimal (n * 10 + k) (text ++ [digitChar k]) := by
  obtain ⟨hne, hdigits, hvalue, hlead⟩ := h
  obtain ⟨-, hdigit, -, -⟩ := isDecimal_digitChar hk
  refine ⟨by simp, fun b hb => (List.mem_append.mp hb).elim (hdigits b) (hdigit b), ?_, fun hzero => ?_⟩
  · simp [hvalue, digitChar_toNat hk]
  · have htext : text = [0x30] := hlead (by rwa [List.head?_append_of_ne_nil _ hne] at hzero)
    subst htext
    exact absurd hvalue.symm hn

theorem isDecimal_digitsFuel {k n : Nat} (h : n < k) : IsDecimal n (digitsFuel k n) := by
  induction k generalizing n with
  | zero => exact absurd h (Nat.not_lt_zero n)
  | succ k ih =>
    simp only [digitsFuel]
    split
    · rename_i hn
      exact isDecimal_digitChar hn
    · have htens : IsDecimal (n / 10 * 10 + n % 10) (digitsFuel k (n / 10) ++ [digitChar (n % 10)]) :=
        isDecimal_append_digit (ih (by omega)) (by omega) (Nat.mod_lt _ (by decide))
      rwa [Nat.div_add_mod'] at htens

theorem isDecimal_digits (n : Nat) : IsDecimal n (digits n) := isDecimal_digitsFuel (Nat.lt_succ_self n)

theorem length_digitsFuel_le (k : Nat) {n w : Nat} (hw : 0 < w) (h : n < 10 ^ w) : (digitsFuel k n).length ≤ w := by
  induction k generalizing n w with
  | zero => exact Nat.zero_le w
  | succ k ih =>
    simp only [digitsFuel]
    split
    · exact hw
    · obtain ⟨v, rfl⟩ : ∃ v, w = v + 1 := ⟨w - 1, by omega⟩
      have hv : 0 < v := Nat.pos_of_ne_zero (by rintro rfl; omega)
      have htens : n / 10 < 10 ^ v := Nat.div_lt_of_lt_mul (by rwa [Nat.pow_succ'] at h)
      simpa using ih hv htens

/-- A number of at most w digits, right-justified in w cells. -/
theorem rightDecimal_padLeft {w n : Nat} (hw : 0 < w) (h : n < 10 ^ w) : RightDecimal w n (padLeft w (digits n)) :=
  ⟨digits n, isDecimal_digits n, length_digitsFuel_le _ hw h, rfl⟩

/-! ## Glyphs (R25) -/

/-- The glyph of a numerator, as the statements write it. -/
theorem glyphOf_eq_glyphCell (d : Denom) {n : Nat} (hn : n < denomValue d) (h0 : n ≠ 0) :
    glyphOf d n = glyphCell (denomValue d) n := by
  have hvalue : (glyphOf d n).toNat = 16 * n / denomValue d := by
    rw [Nat.mul_comm 16, ← glyphOf_toNat d hn h0, Nat.mul_div_cancel _ (denomValue_pos d)]
  rw [glyphCell, if_neg h0, ← hvalue, BitVec.ofNat_toNat, BitVec.setWidth_eq]

theorem fractionCell_eq_glyphCell (d : Denom) {n : Nat} (hn : n < denomValue d) :
    fractionCell d n = glyphCell (denomValue d) n := by
  by_cases h0 : n = 0
  · rw [fractionCell, glyphCell, if_pos h0, if_pos h0]
    rfl
  · rw [fractionCell, if_neg h0, glyphOf_eq_glyphCell d hn h0]

theorem topGlyph_eq_glyphCell (d : Denom) : topGlyph d = glyphCell (denomValue d) (denomValue d - 1) := by
  cases d <;> rfl

/-! ## Tape texts (R35, R36, R119) -/

/-- R35: the root's padding stands behind its letters (R1), so no blank stands between two letters. -/
theorem filter_eq_takeWhile_of_padded {root : List Byte} (hletters : ∀ b ∈ root, IsLetter b ∨ b = 0x20)
    (hpadded : root.Pairwise (fun a b => a = 0x20 → ¬ IsLetter b)) :
    root.filter (· ≠ chBlank) = root.takeWhile (fun b => b ≠ 0x20) := by
  induction root with
  | nil => rfl
  | cons b rest ih =>
    obtain ⟨hbehind, hpadded⟩ := List.pairwise_cons.mp hpadded
    obtain ⟨-, hletters⟩ := List.forall_mem_cons.mp hletters
    by_cases hb : b = 0x20
    · have hblank : ∀ c ∈ b :: rest, c = 0x20 :=
        List.forall_mem_cons.mpr ⟨hb, fun c hc => (hletters c hc).resolve_left (hbehind c hc hb)⟩
      rw [List.filter_eq_nil_iff.mpr fun c hc => by simp [hblank c hc, chBlank],
        List.takeWhile_cons_of_neg (by simp [hb])]
    · have hfilter : decide (b ≠ chBlank) = true := decide_eq_true hb
      have htake : decide (b ≠ 0x20) = true := decide_eq_true hb
      rw [List.filter_cons, List.takeWhile_cons, if_pos hfilter, if_pos htake, ih hletters hpadded]

theorem tapeSymbol_of_good {c : SymbolCode} (h : GoodSymbol c) : tapeSymbol c
    = [c.r0, c.r1, c.r2, c.r3].takeWhile (fun b => b ≠ 0x20) ++ (if c.cls = 0x20 then [] else [chDot, c.cls]) := by
  obtain ⟨hletters, hpadded, -⟩ := h
  have hroot : ∀ b ∈ [c.r0, c.r1, c.r2, c.r3], IsLetter b ∨ b = 0x20 := fun b hb =>
    hletters b (List.mem_append_left [c.cls] hb)
  rw [tapeSymbol, filter_eq_takeWhile_of_padded hroot hpadded]
  rfl

/-- R35: the fraction of the tape price. -/
theorem tapeFraction_eq (d : Denom) (units : Nat) : tapeFraction d units
    = if 9999 < roundWhole d units then [glyphCell (denomValue d) (denomValue d - 1)]
      else if roundNumerator d units = 0 then [] else [glyphCell (denomValue d) (roundNumerator d units)] := by
  rw [tapeFraction, topGlyph_eq_glyphCell]
  split
  · rfl
  · split
    · rfl
    · rename_i h0
      rw [glyphOf_eq_glyphCell d (roundNumerator_lt d units) h0]

/-- A whole part of 0 with a fraction: the glyph alone, shortened or not. -/
theorem tapePrice_of_glyph_alone {d : Denom} {units : Nat} (shortened : Bool) (hwhole : tapeWholeOf d units = 0)
    (hfraction : tapeFraction d units ≠ []) : tapePrice d units shortened = tapeFraction d units :=
  if_pos ⟨hwhole, hfraction⟩

/-- Any other price: the whole part, or its last digit, before the fraction. -/
theorem tapePrice_of_whole {d : Denom} {units : Nat} (shortened : Bool)
    (h : ¬ (tapeWholeOf d units = 0 ∧ tapeFraction d units ≠ [])) : tapePrice d units shortened
      = digits (if shortened then tapeWholeOf d units % 10 else tapeWholeOf d units) ++ tapeFraction d units :=
  if_neg h

/-- A whole part of 0 has no fraction exactly where the numerator is 0. -/
theorem tapeFraction_ne_nil_iff {d : Denom} {units : Nat} (hwhole : tapeWholeOf d units = 0) :
    tapeFraction d units ≠ [] ↔ roundNumerator d units ≠ 0 := by
  have hle : ¬ 9999 < roundWhole d units := by
    rw [tapeWholeOf] at hwhole
    omega
  rw [tapeFraction, if_neg hle]
  split <;> simp_all

/-- Settles O40, part by part. -/
theorem tapeTextsAreMade : Obligations.TapeTextsAreMade := by
  unfold Obligations.TapeTextsAreMade
  intro letters
  have hdot : letters "." = [chDot] := by decide
  have hshs : textShs = letters "SHS" := by decide
  have hs : [chSmallS] = letters "s" := by decide
  refine ⟨fun c hc => ?_, fun denom units shortened => ?_, fun v => ⟨fun h => ?_, fun h hone => ?_, fun h hone => ?_⟩,
    isDecimal_digits, by decide, by decide, by decide, by decide, by decide, by decide, by decide, by decide⟩
  · rw [tapeSymbol_of_good hc, hdot]
    rfl
  · intro d q whole glyph
    have hd : d = denomValue denom := by cases denom <;> rfl
    have hq : q = roundUnits denom units := by
      show (units + 256 / d / 2) / (256 / d) = _
      rw [hd]
      rfl
    have hwhole : tapeWholeOf denom units = whole := by
      show _ = min (q / d) 9999
      rw [hq, hd]
      rfl
    have hglyph : tapeFraction denom units = glyph := by
      show _ = if 9999 < q / d then _ else _
      rw [tapeFraction_eq, hq, hd]
      rfl
    have hnumerator : q % d = roundNumerator denom units := by
      rw [hq, hd]
      rfl
    rw [← hwhole, ← hglyph, hnumerator]
    refine ⟨rfl, fun h0 hn => tapePrice_of_glyph_alone shortened h0 ((tapeFraction_ne_nil_iff h0).mpr hn), fun h => ?_⟩
    refine ⟨_, isDecimal_digits _, tapePrice_of_whole shortened ?_⟩
    rintro ⟨h0, hn⟩
    exact h.elim (fun h => h h0) ((tapeFraction_ne_nil_iff h0).mp hn)
  · exact ⟨digits v, isDecimal_digits v, by rw [volumePart, if_pos h, hshs]⟩
  · rw [volumePart, if_neg (by omega), if_pos hone]
  · exact ⟨digits (v / 100), isDecimal_digits _, by rw [volumePart, if_neg (by omega), if_neg hone, hs]⟩

end Sys2Proof.Machine

namespace Sys2Proof.Machine

open Sys2Proof.Safety

/-! ## Fields of a record in cells (R26 to R32) -/

theorem priceShown_priceCells (d : Denom) (price : Nat) : PriceShown (denomValue d) price (priceCells d price) := by
  show (9999 < roundWhole d price → _) ∧ (roundWhole d price = 0 → roundNumerator d price ≠ 0 → _)
    ∧ (roundWhole d price ≤ 9999 → roundWhole d price ≠ 0 ∨ roundNumerator d price = 0 → _)
  have hlt := roundNumerator_lt d price
  refine ⟨fun habove => ?_, fun h0 hn => ?_, fun hle hshown => ?_⟩
  · rw [priceCells, if_pos habove, topGlyph_eq_glyphCell]
    rfl
  · rw [priceCells, if_neg (by omega), if_pos ⟨h0, hn⟩, glyphOf_eq_glyphCell d hlt hn]
    rfl
  · refine ⟨_, rightDecimal_padLeft (by decide) (Nat.lt_succ_of_le hle), ?_⟩
    rw [priceCells, if_neg (by omega), if_neg (by tauto), fractionCell_eq_glyphCell d hlt]
    rfl

theorem optionalPriceShown_optionalPriceCells (d : Denom) (price : Option Nat) :
    OptionalPriceShown (denomValue d) price (optionalPriceCells d price) := by
  refine ⟨?_, ?_⟩
  · rintro rfl
    rfl
  · rintro p rfl
    exact priceShown_priceCells d p

/-- R29, R30: the CHANGE field of a record with a last price. -/
theorem changeShown_changeCells {r : QuoteRecord} (h : r.last ≠ none) :
    ChangeShown (denomValue r.denom) r.netChange (changeCells r) := by
  obtain ⟨p, hp⟩ := Option.ne_none_iff_exists'.mp h
  show (roundUnits r.denom r.netChange.natAbs = 0 → _) ∧ (999 < roundWhole r.denom r.netChange.natAbs → _)
    ∧ (roundUnits r.denom r.netChange.natAbs ≠ 0 → roundWhole r.denom r.netChange.natAbs ≤ 999 → _)
  have hlt := roundNumerator_lt r.denom r.netChange.natAbs
  have hparts := roundWhole_roundNumerator r.denom r.netChange.natAbs
  refine ⟨fun h0 => ?_, fun habove => ?_, fun hn hle => ?_⟩
  · simp only [changeCells, hp, h0, if_true]
    rfl
  · have hn : roundUnits r.denom r.netChange.natAbs ≠ 0 := by
      rintro h0
      rw [roundWhole, h0, Nat.zero_div] at habove
      omega
    simp only [changeCells, hp, hn, if_false, habove, if_true, topGlyph_eq_glyphCell]
    rfl
  · refine ⟨if roundWhole r.denom r.netChange.natAbs = 0 then blanks 3
      else padLeft 3 (digits (roundWhole r.denom r.netChange.natAbs)), ?_, fun h0 => if_pos h0, fun h0 => ?_⟩
    · simp only [changeCells, hp, hn, if_false, Nat.not_lt.mpr hle, fractionCell_eq_glyphCell r.denom hlt]
      rfl
    · have hwhole := rightDecimal_padLeft (w := 3) (by decide) (Nat.lt_succ_of_le hle)
      exact (if_neg (t := blanks 3) h0).symm ▸ hwhole

theorem rightDecimal_volumeCells (volume : Nat) :
    RightDecimal 6 (min ((volume + 500) / 1000) 999999) (volumeCells volume) :=
  rightDecimal_padLeft (by decide) (Nat.lt_succ_of_le (Nat.min_le_right _ _))

/-- R28: the LAST field by the trading state. -/
theorem lastCells_shown (r : QuoteRecord) : (r.state = .halted → lastCells r = [0x48, 0x41, 0x4C, 0x54, 0x20])
    ∧ (r.state = .notOpen → PriceShown (denomValue r.denom) r.prevClose (lastCells r))
    ∧ (r.state = .trading → OptionalPriceShown (denomValue r.denom) r.last (lastCells r)) := by
  refine ⟨fun h => ?_, fun h => ?_, fun h => ?_⟩
  · rw [lastCells, h]
    rfl
  · rw [lastCells, h]
    exact priceShown_priceCells r.denom r.prevClose
  · rw [lastCells, h]
    exact optionalPriceShown_optionalPriceCells r.denom r.last

theorem changeCells_of_none {r : QuoteRecord} (h : r.last = none) : changeCells r = blanks 5 := by
  rw [changeCells, h]

/-- R26 to R32: every field shows what the manual says. -/
theorem fieldShown_fieldCells (r : QuoteRecord) (f : BoardField) : FieldShown r f (fieldCells r f) := by
  cases f with
  | symbol => rfl
  | last => exact lastCells_shown r
  | change => exact ⟨changeCells_of_none, changeShown_changeCells⟩
  | high => exact optionalPriceShown_optionalPriceCells r.denom r.high
  | low => exact optionalPriceShown_optionalPriceCells r.denom r.low
  | volume => exact rightDecimal_volumeCells r.volume
  | bid => exact optionalPriceShown_optionalPriceCells r.denom r.bid
  | ask => exact optionalPriceShown_optionalPriceCells r.denom r.ask

/-! ## Slots in cells (R100 to R105) -/

/-- R92, R100: the fields with the gap between one and the next. -/
theorem joinFields_eq_intercalate (r : QuoteRecord) (gap : Nat) (fields : List BoardField) :
    joinFields r gap fields = List.intercalate (List.replicate gap 0x20) (fields.map (fieldCells r)) := by
  induction fields with
  | nil => rfl
  | cons f rest ih =>
    cases rest with
    | nil => simp [joinFields]
    | cons g rest =>
      rw [joinFields, ih, List.map_cons, List.map_cons, List.map_cons, List.intercalate_cons_cons]
      rfl

theorem leftShown_padRight (width : Nat) (text : List Byte) : LeftShown width text (padRight width text) := by
  refine ⟨?_, fun i hi => ?_⟩
  · simp only [padRight, List.length_append, List.length_take, List.length_replicate]
    omega
  · by_cases h : i < text.length
    · rw [padRight, List.getElem?_append_left (by rw [List.length_take]; omega), List.getElem?_take_of_lt hi,
        List.getD_eq_getElem _ _ h, List.getElem?_eq_getElem h]
    · rw [padRight, List.getElem?_append_right (by rw [List.length_take]; omega), List.getD_eq_default _ _ (by omega),
        List.length_take, List.getElem?_replicate, if_pos (by omega)]
      rfl

theorem messageText_eq (stack : List BulletinEntry) :
    messageText stack = (stack.head?.map (fun top => top.text)).getD [] := by
  cases stack <;> rfl

/-- Table 6-3: the STATUS text. -/
theorem statusShown_statusText (s : State) : StatusShown s (statusText s) := by
  by_cases hlost : s.feed.feedState = .lost
  · simp only [StatusShown, statusText, hlost, if_true]
  by_cases hhalted : s.time.session = .haltedAll
  · simp only [StatusShown, statusText, hlost, if_false, hhalted, if_true]
  by_cases hlevel : s.ticker.level = 0
  · simp only [StatusShown, statusText, hlost, hhalted, if_false, ne_eq, hlevel, not_true_eq_false]
    split
    · rfl
    · split <;> rfl
  · have hlate : 1 ≤ s.ticker.level := Nat.one_le_iff_ne_zero.mpr hlevel
    simp only [StatusShown, statusText, hlost, hhalted, if_false, ne_eq, hlevel, not_false_eq_true, if_true, hlate]
    exact ⟨digits s.ticker.lateMinutes, isDecimal_digits _, rfl⟩

/-- R102: the clock once it is set. -/
theorem clockText_of_set {tb : TimeBase} (hset : tb.clockSet = true) (hclock : tb.clock < 86400) :
    clockText tb = [byteOf (0x30 + tb.clock / 3600 / 10), byteOf (0x30 + tb.clock / 3600 % 10), 0x3A,
      byteOf (0x30 + tb.clock % 3600 / 60 / 10), byteOf (0x30 + tb.clock % 3600 / 60 % 10)] := by
  have hhour : tb.clock / 3600 / 10 % 10 = tb.clock / 3600 / 10 := by omega
  have hminute : tb.clock / 60 % 60 = tb.clock % 3600 / 60 := by omega
  have htens : tb.clock % 3600 / 60 / 10 % 10 = tb.clock % 3600 / 60 / 10 := by omega
  rw [clockText, if_pos hset, twoDigits, twoDigits, hminute, hhour, htens]
  rfl

/-- Table 6-2: the six lamp bits in their order. -/
theorem lampBits_getLsbD (r : QuoteRecord) (flash : Bool) (i : Fin 8) : (lampBits r flash).getLsbD i.val
    = [decide (r.tick = .up ∨ r.tick = .zeroPlus), decide (r.tick = .down ∨ r.tick = .zeroMinus),
        decide (r.state = .halted), flash, r.stale, false, false, false][i] := by
  have hbits : ∀ (up down halt flash stale : Bool) (i : Fin 8),
      ((if up then 0x01 else 0) ||| (if down then 0x02 else 0) ||| (if halt then 0x04 else 0)
        ||| (if flash then 0x08 else 0) ||| (if stale then 0x10 else 0) : Byte).getLsbD i.val
        = [up, down, halt, flash, stale, false, false, false][i] := by decide
  rw [← hbits]
  simp only [lampBits, decide_eq_true_eq]

theorem slotLamp_of_record {s : State} {sl : Slot} {r : QuoteRecord} {n gap : Nat} {fields : List BoardField}
    {lamp : Option Nat} {flash : Bool} (hkind : sl.kind = .quote n fields gap lamp flash)
    (hr : tableGet s.records n = some r) : slotLamp s sl = lampBits r sl.flash.isSome := by
  simp only [slotLamp, hkind, hr]
  rfl

theorem slotLamp_of_empty {s : State} {sl : Slot} {n gap : Nat} {fields : List BoardField} {lamp : Option Nat}
    {flash : Bool} (hkind : sl.kind = .quote n fields gap lamp flash) (hr : tableGet s.records n = none) :
    slotLamp s sl = 0 := by
  simp only [slotLamp, hkind, hr]

/-! ## The image of a list (R71 to R73) -/

/-- The modules of one kind, counted on from a number. -/
theorem count_from (a m : ModuleKind) (rest : List ModuleKind) (j : Nat) :
    (if m = a then j + 1 else j) + rest.count a = j + (m :: rest).count a := by
  by_cases h : m = a
  · rw [if_pos h, h, List.count_cons_self]
    omega
  · rw [if_neg h, List.count_cons_of_ne h]

/-- The stages of a list stand after those of the list behind it. -/
theorem stageLayout_append (before after : List ModuleKind) (i j l : Nat) : stageLayout (before ++ after) i j l
    = stageLayout after (i + before.length) (j + before.count .char8) (l + before.count .lamp)
      ++ stageLayout before i j l := by
  induction before generalizing i j l with
  | nil => simp [stageLayout]
  | cons m rest ih =>
    rw [List.cons_append, stageLayout, ih, stageLayout, count_from, count_from, List.append_assoc, List.length_cons,
      Nat.add_right_comm, Nat.add_assoc]

theorem length_moduleStages (j l : Nat) (m : ModuleKind) : (moduleStages j l m).length = stageCount m := by
  cases m <;> rfl

theorem length_stageLayout (list : List ModuleKind) (i j l : Nat) :
    (stageLayout list i j l).length = (list.map stageCount).sum := by
  induction list generalizing i j l with
  | nil => rfl
  | cons m rest ih =>
    rw [stageLayout, List.length_append, ih, List.length_map, length_moduleStages, List.map_cons, List.sum_cons,
      Nat.add_comm]

theorem length_composeImage (s : State) (c : ChainId) (list : List ModuleKind) :
    (composeImage s c list).length = (list.map stageCount).sum := by
  rw [composeImage, List.length_map, length_stageLayout]

/-- R73: the stages of a module, behind those of every module after it in the list. -/
theorem composeImage_getElem? (s : State) (c : ChainId) (before after : List ModuleKind) (m : ModuleKind) {k : Nat}
    (hk : k < stageCount m) : (composeImage s c (before ++ m :: after))[(after.map stageCount).sum + k]?
      = (moduleStages (before.count .char8) (before.count .lamp) m)[k]?.map (renderStage s c) := by
  have hlen := length_stageLayout after (before.length + 1)
    (if m = .char8 then before.count .char8 + 1 else before.count .char8)
    (if m = .lamp then before.count .lamp + 1 else before.count .lamp)
  rw [composeImage, stageLayout_append, stageLayout, Nat.zero_add, Nat.zero_add, Nat.zero_add, List.append_assoc,
    List.getElem?_map, List.getElem?_append_right (by omega), hlen, Nat.add_sub_cancel_left,
    List.getElem?_append_left (by rwa [List.length_map, length_moduleStages]), List.getElem?_map, Option.map_map]
  rfl

/-- R73: a CHAR8 module from its position 7 down. -/
theorem moduleStages_char8 (j l : Nat) (k : Fin 8) :
    (moduleStages j l .char8)[k.val]? = some (.char (8 * j + 7 - k.val)) := by
  match k with
  | 0 | 1 | 2 | 3 | 4 | 5 | 6 | 7 => rfl

/-- An entry that alone satisfies a test is the one found. -/
theorem find?_of_unique {α : Type} {p : α → Bool} {xs : List α} {x : α} (hx : x ∈ xs) (hp : p x = true)
    (hunique : ∀ y ∈ xs, p y = true → y = x) : xs.find? p = some x := by
  cases hfind : xs.find? p with
  | none => exact absurd hp (List.find?_eq_none.mp hfind x hx)
  | some y => rw [hunique y (List.mem_of_find?_eq_some hfind) (List.find?_some hfind)]

/-- R73: a character cell shows what the slot that claims it renders there. -/
theorem renderCell_of_claimed {s : State} {c : ChainId} {cell : Nat} {e : Nat × Slot} (he : e ∈ s.slots)
    (hclaims : claimsCell c cell e.2 = true) (hunique : ∀ e' ∈ s.slots, claimsCell c cell e'.2 = true → e' = e) :
    renderCell s c cell = (slotCells s e.2.kind).getD (cell - e.2.start) 0x20 := by
  rw [renderCell, find?_of_unique he hclaims hunique]
  rfl

theorem renderCell_of_unclaimed {s : State} {c : ChainId} {cell : Nat}
    (h : ∀ e ∈ s.slots, claimsCell c cell e.2 = false) : renderCell s c cell = 0x20 := by
  rw [renderCell, List.find?_eq_none.mpr fun e he => ne_true_of_eq_false (h e he)]
  rfl

/-- R73: a lamp cell shows the bits of the slot that claims it. -/
theorem renderLamp_of_claimed {s : State} {c : ChainId} {cell : Nat} {e : Nat × Slot} (he : e ∈ s.slots)
    (hclaims : claimsLamp c cell e.2 = true) (hunique : ∀ e' ∈ s.slots, claimsLamp c cell e'.2 = true → e' = e) :
    renderLamp s c cell = slotLamp s e.2 := by
  rw [renderLamp, find?_of_unique he hclaims hunique]

theorem renderLamp_of_unclaimed {s : State} {c : ChainId} {cell : Nat}
    (h : ∀ e ∈ s.slots, claimsLamp c cell e.2 = false) : renderLamp s c cell = 0 := by
  rw [renderLamp, List.find?_eq_none.mpr fun e he => ne_true_of_eq_false (h e he)]

/-- Settles O49: the fields, then the slots by their kind, then the image by its modules. -/
theorem boardsAreRendered : Obligations.BoardsAreRendered := by
  unfold Obligations.BoardsAreRendered
  refine ⟨fieldShown_fieldCells, fun _ => rfl, fun s => ⟨fun n fields gap lamp flash => ⟨fun r hr => ?_, fun hr => ?_⟩,
    fun width k => ?_, ⟨statusText s, statusShown_statusText s, leftShown_padRight 16 _⟩, fun hunset => ?_,
    clockText_of_set, fun sl n fields gap lamp flash hkind => ⟨fun hr => ?_, fun r hr i => ?_⟩⟩, ?_⟩
  · simp only [slotCells, hr]
    exact joinFields_eq_intercalate r gap fields
  · simp only [slotCells, hr]
    rfl
  · rw [← messageText_eq]
    exact leftShown_padRight width _
  · simp only [slotCells, clockText, hunset]
    rfl
  · exact slotLamp_of_empty hkind hr
  · rw [slotLamp_of_record hkind hr]
    exact lampBits_getLsbD r sl.flash.isSome i
  · intro s c before after m image behind cellNow lampNow
    refine ⟨length_composeImage s c _, ?_, ?_, ?_⟩
    · rintro rfl j
      refine ⟨renderCell s c (8 * before.count .char8 + 7 - j.val), ?_, fun e => renderCell_of_claimed,
        renderCell_of_unclaimed⟩
      rw [composeImage_getElem? s c before after .char8 j.isLt, moduleStages_char8]
      rfl
    · rintro rfl
      refine ⟨renderLamp s c (before.count .lamp), ?_, fun e => renderLamp_of_claimed, renderLamp_of_unclaimed⟩
      exact composeImage_getElem? s c before after .lamp (k := 0) (by decide)
    · rintro rfl
      exact composeImage_getElem? s c before after .bypass (k := 0) (by decide)

end Sys2Proof.Machine

namespace Sys2Proof.Machine

open Sys2Proof.Safety

/-! ## What an offered text and a level update leave as they are (R119, R122) -/

/-- A text offered reaches the ticker's queue and its count of omissions alone. -/
theorem offerText_ticker (atHead : Bool) (text : List Byte) (s : State) : (offerText atHead text s).ticker
    = { s.ticker with queue := (offerText atHead text s).ticker.queue,
                      omitted := (offerText atHead text s).ticker.omitted } := by
  simp only [offerText]
  split
  · rfl
  · split
    · rfl
    · split <;> rfl

theorem offerText_params (atHead : Bool) (text : List Byte) (s : State) :
    (offerText atHead text s).mgmt.params = s.mgmt.params := by
  simp only [offerText]
  split
  · rfl
  · split
    · rfl
    · split
      · exact alertSet_params .tapeOmit s.mgmt
      · rfl

theorem countP_placeText (atHead : Bool) (text : List Byte) (queue : List TickerEntry) :
    (placeText atHead text queue).countP isPrint = queue.countP isPrint := by
  cases atHead <;> simp [placeText, isPrint]

/-- A text offered brings no print into the queue. -/
theorem countP_offerText_le (atHead : Bool) (text : List Byte) (s : State) :
    (offerText atHead text s).ticker.queue.countP isPrint ≤ s.ticker.queue.countP isPrint := by
  simp only [offerText]
  split
  · exact Nat.le_refl _
  · split
    · exact (countP_placeText atHead text s.ticker.queue).le
    · split
      · exact (countP_placeText atHead text _).trans_le ((List.eraseP_sublist).countP_le)
      · exact Nat.le_refl _

/-- The state in which a changed level is handed on (R122). -/
def levelSet (lateness : Nat) (s : State) : State :=
  raiseAlert .tapeLevel (onTicker (fun t =>
    { t with level := nextLevel s lateness, lateMinutes := lateness / 60,
             epoch := if s.ticker.level ≤ 1 ∧ 2 ≤ nextLevel s lateness then t.epoch + 1 else t.epoch }) s)

theorem updateLevel_of_change {lateness : Nat} {s : State} (h : nextLevel s lateness ≠ s.ticker.level) :
    updateLevel lateness s
      = offerText true (levelText s.ticker.level (nextLevel s lateness) (lateness / 60)) (handLevel (levelSet lateness s)) :=
  if_neg h

theorem updateLevel_of_stay {lateness : Nat} {s : State} (h : nextLevel s lateness = s.ticker.level) :
    updateLevel lateness s = s := if_pos h

/-- What a level update leaves as it is: what a composition reads beside the level. -/
structure LevelUpdated (s v : State) : Prop where
  frame : v = { s with chains := v.chains, slots := v.slots, line := v.line, ticker := v.ticker, mgmt := v.mgmt }
  ticker : v.ticker = { s.ticker with
    queue := v.ticker.queue, level := v.ticker.level, lateMinutes := v.ticker.lateMinutes, epoch := v.ticker.epoch,
    omitted := v.ticker.omitted }
  params : v.mgmt.params = s.mgmt.params
  prints : v.ticker.queue.countP isPrint ≤ s.ticker.queue.countP isPrint

theorem levelUpdated_updateLevel (lateness : Nat) (s : State) : LevelUpdated s (updateLevel lateness s) := by
  by_cases h : nextLevel s lateness = s.ticker.level
  · rw [updateLevel_of_stay h]
    exact ⟨rfl, rfl, rfl, Nat.le_refl _⟩
  · rw [updateLevel_of_change h]
    have hset := handLevel_frame (levelSet lateness s)
    generalize levelText s.ticker.level (nextLevel s lateness) (lateness / 60) = text
    generalize handLevel (levelSet lateness s) = u at hset
    generalize (markStatus (levelSet lateness s)).chains = chains, (markStatus (levelSet lateness s)).slots = slots,
      (statusLinesPending (levelSet lateness s)).line = line at hset
    have hframe := offerText_frame true text u
    have hticker := offerText_ticker true text u
    have hparams := offerText_params true text u
    have hprints := countP_offerText_le true text u
    generalize offerText true text u = v at hframe hticker hparams hprints
    have hu : u.ticker = (levelSet lateness s).ticker := by rw [hset]
    have hmgmt : u.mgmt = alertSet .tapeLevel s.mgmt := by
      rw [hset]
      rfl
    refine ⟨?_, ?_, ?_, ?_⟩
    · rw [hframe, hset]
      rfl
    · rw [hticker, hu]
      rfl
    · rw [hparams, hmgmt, alertSet_params]
    · rw [hu] at hprints
      exact hprints

/-! ## A step that composes (R120, R128) -/

/-- The ticker is about to compose: it runs, and its text and its separator are done. -/
structure Composing (s : State) : Prop where
  phase : s.phase = .running
  state : s.ticker.state ≠ .stopped
  timer : s.ticker.stepTimer.isSome = true
  text : s.ticker.text.length ≤ s.ticker.cursor
  separator : s.ticker.separator = 0

theorem exec_step_of_composing {s : State} (h : Composing s) :
    exec .step s = .next (restartStep (compositionStep s)) := by
  have hemit : emitStep s = compositionStep s := by
    rw [emitStep, if_neg (Nat.not_lt.mpr h.text), if_neg (by simp [h.separator])]
  have hexpire : stepExpire s = restartStep (compositionStep s) := by
    rw [stepExpire, if_pos ⟨h.timer, h.state⟩, hemit]
  show Host.Outcome.next (if s.phase = .running then stepExpire s else s) = _
  rw [if_pos h.phase, hexpire]

/-- A state that differs in none of what says so is about to compose as well. -/
theorem Composing.of_ticker {s t : State} (h : Composing s) (hphase : t.phase = s.phase)
    (hticker : t.ticker = { s.ticker with
      queue := t.ticker.queue, level := t.ticker.level, lateMinutes := t.ticker.lateMinutes, epoch := t.ticker.epoch,
      omitted := t.ticker.omitted }) : Composing t := by
  obtain ⟨hp, hs, ht, hx, hn⟩ := h
  exact ⟨hphase.trans hp, by rwa [hticker], by rwa [hticker], by rwa [hticker], by rwa [hticker]⟩

/-- Rounds beyond the prints in the queue change nothing: each takes a print or ends the composition. -/
theorem compose_of_enough {j k : Nat} {s : State} (hj : s.ticker.queue.countP isPrint < j)
    (hk : s.ticker.queue.countP isPrint < k) : compose j s = compose k s := by
  induction j generalizing k s with
  | zero => exact absurd hj (Nat.not_lt_zero _)
  | succ j ih =>
    obtain ⟨k, rfl⟩ : ∃ i, k = i + 1 := ⟨k - 1, by omega⟩
    simp only [compose]
    split
    · rfl
    · rfl
    · rename_i p rest hq
      have hcount : s.ticker.queue.countP isPrint = rest.countP isPrint + 1 := by
        rw [hq, List.countP_cons_of_pos rfl]
      have hprints := (levelUpdated_updateLevel (latenessOf s.time p.time) (setQueue rest s)).prints
      generalize updateLevel (latenessOf s.time p.time) (setQueue rest s) = v at hprints ⊢
      have hv : v.ticker.queue.countP isPrint ≤ rest.countP isPrint := hprints
      have hsame : (countOmitted 1 v).ticker.queue = v.ticker.queue := rfl
      split
      · exact ih (by rw [hsame]; omega) (by rw [hsame]; omega)
      · rfl

/-- What a composition comes to, by what it answers. -/
theorem compositionStep_congr {s t : State}
    (h : compose (s.ticker.queue.length + 1) s = compose (t.ticker.queue.length + 1) t) :
    compositionStep s = compositionStep t := by
  rw [compositionStep, h, compositionStep]

theorem compositionStep_of_announce {s : State} {text : List Byte} {rest : List TickerEntry}
    (hq : s.ticker.queue = .announce text :: rest) : compositionStep s = beginText text (setQueue rest s) := by
  simp only [compositionStep, compose, hq]

theorem compositionStep_of_print {s : State} {p : Print} {rest : List TickerEntry}
    (hq : s.ticker.queue = .print p :: rest) :
    let v := updateLevel (latenessOf s.time p.time) (setQueue rest s)
    compositionStep s = if v.ticker.level = 4 ∧ p.tapeClass = .b then compositionStep (countOmitted 1 v)
      else printComposed p v := by
  intro v
  split
  · rename_i homits
    refine compositionStep_congr ?_
    have hround : compose (s.ticker.queue.length + 1) s = compose s.ticker.queue.length (countOmitted 1 v) := by
      simp only [compose, hq]
      exact if_pos homits
    have hprints : (countOmitted 1 v).ticker.queue.countP isPrint ≤ rest.countP isPrint :=
      (levelUpdated_updateLevel (latenessOf s.time p.time) (setQueue rest s)).prints
    have hlength : s.ticker.queue.length = rest.length + 1 := by rw [hq, List.length_cons]
    rw [hround]
    refine compose_of_enough ?_ (Nat.lt_succ_of_le List.countP_le_length)
    have hrest := List.countP_le_length (p := isPrint) (l := rest)
    omega
  · rename_i hkept
    have hround : compose (s.ticker.queue.length + 1) s = (true, printComposed p v) := by
      simp only [compose, hq]
      exact if_neg hkept
    rw [compositionStep, hround]

/-! ## A print composed (R123 to R127, R37) -/

/-- R123: the record that matches a print. -/
theorem matchingRecord_eq_some_iff (s : State) (p : Print) (r : QuoteRecord) :
    matchingRecord s p = some r ↔ tableGet s.records p.record = some r ∧ r.symbol = p.symbol := by
  refine ⟨fun h => ⟨tableGet_of_matchingRecord h, ?_⟩, fun ⟨hr, hsymbol⟩ => ?_⟩
  · by_contra hne
    simp [matchingRecord, tableGet_of_matchingRecord h, hne] at h
  · simp only [matchingRecord, hr, if_pos hsymbol]

/-- Whether a print being composed at a level absorbs an entry (R124). -/
def absorbs (level : Nat) (p : Print) (e : TickerEntry) : Bool :=
  decide (3 ≤ level) && decide (p.condition = .regular) && takesUp p e

/-- The volume that an entry brings to the print that absorbs it (R118). -/
def volumeOf : TickerEntry → Nat
  | .print q => q.volume
  | .announce _ => 0

/-- The print after it has absorbed its like (R124). -/
def condensedPrint (p : Print) (t : Ticker) : Print :=
  let merged := t.queue.filter (absorbs t.level p)
  { p with volume :=
      if merged = [] then p.volume else min 99999999 (p.volume + (merged.map volumeOf).sum) }

/-- The ticker after the print has absorbed its like (R124). -/
def condensedTicker (p : Print) (t : Ticker) : Ticker :=
  { t with
    queue := t.queue.filter (fun e => !absorbs t.level p e),
    merged := t.merged + BitVec.ofNat 24 (t.queue.filter (absorbs t.level p)).length }

theorem condense_eq (p : Print) (s : State) :
    condense p s = (condensedPrint p s.ticker, { s with ticker := condensedTicker p s.ticker }) := by
  by_cases h : 3 ≤ s.ticker.level ∧ p.condition = .regular
  · have habsorbs : absorbs s.ticker.level p = mergesWith p := by
      funext e
      simp [absorbs, h, mergesWith_eq_takesUp]
    simp only [condense, if_pos h, condensedPrint, condensedTicker, habsorbs]
    split <;> rfl
  · have habsorbs : absorbs s.ticker.level p = fun _ => false := by
      funext e
      simp only [absorbs, Bool.and_eq_false_imp, Bool.and_eq_true, decide_eq_true_eq]
      exact fun hboth => absurd hboth h
    simp [condense, if_neg h, condensedPrint, condensedTicker, habsorbs]

/-- The text of a print at the level of the ticker (R37, R124 to R126). -/
def composedText (s : State) (p : Print) : List Byte :=
  printText p (volumeAtLevel s (condensedPrint p s.ticker)) (priceAtLevel s p)

theorem setTapeFields_frame (p : Print) (s : State) :
    setTapeFields p s = { s with records := (setTapeFields p s).records } := by
  simp only [setTapeFields]
  split <;> rfl

/-- R127: a record that matches takes the tape fields, and no other changes. -/
theorem setTapeFields_records_of_some {p : Print} {s : State} {r : QuoteRecord} (h : matchingRecord s p = some r) :
    (setTapeFields p s).records = tableSet s.records p.record
      { r with tapeWhole := some (tapeWholeOf r.denom p.price), tapeEpoch := s.ticker.epoch } := by
  simp only [setTapeFields, h]
  rfl

theorem setTapeFields_records_of_none {p : Print} {s : State} (h : matchingRecord s p = none) :
    (setTapeFields p s).records = s.records := by
  simp only [setTapeFields, h]

theorem setTapeFields_keepsOthers (p : Print) (s : State) :
    KeepsOtherRecords p.record s (setTapeFields p s) := by
  intro n hn
  cases h : matchingRecord s p with
  | none => rw [setTapeFields_records_of_none h]
  | some r => rw [setTapeFields_records_of_some h, tableGet_tableSet_of_ne _ _ hn]

/-- The tape fields hang on neither the queue nor the volume. -/
theorem setTapeFields_condensed (p : Print) (s : State) :
    setTapeFields (condensedPrint p s.ticker) { s with ticker := condensedTicker p s.ticker }
      = { s with records := (setTapeFields p s).records, ticker := condensedTicker p s.ticker } := by
  have hmatch : matchingRecord { s with ticker := condensedTicker p s.ticker } (condensedPrint p s.ticker)
      = matchingRecord s p := rfl
  cases h : matchingRecord s p with
  | none =>
    rw [setTapeFields_frame, setTapeFields_records_of_none (hmatch.trans h), setTapeFields_records_of_none h]
  | some r =>
    rw [setTapeFields_frame, setTapeFields_records_of_some (hmatch.trans h), setTapeFields_records_of_some h]
    rfl

/-- The ticker after a print has become a text, with the step timer as it is restarted (R120, R128, R132). -/
def printedTicker (p : Print) (t : Ticker) (text : List Byte) (timer : Timer) : Ticker :=
  { condensedTicker p t with
    printed := t.printed + 1, text := text, cursor := 1, separator := if text.length ≤ 1 then 2 else 0,
    out := some (text.headD chBlank), stepTimer := timer }

/-- A print composed, told whole. -/
theorem printComposed_eq (p : Print) (s : State) : printComposed p s = { s with
    records := (setTapeFields p s).records,
    ticker := printedTicker p s.ticker (composedText s p) s.ticker.stepTimer } := by
  simp only [printComposed, condense_eq, setTapeFields_condensed]
  rfl

/-- The step timer as it is restarted at a level (R129). -/
def intervalAt (s : State) (level : Nat) : Timer := if level ≤ 2 then some (param s 7) else some (param s 8)

theorem restartStep_of_running {s : State} (h : s.ticker.state ≠ .stopped) :
    restartStep s = { s with ticker := { s.ticker with stepTimer := intervalAt s s.ticker.level } } := by
  rw [restartStep, if_neg h, onTicker, State.setTicker, startTimer, stepInterval, apply_ite some]
  rfl

/-- The step that composes a print, told whole. -/
theorem restartStep_printComposed (p : Print) {s : State} (h : s.ticker.state ≠ .stopped) :
    restartStep (printComposed p s) = { s with
      records := (setTapeFields p s).records,
      ticker := printedTicker p s.ticker (composedText s p) (intervalAt s s.ticker.level) } := by
  rw [printComposed_eq]
  exact restartStep_of_running h

/-- R126: the leading digits deleted, where the last print of this record in this epoch had the same. -/
theorem deletesDigits_eq (s : State) (r : QuoteRecord) (whole : Nat) : deletesDigits s r whole
    = r.tapeWhole.any (fun w => decide (2 ≤ s.ticker.level) && decide (r.tapeEpoch = s.ticker.epoch)
        && decide (w / 10 = whole / 10)) := by
  simp only [deletesDigits]
  cases r.tapeWhole with
  | none => rfl
  | some w =>
    have hdigits : decide (w / 10 = whole / 10) = decide (whole / 10 = w / 10) := decide_eq_decide.mpr eq_comm
    rw [Option.any_some, hdigits]
    rfl

/-- R35, R126: the tape price, in sixteenths and in full where no record matches. -/
theorem priceAtLevel_eq (s : State) (p : Print) :
    let d := ((matchingRecord s p).map (fun r => r.denom)).getD .sixteenths
    priceAtLevel s p = tapePrice d p.price
      ((matchingRecord s p).any (fun r => r.tapeWhole.any (fun w => decide (2 ≤ s.ticker.level)
        && decide (r.tapeEpoch = s.ticker.epoch) && decide (w / 10 = tapeWholeOf d p.price / 10)))) := by
  intro d
  simp only [priceAtLevel, ← deletesDigits_eq]
  cases h : matchingRecord s p with
  | none => simp only [d, h]; rfl
  | some r => simp only [d, h]; rfl

theorem composedText_eq (s : State) (p : Print) :
    let d := ((matchingRecord s p).map (fun r => r.denom)).getD .sixteenths
    let volume := (condensedPrint p s.ticker).volume
    composedText s p = printText p
      (if 1 ≤ s.ticker.level ∧ volume < param s 14 * 100 then [] else volumePart volume)
      (tapePrice d p.price
        ((matchingRecord s p).any (fun r => r.tapeWhole.any (fun w => decide (2 ≤ s.ticker.level)
          && decide (r.tapeEpoch = s.ticker.epoch) && decide (w / 10 = tapeWholeOf d p.price / 10))))) := by
  intro d volume
  rw [composedText, priceAtLevel_eq, volumeAtLevel]

/-- Settles O39: one round of the composition by the entry at the head, and the omission as a composition of what it
leaves. -/
theorem tickerComposesAPrint : Obligations.TickerComposesAPrint := by
  unfold Obligations.TickerComposesAPrint
  intro s k interval hphase hstate htimer htext hseparator
  have hs : Composing s := ⟨hphase, hstate, by rw [htimer]; rfl, htext, hseparator⟩
  refine ⟨fun text queue hq => ?_, fun p queue hq => ?_⟩
  · rw [exec_step_of_composing hs, compositionStep_of_announce hq]
    exact congrArg Host.Outcome.next (restartStep_of_running (s := beginText text (setQueue queue s)) hstate)
  · intro raw late v tk omits
    have hlevel : LevelUpdated (setQueue queue s) v := levelUpdated_updateLevel late (setQueue queue s)
    have hround : compositionStep s = if v.ticker.level = 4 ∧ p.tapeClass = .b then compositionStep (countOmitted 1 v)
        else printComposed p v := compositionStep_of_print hq
    clear_value v
    obtain ⟨hframe, hticker, hparams, -⟩ := hlevel
    have hv : Composing v := hs.of_ticker (by rw [hframe]; rfl) hticker
    have hrecords : v.records = s.records := by rw [hframe]; rfl
    have hparam (i : Fin 20) : param v i = param s i := congrArg (fun x => (x[i]).toNat) hparams
    rw [exec_step_of_composing hs, hround]
    refine ⟨fun homits => ?_, fun hkept => ?_⟩
    · have hleft : Composing (countOmitted 1 v) := hv.of_ticker rfl rfl
      rw [if_pos homits]
      exact (exec_step_of_composing hleft).symm
    · rw [if_neg hkept, restartStep_printComposed p hv.state]
      refine ⟨matchingRecord v p, _, rfl, fun r => ?_, ⟨?_, fun r hr => ?_, fun hr => ?_⟩, fun n hn => ?_, rfl⟩
      · rw [← hrecords]
        exact matchingRecord_eq_some_iff v p r
      · refine congrArg₂ (printedTicker p v.ticker) ?_ ?_
        · rw [composedText_eq, hparam]
          rfl
        · rw [intervalAt, hparam, hparam]
      · show tableGet (setTapeFields p v).records p.record = _
        rw [setTapeFields_records_of_some hr, tableGet_tableSet_self, hr]
        rfl
      · exact (setTapeFields_records_of_none hr).trans hrecords
      · rw [← hrecords]
        exact setTapeFields_keepsOthers p v n hn

end Sys2Proof.Machine

namespace Sys2Proof.Machine

open Sys2Proof.Safety

/-! ## The blocks whose bounds are kept (R47, R59, R106, R115, R167, R168, R172), as one view of the state -/

/-- The blocks that the laws of bounds speak of. -/
structure BoundsView where
  intake : List IntakeEntry
  load : Option Nat
  bulletins : Vector (List BulletinEntry) 8
  ticker : Ticker
  time : TimeBase
  mgmt : Management

/-- The view of a state. -/
def State.boundsView (s : State) : BoundsView :=
  { intake := s.intake, load := s.load, bulletins := s.bulletins, ticker := s.ticker, time := s.time, mgmt := s.mgmt }

section
variable (s : State)

@[simp] theorem boundsView_setPhase (x : Phase) : (s.setPhase x).boundsView = s.boundsView := rfl
@[simp] theorem boundsView_setFeed (x : Feed) : (s.setFeed x).boundsView = s.boundsView := rfl
@[simp] theorem boundsView_setRecords (x : Table QuoteRecord) : (s.setRecords x).boundsView = s.boundsView := rfl
@[simp] theorem boundsView_setDirectory (x : List (SymbolCode × Nat)) :
    (s.setDirectory x).boundsView = s.boundsView := rfl
@[simp] theorem boundsView_setChain (c : ChainId) (x : Chain) : (s.setChain c x).boundsView = s.boundsView := rfl
@[simp] theorem boundsView_setFlashClock (x : FlashClock) : (s.setFlashClock x).boundsView = s.boundsView := rfl
@[simp] theorem boundsView_setSlots (x : Table Slot) : (s.setSlots x).boundsView = s.boundsView := rfl
@[simp] theorem boundsView_setLine (x : TerminalLine) : (s.setLine x).boundsView = s.boundsView := rfl
@[simp] theorem boundsView_setTerm (t : TermId) (x : Terminal) : (s.setTerm t x).boundsView = s.boundsView := rfl
@[simp] theorem boundsView_setDraws (x : Nat) : (s.setDraws x).boundsView = s.boundsView := rfl
@[simp] theorem boundsView_statusLinesPending : (statusLinesPending s).boundsView = s.boundsView := rfl

/-! ### Operations that leave the view as it is -/

@[simp] theorem boundsView_refreshStart (c : ChainId) : (refreshStart c s).boundsView = s.boundsView := by
  rw [refreshStart_frame]; rfl

@[simp] theorem boundsView_wakeChain (c : ChainId) : (wakeChain c s).boundsView = s.boundsView := by
  rw [wakeChain_frame]; rfl

@[simp] theorem boundsView_wakeChains : (wakeChains s).boundsView = s.boundsView := by
  rw [wakeChains_frame]; simp only [State.boundsView]

@[simp] theorem boundsView_markSlots (pick : Slot → Bool) (f : Slot → Slot) :
    (markSlots pick f s).boundsView = s.boundsView := by
  rw [markSlots_frame]; simp only [State.boundsView]

@[simp] theorem boundsView_markStatus : (markStatus s).boundsView = s.boundsView := boundsView_markSlots _ _ _

@[simp] theorem boundsView_markClocks : (markClocks s).boundsView = s.boundsView := boundsView_markSlots _ _ _

@[simp] theorem boundsView_markMessages (k : StackId) : (markMessages k s).boundsView = s.boundsView :=
  boundsView_markSlots _ _ _

@[simp] theorem boundsView_markAllSlots : (markAllSlots s).boundsView = s.boundsView := boundsView_markSlots _ _ _

@[simp] theorem boundsView_handNames (n : Nat) (names : NameSet) : (handNames n names s).boundsView = s.boundsView := by
  rw [handNames_frame]; rfl

@[simp] theorem boundsView_handDeletion (n : Nat) : (handDeletion n s).boundsView = s.boundsView := by
  rw [handDeletion_frame]; simp only [State.boundsView]

@[simp] theorem boundsView_updateRecord (n : Nat) (r : QuoteRecord) (names : NameSet) :
    (updateRecord n r names s).boundsView = s.boundsView := by
  rw [updateRecord_frame]; rfl

@[simp] theorem boundsView_markAllStale : (markAllStale s).boundsView = s.boundsView := by
  rw [markAllStale_frame]; rfl

@[simp] theorem boundsView_afterGap (e : IntakeEntry) : (afterGap e s).boundsView = s.boundsView := by
  simp only [afterGap]
  split <;> simp

@[simp] theorem boundsView_recordsDayReset : (recordsDayReset s).boundsView = s.boundsView := by
  rw [recordsDayReset_frame]; rfl

@[simp] theorem boundsView_select : (select s).boundsView = s.boundsView := by
  rw [select_frame]; rfl

@[simp] theorem boundsView_handLevel : (handLevel s).boundsView = s.boundsView := by
  rw [handLevel_frame]; simp only [State.boundsView]

@[simp] theorem boundsView_minuteChange : (minuteChange s).boundsView = s.boundsView := by
  simp [minuteChange]

@[simp] theorem boundsView_lineSession (old : SessionState) : (lineSession old s).boundsView = s.boundsView := by
  rw [lineSession_frame]; rfl

@[simp] theorem boundsView_applyChainEntry (c : ChainId) (e : ChainEntry) :
    (applyChainEntry c e s).boundsView = s.boundsView := by
  simp [applyChainEntry]

@[simp] theorem boundsView_applyModuleEntry (c : ChainId) (k : Fin 64) (m : ModuleKind) :
    (applyModuleEntry c k m s).boundsView = s.boundsView := by
  simp [applyModuleEntry]

@[simp] theorem boundsView_chainResetAtRest (c : ChainId) : (chainResetAtRest c s).boundsView = s.boundsView := by
  simp only [chainResetAtRest]
  split <;> simp

@[simp] theorem boundsView_chainResetAt (c : ChainId) : (chainResetAt c s).boundsView = s.boundsView := by
  simp only [chainResetAt]
  split <;> simp

@[simp] theorem boundsView_clearLatch (named : AlertSet) (c : ChainId) :
    (clearLatch named c s).boundsView = s.boundsView := by
  simp only [clearLatch]
  split <;> simp

@[simp] theorem boundsView_flashExpire (n : Nat) : (flashExpire n s).boundsView = s.boundsView := by
  simp only [flashExpire]
  repeat' split
  all_goals simp

@[simp] theorem boundsView_resyncFormer (n : Nat) : (resyncFormer n s).boundsView = s.boundsView := by
  simp only [resyncFormer]
  split <;> simp

@[simp] theorem boundsView_snapshotAfterLoad (s₀ u : State) (c : ChainId) :
    (snapshotAfterLoad s₀ u c s).boundsView = s.boundsView := by
  simp only [snapshotAfterLoad, snapshotNow]
  split <;> simp

@[simp] theorem boundsView_keepaliveExpire (c : ChainId) : (keepaliveExpire c s).boundsView = s.boundsView := by
  simp only [keepaliveExpire]
  split <;> simp

@[simp] theorem boundsView_halfPeriodExpire : (halfPeriodExpire s).boundsView = s.boundsView := by
  simp only [halfPeriodExpire, flashHalfPeriod]
  split <;> simp

@[simp] theorem boundsView_windowLoaded : (windowLoaded s).boundsView = s.boundsView := by
  simp only [windowLoaded]
  repeat' split
  all_goals simp

@[simp] theorem boundsView_setTapeFields (p : Print) : (setTapeFields p s).boundsView = s.boundsView := by
  rw [setTapeFields_frame]; rfl

@[simp] theorem boundsView_changeRow (t : TermId) (i : Fin 16) (item : Option Nat) :
    (changeRow t i item s).boundsView = s.boundsView := by
  rw [changeRow_frame]; rfl

@[simp] theorem boundsView_placeResult (t : TermId) (code : ResultCode) (row : Byte) :
    (placeResult t code row s).boundsView = s.boundsView := rfl

@[simp] theorem boundsView_applyAdd (t : TermId) (row : Nat) (symbol : SymbolCode) :
    (applyAdd t row symbol s).boundsView = s.boundsView := by
  simp only [applyAdd]
  repeat' split
  all_goals simp

@[simp] theorem boundsView_applyDrop (t : TermId) (row : Byte) : (applyDrop t row s).boundsView = s.boundsView := by
  simp only [applyDrop]
  repeat' split
  all_goals simp

@[simp] theorem boundsView_applyRequest (t : TermId) (request : Option Request) :
    (applyRequest t request s).boundsView = s.boundsView := by
  simp only [applyRequest]
  split <;> simp

@[simp] theorem boundsView_setEnabled (t : TermId) (enabled : Bool) :
    (setEnabled t enabled s).boundsView = s.boundsView := by
  simp only [setEnabled]
  repeat' split
  all_goals simp

@[simp] theorem boundsView_terminalResetAt (t : TermId) : (terminalResetAt t s).boundsView = s.boundsView := by
  simp only [terminalResetAt]
  repeat' split
  all_goals simp

@[simp] theorem boundsView_applyWaiting (t : TermId) : (applyWaiting t s).boundsView = s.boundsView := by
  simp only [applyWaiting]
  repeat' split
  all_goals simp

@[simp] theorem boundsView_freeLine : (freeLine s).boundsView = s.boundsView := by
  simp only [freeLine]
  split <;> simp

@[simp] theorem boundsView_frameSent : (frameSent s).boundsView = s.boundsView := by
  simp only [frameSent]
  repeat' split
  all_goals simp

@[simp] theorem boundsView_probeExpire (t : TermId) : (probeExpire t s).boundsView = s.boundsView := by
  simp only [probeExpire]
  split <;> simp

@[simp] theorem boundsView_gapExpire : (gapExpire s).boundsView = s.boundsView := by
  simp only [gapExpire]
  split <;> simp

end

end Sys2Proof.Machine

namespace Sys2Proof.Machine

open Sys2Proof.Safety

/-! ## What an operation keeps of the bounds -/

/-- No entry of a bulletin stack has run out (R106). -/
def NoneRunOut (stack : List BulletinEntry) : Prop := ∀ e ∈ stack, e.timer ≠ some 0

/-- An operation that leaves the intake queue and the place of a LOAD as they are, and keeps the bounds of every other
block. -/
structure KeepsBlocks (s t : State) : Prop where
  intake : t.intake = s.intake
  load : t.load = s.load
  stackLength : ∀ k : StackId, (s.bulletins[k]).length ≤ 4 → (t.bulletins[k]).length ≤ 4
  stackTimers : ∀ k : StackId, NoneRunOut s.bulletins[k] → NoneRunOut t.bulletins[k]
  ticker : TickerBounded s → TickerBounded t
  replies : RepliesBounded s → RepliesBounded t
  time : TimeInRange s → TimeInRange t
  params : ParamsLegal s → ParamsLegal t

/-- States of one view have the same blocks. -/
theorem blocks_of_boundsView {s t : State} (h : t.boundsView = s.boundsView) : t.intake = s.intake ∧ t.load = s.load
    ∧ t.bulletins = s.bulletins ∧ t.ticker = s.ticker ∧ t.time = s.time ∧ t.mgmt = s.mgmt := by
  simpa only [State.boundsView, BoundsView.mk.injEq] using h

namespace KeepsBlocks

variable {s t u : State}

/-- Operations that leave the view as it is. -/
theorem of_view (h : t.boundsView = s.boundsView) : KeepsBlocks s t := by
  obtain ⟨hintake, hload, hbulletins, hticker, htime, hmgmt⟩ := blocks_of_boundsView h
  refine ⟨hintake, hload, ?_, ?_, ?_, ?_, ?_, ?_⟩
  · simp only [hbulletins, imp_self, implies_true]
  · simp only [hbulletins, imp_self, implies_true]
  · simp only [TickerBounded, hticker, imp_self]
  · simp only [RepliesBounded, hmgmt, imp_self]
  · simp only [TimeInRange, htime, imp_self]
  · simp only [ParamsLegal, param, hmgmt, imp_self]

theorem refl (s : State) : KeepsBlocks s s := of_view rfl

theorem trans (h : KeepsBlocks s t) (h' : KeepsBlocks t u) : KeepsBlocks s u where
  intake := h'.intake.trans h.intake
  load := h'.load.trans h.load
  stackLength k hk := h'.stackLength k (h.stackLength k hk)
  stackTimers k hk := h'.stackTimers k (h.stackTimers k hk)
  ticker ht := h'.ticker (h.ticker ht)
  replies hr := h'.replies (h.replies hr)
  time ht := h'.time (h.time ht)
  params hp := h'.params (h.params hp)

/-- An operation, and then some that leave the view as it is. -/
theorem congr_right (h : KeepsBlocks s t) (he : u.boundsView = t.boundsView) : KeepsBlocks s u := h.trans (of_view he)

/-- Some that leave the view as it is, and then an operation. -/
theorem congr_left (he : t.boundsView = s.boundsView) (h : KeepsBlocks t u) : KeepsBlocks s u := (of_view he).trans h

/-- Operations of states taken one after the other from a list. -/
theorem foldl {α : Type} {f : State → α → State} (h : ∀ s x, KeepsBlocks s (f s x)) :
    ∀ (l : List α) (s : State), KeepsBlocks s (l.foldl f s)
  | [], s => refl s
  | x :: rest, s => (h s x).trans (foldl h rest (f s x))

/-- A change of the ticker alone. -/
theorem onTicker {f : Ticker → Ticker} (h : TickerBounded s → TickerBounded (Machine.onTicker f s)) :
    KeepsBlocks s (Machine.onTicker f s) := { refl s with ticker := h }

/-- A change of the clock and the session alone. -/
theorem setTime {x : TimeBase} (h : TimeInRange s → TimeInRange (s.setTime x)) : KeepsBlocks s (s.setTime x) :=
  { refl s with time := h }

/-- A change of the responder alone. -/
theorem setMgmt {m : Management} (hreplies : RepliesBounded s → RepliesBounded (s.setMgmt m))
    (hparams : ParamsLegal s → ParamsLegal (s.setMgmt m)) : KeepsBlocks s (s.setMgmt m) :=
  { refl s with replies := hreplies, params := hparams }

/-- A change of the responder alone that leaves the parameters as they are. -/
theorem setMgmt_of_params {m : Management} (hreplies : RepliesBounded s → RepliesBounded (s.setMgmt m))
    (hparams : m.params = s.mgmt.params) : KeepsBlocks s (s.setMgmt m) :=
  setMgmt hreplies (by simp only [ParamsLegal, param, setMgmt_mgmt, hparams, imp_self])

/-- A change of one bulletin stack alone. -/
theorem setStack {k : StackId} {x : List BulletinEntry} (hlength : (s.bulletins[k]).length ≤ 4 → x.length ≤ 4)
    (htimers : NoneRunOut s.bulletins[k] → NoneRunOut x) : KeepsBlocks s (s.setStack k x) := by
  have hget (j : StackId) : (s.setStack k x).bulletins[j] = if j = k then x else s.bulletins[j] := by
    by_cases h : j = k
    · subst h
      simp
    · have hne : k.val ≠ j.val := fun hv => h (Fin.ext hv.symm)
      simp [h, Vector.getElem_set_ne _ _ hne]
  refine { refl s with stackLength := fun j hj => ?_, stackTimers := fun j hj => ?_ }
  · rw [hget]
    split
    · rename_i h
      exact hlength (h ▸ hj)
    · exact hj
  · rw [hget]
    split
    · rename_i h
      exact htimers (h ▸ hj)
    · exact hj

end KeepsBlocks

/-! ### Alerts, replies and the return line (R172, R173) -/

/-- The reply queue within its capacity. -/
def RepliesFit (queue : List ReturnEntry) : Prop := repliesWaiting queue ≤ 4 ∧ queue.count .alert ≤ 1

theorem repliesFit_queueAlert {m : Management} (h : RepliesFit m.replyQueue) : RepliesFit (queueAlert m).replyQueue := by
  obtain ⟨hreplies, halert⟩ := h
  simp only [queueAlert]
  split
  · exact ⟨hreplies, halert⟩
  · rename_i hwaits
    have hnone : m.replyQueue.count .alert = 0 :=
      List.count_eq_zero.mpr (by simpa [alertWaits] using hwaits)
    refine ⟨?_, ?_⟩
    · simpa [repliesWaiting] using hreplies
    · simp [hnone]

theorem repliesFit_alertSet (a : Alert) {m : Management} (h : RepliesFit m.replyQueue) :
    RepliesFit (alertSet a m).replyQueue := by
  simp only [alertSet]
  split
  · exact h
  · split
    · exact repliesFit_queueAlert h
    · exact h

theorem replied_params (tag : BitVec 16) (answer : List Byte) (m : Management) :
    (replied tag answer m).params = m.params := by
  simp only [replied]
  split
  · rfl
  · exact alertSet_params _ _

theorem repliesFit_replied (tag : BitVec 16) (answer : List Byte) {m : Management} (h : RepliesFit m.replyQueue) :
    RepliesFit (replied tag answer m).replyQueue := by
  simp only [replied]
  split
  · rename_i hroom
    refine ⟨?_, ?_⟩
    · simpa [repliesWaiting, List.countP_append] using hroom
    · simpa [List.count_append] using h.2
  · exact repliesFit_alertSet _ h

/-- The head entry taken off. -/
theorem repliesFit_tail {e : ReturnEntry} {rest : List ReturnEntry} (h : RepliesFit (e :: rest)) : RepliesFit rest :=
  ⟨((List.sublist_cons_self e rest).countP_le).trans h.1, ((List.sublist_cons_self e rest).count_le _).trans h.2⟩

theorem raiseAlert_keepsBlocks (a : Alert) (s : State) : KeepsBlocks s (raiseAlert a s) :=
  .setMgmt_of_params (repliesFit_alertSet a) (alertSet_params a s.mgmt)

theorem replyTo_keepsBlocks (body answer : List Byte) (s : State) : KeepsBlocks s (replyTo body answer s) := by
  rw [replyTo_frame]
  exact .setMgmt_of_params (repliesFit_replied _ _) (replied_params _ _ _)

theorem takeReturnHead_keepsBlocks (s : State) : KeepsBlocks s (takeReturnHead s) := by
  simp only [takeReturnHead]
  split
  · exact .refl s
  · rename_i e rest hq
    refine .setMgmt_of_params (fun h => ?_) rfl
    have hfit : RepliesFit (e :: rest) := hq ▸ h
    exact repliesFit_tail hfit

theorem returnStart_keepsBlocks (s : State) : KeepsBlocks s (returnStart s) := by
  simp only [returnStart]
  split
  · exact takeReturnHead_keepsBlocks s
  · exact .refl s

theorem returnSent_keepsBlocks (s : State) : KeepsBlocks s (returnSent s) := by
  simp only [returnSent]
  split
  · exact (KeepsBlocks.setMgmt_of_params (m := { s.mgmt with sending := none }) id rfl).trans (takeReturnHead_keepsBlocks _)
  · exact .refl s

/-! ### The ticker (R115 to R132) -/

/-- A queue no longer than it was, or within its capacity. -/
theorem setQueue_keepsBlocks {queue : List TickerEntry} {s : State}
    (h : s.ticker.queue.length ≤ 256 → queue.length ≤ 256) : KeepsBlocks s (setQueue queue s) := by
  refine .onTicker fun ⟨hqueue, hrest⟩ => ⟨h hqueue, hrest⟩

theorem countOmitted_keepsBlocks (n : Nat) (s : State) : KeepsBlocks s (countOmitted n s) := by
  have hcount : KeepsBlocks s (onTicker (fun t => { t with omitted := t.omitted + BitVec.ofNat 24 n }) s) := .onTicker id
  simp only [countOmitted]
  split
  · exact hcount
  · exact hcount.trans (raiseAlert_keepsBlocks _ _)

/-- Room is made by the removal of a class B print. -/
theorem length_dropOldestB {queue : List TickerEntry} (h : queue.any isClassB = true) :
    (dropOldestB queue).length = queue.length - 1 := by
  obtain ⟨e, he, hb⟩ := List.any_eq_true.mp h
  exact List.length_eraseP_of_mem he hb

theorem length_placeText (atHead : Bool) (text : List Byte) (queue : List TickerEntry) :
    (placeText atHead text queue).length = queue.length + 1 := by
  cases atHead <;> simp [placeText]

theorem offerText_keepsBlocks (atHead : Bool) (text : List Byte) (s : State) :
    KeepsBlocks s (offerText atHead text s) := by
  simp only [offerText]
  split
  · exact .refl s
  · split
    · rename_i hroom
      simp only [tickerCapacity] at hroom
      exact setQueue_keepsBlocks fun _ => by rw [length_placeText]; omega
    · split
      · rename_i hb
        refine (setQueue_keepsBlocks fun hlen => ?_).trans (countOmitted_keepsBlocks 1 _)
        rw [length_placeText, length_dropOldestB hb]
        omega
      · exact .refl s

theorem length_changeFirst (pick : TickerEntry → Bool) (f : TickerEntry → TickerEntry) (queue : List TickerEntry) :
    (changeFirst pick f queue).length = queue.length := by
  induction queue with
  | nil => rfl
  | cons e rest ih =>
    simp only [changeFirst]
    split
    · rfl
    · rw [List.length_cons, ih, List.length_cons]

theorem length_mergeYoungest (p : Print) (queue : List TickerEntry) : (mergeYoungest p queue).length = queue.length := by
  simp only [mergeYoungest, List.length_reverse, length_changeFirst]

theorem admitToFull_keepsBlocks (p : Print) (s : State) : KeepsBlocks s (admitToFull p s) := by
  simp only [admitToFull]
  split
  · exact .onTicker fun ⟨hqueue, hrest⟩ => ⟨(length_mergeYoungest p s.ticker.queue).trans_le hqueue, hrest⟩
  · split
    · exact countOmitted_keepsBlocks 1 s
    · split
      · rename_i hb
        refine (setQueue_keepsBlocks fun hlen => ?_).trans (countOmitted_keepsBlocks 1 _)
        rw [List.length_append, length_dropOldestB hb, List.length_singleton]
        omega
      · exact countOmitted_keepsBlocks 1 s

theorem offerPrint_keepsBlocks (p : Print) (s : State) : KeepsBlocks s (offerPrint p s) := by
  simp only [offerPrint]
  split
  · exact .refl s
  · refine KeepsBlocks.trans (t := onTicker (fun t => { t with admitted := t.admitted + 1 }) s) (.onTicker id) ?_
    split
    · rename_i hroom
      simp only [tickerCapacity] at hroom
      exact setQueue_keepsBlocks fun _ => by rw [List.length_append, List.length_singleton]; omega
    · exact admitToFull_keepsBlocks p _

/-- The lateness of a print is at most half a day (R121). -/
theorem latenessOf_le (tb : TimeBase) (t : TimeOfDay) : latenessOf tb t ≤ 43200 := by
  simp only [latenessOf]
  split
  · rename_i h
    exact h.2
  · exact Nat.zero_le _

theorem calledLevel_le (s : State) (lateness : Nat) : calledLevel s lateness ≤ 4 := by
  simp only [calledLevel]
  repeat' split
  all_goals omega

theorem nextLevel_le {s : State} (lateness : Nat) (h : s.ticker.level ≤ 4) : nextLevel s lateness ≤ 4 := by
  have hcalled := calledLevel_le s lateness
  simp only [nextLevel]
  repeat' split
  all_goals omega

/-- A level update, while the ticker runs. -/
theorem updateLevel_keepsBlocks {lateness : Nat} {s : State} (hstate : s.ticker.state ≠ .stopped)
    (hlateness : lateness ≤ 43200) : KeepsBlocks s (updateLevel lateness s) := by
  by_cases h : nextLevel s lateness = s.ticker.level
  · rw [updateLevel_of_stay h]
    exact .refl s
  · rw [updateLevel_of_change h]
    have hset : KeepsBlocks s (levelSet lateness s) := by
      refine KeepsBlocks.trans (.onTicker fun ⟨hqueue, _, hlevel, _, hsep⟩ => ?_) (raiseAlert_keepsBlocks _ _)
      have hminutes : lateness / 60 ≤ 720 := by omega
      exact ⟨hqueue, fun hstopped => absurd hstopped hstate, nextLevel_le lateness hlevel, hminutes, hsep⟩
    exact (hset.congr_right (boundsView_handLevel _)).trans (offerText_keepsBlocks _ _ _)

theorem updateLevel_state (lateness : Nat) (s : State) : (updateLevel lateness s).ticker.state = s.ticker.state := by
  rw [(levelUpdated_updateLevel lateness s).ticker]

theorem beginText_keepsBlocks (text : List Byte) (s : State) : KeepsBlocks s (beginText text s) := by
  refine .onTicker fun ⟨hqueue, hstopped, hlevel, hminutes, _⟩ => 
    ⟨hqueue, hstopped, hlevel, hminutes, ?_⟩
  show (if text.length ≤ 1 then 2 else 0) ≤ 2
  split
  · exact Nat.le_refl 2
  · exact Nat.zero_le 2

theorem condense_keepsBlocks (p : Print) (s : State) : KeepsBlocks s (condense p s).2 := by
  rw [condense_eq]
  refine .onTicker (f := condensedTicker p) fun ⟨hqueue, hrest⟩ => ⟨?_, hrest⟩
  exact (List.length_filter_le _ s.ticker.queue).trans hqueue

theorem printComposed_keepsBlocks (p : Print) (s : State) : KeepsBlocks s (printComposed p s) := by
  have hfields := (condense_keepsBlocks p s).congr_right (boundsView_setTapeFields (condense p s).2 (condense p s).1)
  exact (hfields.trans (.onTicker id)).trans (beginText_keepsBlocks _ _)

/-- A composition, while the ticker runs, which it goes on to do. -/
theorem compose_keepsBlocks (fuel : Nat) : ∀ {s : State}, s.ticker.state ≠ .stopped →
    KeepsBlocks s (compose fuel s).2 := by
  induction fuel with
  | zero => exact fun _ => .refl _
  | succ k ih =>
    intro s hstate
    have taken {e : TickerEntry} {rest : List TickerEntry} (hq : s.ticker.queue = e :: rest) :
        KeepsBlocks s (setQueue rest s) :=
      setQueue_keepsBlocks fun hlen => by rw [hq, List.length_cons] at hlen; omega
    simp only [compose]
    split
    · exact .refl s
    · rename_i hq
      exact (taken hq).trans (beginText_keepsBlocks _ _)
    · rename_i p rest hq
      have hlevel := (taken hq).trans (updateLevel_keepsBlocks hstate (latenessOf_le s.time p.time))
      have hruns := updateLevel_state (latenessOf s.time p.time) (setQueue rest s)
      generalize updateLevel (latenessOf s.time p.time) (setQueue rest s) = v at hlevel hruns
      split
      · exact (hlevel.trans (countOmitted_keepsBlocks 1 v)).trans (ih (hruns ▸ hstate))
      · exact hlevel.trans (printComposed_keepsBlocks p v)

theorem stopTicker_keepsBlocks (s : State) : KeepsBlocks s (stopTicker s) := by
  have hstop : KeepsBlocks s (onTicker (fun t => { t with
      state := .stopped, stepTimer := none, text := [], cursor := 0, separator := 0, level := 0, lateMinutes := 0 }) s) :=
    .onTicker fun ⟨hqueue, _⟩ => ⟨hqueue, fun _ => rfl, Nat.zero_le _, Nat.zero_le _, Nat.zero_le _⟩
  simp only [stopTicker]
  split
  · exact hstop
  · exact hstop.congr_right (boundsView_handLevel _)

theorem emitBlank_keepsBlocks (s : State) : KeepsBlocks s (emitBlank s) := .onTicker id

theorem compositionStep_keepsBlocks {s : State} (hstate : s.ticker.state ≠ .stopped) :
    KeepsBlocks s (compositionStep s) := by
  have h := compose_keepsBlocks (s.ticker.queue.length + 1) hstate
  simp only [compositionStep]
  split
  · rename_i t ht
    rwa [ht] at h
  · rename_i t ht
    rw [ht] at h
    split
    · exact (h.trans (emitBlank_keepsBlocks t)).trans (stopTicker_keepsBlocks _)
    · exact h.trans (emitBlank_keepsBlocks t)

theorem emitStep_keepsBlocks {s : State} (hstate : s.ticker.state ≠ .stopped) : KeepsBlocks s (emitStep s) := by
  simp only [emitStep]
  split
  · refine .onTicker (f := fun _ => _) fun ⟨hqueue, hstopped, hlevel, hminutes, hsep⟩ =>
      ⟨hqueue, hstopped, hlevel, hminutes, ?_⟩
    show (if _ then 2 else s.ticker.separator) ≤ 2
    split
    · exact Nat.le_refl 2
    · exact hsep
  · split
    · exact .onTicker (f := fun _ => _) fun ⟨hqueue, hstopped, hlevel, hminutes, hsep⟩ =>
        ⟨hqueue, hstopped, hlevel, hminutes, (Nat.sub_le _ 1).trans hsep⟩
    · exact compositionStep_keepsBlocks hstate

theorem stepExpire_keepsBlocks (s : State) : KeepsBlocks s (stepExpire s) := by
  simp only [stepExpire]
  split
  · rename_i h
    refine (emitStep_keepsBlocks h.2).trans ?_
    simp only [restartStep]
    split
    · exact .refl _
    · exact .onTicker id
  · exact .refl s

theorem tickerSession_keepsBlocks (old new : SessionState) (s : State) : KeepsBlocks s (tickerSession old new s) := by
  simp only [tickerSession]
  split
  · split
    · exact .onTicker fun ⟨hqueue, _, hlevel, hminutes, _⟩ => ⟨hqueue, nofun, hlevel, hminutes, Nat.zero_le _⟩
    · exact .onTicker fun ⟨hqueue, _, hrest⟩ => ⟨hqueue, nofun, hrest⟩
  · split
    · exact .onTicker fun ⟨hqueue, _, hrest⟩ => ⟨hqueue, nofun, hrest⟩
    · exact .refl s

theorem tickerFlushAt_keepsBlocks (s : State) : KeepsBlocks s (tickerFlushAt s) :=
  (setQueue_keepsBlocks fun _ => Nat.zero_le _).trans (countOmitted_keepsBlocks _ _)

theorem tickerDayReset_keepsBlocks (s : State) : KeepsBlocks s (tickerDayReset s) := by
  have hreset : KeepsBlocks s (onTicker (fun t => { t with
      queue := [], admitted := 0, printed := 0, merged := 0, omitted := 0, level := 0, lateMinutes := 0 }) s) :=
    .onTicker fun ⟨_, _, _, _, hsep⟩ => ⟨Nat.zero_le _, fun _ => rfl, Nat.zero_le _, Nat.zero_le _, hsep⟩
  simp only [tickerDayReset]
  split
  · exact hreset
  · exact hreset.congr_right (boundsView_handLevel _)

end Sys2Proof.Machine

namespace Sys2Proof.Machine

open Sys2Proof.Safety

/-! ## The bounds and the operations of the blocks -/

/-! ### Boards (chapter 5) -/

theorem shiftComplete_keepsBlocks (c : ChainId) (returned : List Byte) (s : State) :
    KeepsBlocks s (shiftComplete c returned s) := by
  simp only [shiftComplete]
  split
  · split
    · exact .congr_left (boundsView_setChain s c _) (raiseAlert_keepsBlocks _ _)
    · exact .of_view (boundsView_setChain s c _)
  · exact .refl s

theorem settleExpire_keepsBlocks (c : ChainId) (s : State) : KeepsBlocks s (settleExpire c s) := by
  simp only [settleExpire, settleComplete]
  split
  · split
    · exact .of_view (boundsView_setChain s c _)
    · split
      · exact .congr_left (boundsView_setChain s c _) (raiseAlert_keepsBlocks _ _)
      · exact .of_view (by simp)
  · exact .refl s

theorem senseChange_keepsBlocks (c : ChainId) (present : Bool) (s : State) :
    KeepsBlocks s (senseChange c present s) := by
  have hraised := raiseAlert_keepsBlocks (.chainSense c) s
  simp only [senseChange]
  split
  · exact hraised.congr_right (boundsView_setChain _ c _)
  · split
    · exact hraised.congr_right (by simp)
    · exact hraised.congr_right (boundsView_setChain _ c _)

/-! ### Market data (chapter 1) -/

theorem applyTrade_keepsBlocks (q : TradeItems) (s : State) : KeepsBlocks s (applyTrade q s) := by
  simp only [applyTrade]
  split
  · exact .refl s
  · split
    · exact .refl s
    · split
      · exact .congr_left (boundsView_updateRecord s _ _ _) (offerPrint_keepsBlocks _ _)
      · exact .of_view (boundsView_updateRecord s _ _ _)

theorem applyQuote_keepsBlocks (q : QuoteItems) (s : State) : KeepsBlocks s (applyQuote q s) := by
  refine .of_view ?_
  simp only [applyQuote]
  repeat' split
  all_goals simp

theorem applySymbolState_keepsBlocks (q : SymbolStateItems) (s : State) : KeepsBlocks s (applySymbolState q s) := by
  simp only [applySymbolState]
  split
  · exact .refl s
  · split
    · exact .refl s
    · split
      · exact .refl s
      · split
        · exact .of_view (boundsView_updateRecord s _ _ _)
        · exact .congr_left (boundsView_updateRecord s _ _ _) (offerText_keepsBlocks _ _ _)

theorem applyRecap_keepsBlocks (q : RecapItems) (s : State) : KeepsBlocks s (applyRecap q s) := by
  refine .of_view ?_
  simp only [applyRecap]
  repeat' split
  all_goals simp

/-! ### Clock and session (chapter 4) -/

/-- A time of day within its range is at most 86399 seconds. -/
theorem secondsOf_clockItems_le {p : List Byte} {t : TimeOfDay} (h : clockItems p = some t) : secondsOf t ≤ 86399 := by
  by_cases hfails : ClockFails p
  · rw [(reads_clockItems p).1 hfails] at h
    cases h
  · obtain rfl := Option.some.inj (((reads_clockItems p).2 hfails).symm.trans h)
    simp only [secondsOf, timeOf]
    omega

theorem applyClock_keepsBlocks {p : List Byte} {q : TimeOfDay} (h : clockItems p = some q) (s : State) :
    KeepsBlocks s (applyClock q s) := by
  have hset : KeepsBlocks s (s.setTime { s.time with clock := secondsOf q, clockSet := true, phaseTicks := 0 }) :=
    .setTime fun _ => ⟨secondsOf_clockItems_le h, Nat.zero_le _⟩
  simp only [applyClock]
  split
  · exact hset.congr_right (boundsView_minuteChange _)
  · exact hset

theorem advancedClock_le {clock : Nat} (h : clock ≤ 86399) : advancedClock clock ≤ 86399 := by
  simp only [advancedClock]
  split <;> omega

/-- The second phase reaching 1000 brings the clock into its range, whatever the phase was. -/
theorem secondExpire_time (s : State) : (secondExpire s).time.clock = advancedClock s.time.clock
    ∧ (secondExpire s).time.phaseTicks = 0 := by
  simp only [secondExpire]
  split
  · obtain ⟨-, -, -, -, htime, -⟩ := blocks_of_boundsView
      (boundsView_minuteChange (s.setTime { s.time with clock := advancedClock s.time.clock, phaseTicks := 0 }))
    rw [htime]
    exact ⟨rfl, rfl⟩
  · exact ⟨rfl, rfl⟩

theorem secondExpire_keepsBlocks (s : State) : KeepsBlocks s (secondExpire s) := by
  have hset : KeepsBlocks s (s.setTime { s.time with clock := advancedClock s.time.clock, phaseTicks := 0 }) :=
    .setTime fun h => ⟨advancedClock_le h.1, Nat.zero_le _⟩
  simp only [secondExpire]
  split
  · exact hset.congr_right (boundsView_minuteChange _)
  · exact hset

theorem handSession_keepsBlocks (old new : SessionState) (s : State) : KeepsBlocks s (handSession old new s) := by
  simp only [handSession]
  refine KeepsBlocks.congr_right ?_ (boundsView_lineSession _ old)
  exact .congr_left (boundsView_markStatus s) (tickerSession_keepsBlocks old new _)

theorem dayReset_keepsBlocks (s : State) : KeepsBlocks s (dayReset s) := by
  simp only [dayReset]
  refine KeepsBlocks.congr_right ?_ (boundsView_markAllSlots _)
  exact .congr_left (boundsView_recordsDayReset s) (tickerDayReset_keepsBlocks _)

theorem applySession_keepsBlocks (code : SessionCode) (s : State) : KeepsBlocks s (applySession code s) := by
  simp only [applySession]
  split
  · exact .refl s
  · rename_i new _
    have hset : KeepsBlocks s (s.setTime { s.time with session := new }) := .setTime id
    split
    · exact .refl s
    · have hhanded := hset.trans (handSession_keepsBlocks s.time.session new _)
      split
      · exact hhanded.trans (dayReset_keepsBlocks _)
      · exact hhanded

/-! ### Bulletin stacks (chapter 6) -/

theorem offerUncovered_keepsBlocks (stack : List BulletinEntry) (s : State) :
    KeepsBlocks s (offerUncovered stack s) := by
  simp only [offerUncovered]
  split
  · exact .refl s
  · split
    · exact offerText_keepsBlocks _ _ s
    · exact .refl s

/-- An entry pushed has its duration before it. -/
theorem pushedEntry_timer (b : BulletinItems) : (pushedEntry b).timer ≠ some 0 := by
  simp only [pushedEntry, startTimer]
  split
  · nofun
  · rw [ne_eq, Option.some.injEq]
    omega

theorem applyPush_keepsBlocks (b : BulletinItems) (s : State) : KeepsBlocks s (applyPush b s) := by
  have hpush : KeepsBlocks s (s.setStack b.stack (pushedEntry b :: (s.bulletins[b.stack]).take (stackCapacity - 1))) := by
    refine .setStack (fun _ => ?_) (fun hnone e he => ?_)
    · simp [stackCapacity]
    · rcases List.mem_cons.mp he with rfl | he
      · exact pushedEntry_timer b
      · exact hnone e (List.mem_of_mem_take he)
  have hmarked := hpush.congr_right (boundsView_markMessages _ b.stack)
  simp only [applyPush]
  split
  · exact hmarked.trans (offerText_keepsBlocks _ _ _)
  · exact hmarked

/-- Part of a stack in place of the stack. -/
theorem setStack_sublist_keepsBlocks {k : StackId} {rest : List BulletinEntry} {s : State}
    (h : rest.Sublist s.bulletins[k]) : KeepsBlocks s (s.setStack k rest) :=
  .setStack (fun hlen => h.length_le.trans hlen) (fun hnone e he => hnone e (h.subset he))

theorem applyPop_keepsBlocks (b : BulletinItems) (s : State) : KeepsBlocks s (applyPop b s) := by
  simp only [applyPop]
  split
  · exact .refl s
  · rename_i top rest hstack
    have hpop : KeepsBlocks s (s.setStack b.stack rest) :=
      setStack_sublist_keepsBlocks (hstack ▸ List.sublist_cons_self top rest)
    exact (hpop.congr_right (boundsView_markMessages _ b.stack)).trans (offerUncovered_keepsBlocks rest _)

theorem applyClear_keepsBlocks (b : BulletinItems) (s : State) : KeepsBlocks s (applyClear b s) := by
  simp only [applyClear]
  split
  · exact .refl s
  · exact (setStack_sublist_keepsBlocks (List.nil_sublist _)).congr_right (boundsView_markMessages _ b.stack)

theorem bulletinExpire_keepsBlocks (k : StackId) (place : Nat) (s : State) :
    KeepsBlocks s (bulletinExpire k place s) := by
  simp only [bulletinExpire]
  split
  · exact .refl s
  · split
    · have herased := setStack_sublist_keepsBlocks (List.eraseIdx_sublist s.bulletins[k] place)
      split
      · exact (herased.congr_right (boundsView_markMessages _ k)).trans (offerUncovered_keepsBlocks _ _)
      · exact herased
    · exact .refl s

/-! ### Table entries (chapters 1, 5, 6, 9 and 10) -/

/-- A value is stored for the parameters of Table 10-1 alone. -/
theorem paramStored_lt {s : State} {i v x : Nat} (h : paramStored s i v = some x) : i < 20 := by
  unfold paramStored at h
  split at h
  case h_20 => cases h
  all_goals omega

/-- The value stored for a parameter lies in its range (Table 10-1), and a threshold between its neighbours (R168). -/
theorem paramStored_legal {s : State} {i : Fin 20} {v x : Nat} (hv : v ≤ 65535) (h : paramStored s i v = some x) :
    (paramRanges[i]).1 ≤ x ∧ x ≤ (paramRanges[i]).2 ∧ x ≤ 65535
      ∧ (i = 9 → x < param s 10) ∧ (i = 10 → param s 9 < x ∧ x < param s 11)
      ∧ (i = 11 → param s 10 < x ∧ x < param s 12) ∧ (i = 12 → param s 11 < x) := by
  fin_cases i <;> simp [paramStored, thresholdOk, clamp, paramRanges] at h ⊢ <;> omega

/-- What each parameter reads as after one is stored. -/
theorem param_setParam (s : State) (i j : Fin 20) {x : Nat} (hx : x ≤ 65535) :
    param (setParam i x s) j = if j = i then x else param s j := by
  by_cases h : j = i
  · subst h
    simpa [param, setParam] using Nat.lt_succ_of_le hx
  · have hne : i.val ≠ j.val := fun hv => h (Fin.ext hv.symm)
    simp [param, setParam, h, hne]

/-- A parameter stored keeps the parameters legal. -/
theorem paramsLegal_setParam {s : State} {i : Fin 20} {v x : Nat} (hv : v ≤ 65535) (hstored : paramStored s i v = some x)
    (h : ParamsLegal s) : ParamsLegal (setParam i x s) := by
  obtain ⟨hlow, hhigh, hword, h9, h10, h11, h12⟩ := paramStored_legal hv hstored
  obtain ⟨hranges, h910, h1011, h1112⟩ := h
  refine ⟨fun j => ?_, ?_⟩
  · rw [param_setParam s i j hword]
    split
    · rename_i hj
      exact hj ▸ ⟨hlow, hhigh⟩
    · exact hranges j
  · simp only [param_setParam s i _ hword]
    by_cases hi9 : i = 9
    · subst hi9
      exact ⟨h9 rfl, h1011, h1112⟩
    by_cases hi10 : i = 10
    · subst hi10
      exact ⟨(h10 rfl).1, (h10 rfl).2, h1112⟩
    by_cases hi11 : i = 11
    · subst hi11
      exact ⟨h910, (h11 rfl).1, (h11 rfl).2⟩
    by_cases hi12 : i = 12
    · subst hi12
      exact ⟨h910, h1011, h12 rfl⟩
    rw [if_neg (Ne.symm hi9), if_neg (Ne.symm hi10), if_neg (Ne.symm hi11), if_neg (Ne.symm hi12)]
    exact ⟨h910, h1011, h1112⟩

/-- A two-byte number is below 2^16. -/
theorem at16_le (p : List Byte) (i : Nat) : at16 p i ≤ 65535 := by
  have hhigh : at8 p i < 256 := (p.getD i 0).isLt
  have hlow : at8 p (i + 1) < 256 := (p.getD (i + 1) 0).isLt
  simp only [at16]
  omega

theorem applyParamEntry_keepsBlocks {i : Nat} {x : List Byte} {s t : State} (h : applyParamEntry i x s = some t) :
    KeepsBlocks s t := by
  simp only [applyParamEntry] at h
  split at h
  · cases h
  · rename_i v hv
    have hset : KeepsBlocks s (setParam i v s) := by
      have hlegal := paramsLegal_setParam (i := ⟨i, paramStored_lt hv⟩) (at16_le x 0) hv
      exact .setMgmt id hlegal
    obtain rfl := Option.some.inj h
    split
    · exact hset.congr_right (boundsView_windowLoaded _)
    · exact hset

theorem applySymbolEntry_keepsBlocks {n : Nat} {x : List Byte} {s t : State} (h : applySymbolEntry n x s = some t) :
    KeepsBlocks s t := by
  refine .of_view ?_
  rcases applySymbolEntry_cases h with ht | ⟨q, -, -, ⟨-, -, ht⟩ | ⟨r, -, ⟨-, ht⟩ | ht | ⟨-, -, ht⟩⟩⟩
  · rw [ht]
  · simp [ht, defineRecord]
  · simp [ht, deleteRecord]
  · simp [ht]
  · simp [ht, renameRecord]

theorem applySlotTable_keepsBlocks {s₀ : State} {n : Nat} {x : List Byte} {s t : State}
    (h : applySlotTable s₀ n x s = some t) : KeepsBlocks s t := by
  refine .of_view ?_
  obtain ⟨v, hv, rfl⟩ := Option.map_eq_some_iff.mp h
  simp only [boundsView_snapshotAfterLoad]
  simp only [applySlotEntry] at hv
  split at hv
  · cases hv
  · obtain rfl := Option.some.inj hv
    simp
  · split at hv
    · cases hv
    · obtain rfl := Option.some.inj hv
      simp

theorem applyChainTable_keepsBlocks {n : Nat} {x : List Byte} {s t : State} (h : applyChainTable n x s = some t) :
    KeepsBlocks s t := by
  simp only [applyChainTable] at h
  split at h
  · obtain rfl := Option.some.inj h
    exact .of_view (by simp)
  · cases h

theorem applyModuleTable_keepsBlocks {n : Nat} {x : List Byte} {s t : State} (h : applyModuleTable n x s = some t) :
    KeepsBlocks s t := by
  simp only [applyModuleTable] at h
  split at h
  · obtain rfl := Option.some.inj h
    exact .of_view (by simp)
  · cases h

theorem applyTerminalTable_keepsBlocks {n : Nat} {x : List Byte} {s t : State} (h : applyTerminalTable n x s = some t) :
    KeepsBlocks s t := by
  simp only [applyTerminalTable] at h
  split at h
  · simp only [applyTerminalEntry] at h
    split at h
    · cases h
    · split at h
      · obtain rfl := Option.some.inj h
        refine KeepsBlocks.congr_right ?_ (boundsView_setEnabled _ _ _)
        refine .congr_left (boundsView_setTerm s _ _) (.foldl (fun s item => .of_view ?_) _ _)
        simp only [applyTerminalEntry.loadRow]
        split <;> simp
      · cases h
  · cases h

/-- Whatever the owner of a loadable table does with an entry. -/
theorem loadTable_keepsBlocks (table : LoadTable) {s₀ : State} {n : Nat} {x : List Byte} {s t : State}
    (h : table.apply s₀ n x s = some t) : KeepsBlocks s t := by
  cases table with
  | param => exact applyParamEntry_keepsBlocks h
  | symbol => exact applySymbolEntry_keepsBlocks h
  | slot => exact applySlotTable_keepsBlocks h
  | chain => exact applyChainTable_keepsBlocks h
  | module => exact applyModuleTable_keepsBlocks h
  | terminal => exact applyTerminalTable_keepsBlocks h

/-! ### The terminal line (chapters 8 and 9) -/

theorem loseTerminal_keepsBlocks (x : TermId) (s : State) : KeepsBlocks s (loseTerminal x s) :=
  .congr_left (boundsView_setTerm s x _) (raiseAlert_keepsBlocks .terminalLost _)

theorem miss_keepsBlocks (x : TermId) (after : TermState) (s : State) : KeepsBlocks s (miss x after s) := by
  simp only [miss]
  split
  · exact .congr_left (boundsView_setTerm s x _) (loseTerminal_keepsBlocks x _)
  · exact .of_view (boundsView_setTerm s x _)

/-- What the outcome of a transaction comes to: a miss, or a change of the line and of rows. -/
theorem applyOutcome_keepsBlocks (kind : PrimaryKind) (x : TermId) (o : LineOutcome) (s : State) :
    KeepsBlocks s (applyOutcome kind x o s) := by
  have requested (term : Terminal) (request : Option Request) :
      KeepsBlocks s (applyRequest x request (s.setTerm x term)) := .of_view (by simp)
  have set (term : Terminal) : KeepsBlocks s (s.setTerm x term) := .of_view (boundsView_setTerm s x term)
  cases kind with
  | activate =>
    simp only [applyOutcome, activateOutcome]
    split
    all_goals exact set _
  | screenInit =>
    simp only [applyOutcome, screenInitOutcome]
    split
    · split
      · exact requested _ _
      · exact miss_keepsBlocks _ _ _
    · exact .refl s
    all_goals exact miss_keepsBlocks _ _ _
  | poll =>
    simp only [applyOutcome, pollOutcome]
    split
    · exact requested _ _
    · exact .refl s
    all_goals exact miss_keepsBlocks _ _ _
  | update =>
    simp only [applyOutcome, updateOutcome]
    split
    · split
      · exact requested _ _
      · exact set _
    · exact set _
    all_goals exact miss_keepsBlocks _ _ _
  | enquiry =>
    simp only [applyOutcome, enquiryOutcome]
    split
    · split
      all_goals exact set _
    all_goals exact miss_keepsBlocks _ _ _

theorem endTransaction_keepsBlocks (o : LineOutcome) (s : State) : KeepsBlocks s (endTransaction o s) := by
  simp only [endTransaction]
  split
  · exact .refl s
  · rename_i tx _
    exact (applyOutcome_keepsBlocks tx.kind tx.terminal o s).congr_right (by simp)

theorem takeCharacter_keepsBlocks (b : Byte) (s : State) : KeepsBlocks s (takeCharacter b s) := by
  simp only [takeCharacter]
  split
  · exact .refl s
  · split
    · exact .refl s
    · split
      · exact .refl s
      · split
        · exact .congr_left (boundsView_setLine s _) (endTransaction_keepsBlocks _ _)
        · split
          · exact .congr_left (boundsView_setLine s _) (endTransaction_keepsBlocks _ _)
          · exact .of_view (boundsView_setLine s _)

theorem responseExpire_keepsBlocks (s : State) : KeepsBlocks s (responseExpire s) := by
  simp only [responseExpire]
  split
  · split
    · exact endTransaction_keepsBlocks _ s
    · exact .refl s
  · exact .refl s

/-! ### READ, REPORT and CONTROL (chapter 10) -/

theorem applyRead_keepsBlocks (body : List Byte) (s : State) : KeepsBlocks s (applyRead body s) := by
  simp only [applyRead]
  split
  · exact replyTo_keepsBlocks _ _ s
  · split
    · exact replyTo_keepsBlocks _ _ s
    · split
      · exact replyTo_keepsBlocks _ _ s
      · exact .congr_left (boundsView_setDraws s _) (replyTo_keepsBlocks _ _ _)

theorem applyReport_keepsBlocks (body : List Byte) (s : State) : KeepsBlocks s (applyReport body s) := by
  simp only [applyReport]
  split
  · exact replyTo_keepsBlocks _ _ s
  · exact .congr_left (boundsView_setDraws s _) (replyTo_keepsBlocks _ _ _)

theorem applyControl_keepsBlocks {length : Nat} {act : List Byte → State → Option State}
    (h : ∀ p s t, act p s = some t → KeepsBlocks s t) (body : List Byte) (s : State) :
    KeepsBlocks s (applyControl length act body s) := by
  simp only [applyControl]
  split
  · exact replyTo_keepsBlocks _ _ s
  · split
    · rename_i t ht
      exact (h _ s t ht).trans (replyTo_keepsBlocks _ _ t)
    · exact replyTo_keepsBlocks _ _ s

theorem clearAlertsNamed_keepsBlocks (named : AlertSet) (s : State) : KeepsBlocks s (clearAlertsNamed named s) := by
  have hcleared : KeepsBlocks s (s.setMgmt { s.mgmt with alertStatus := s.mgmt.alertStatus &&& ~~~named }) :=
    .setMgmt_of_params id rfl
  exact hcleared.congr_right (by simp [clearAlertsNamed])

theorem queueAlert_params (m : Management) : (queueAlert m).params = m.params := by
  simp only [queueAlert]
  split <;> rfl

theorem setMaskTo_keepsBlocks (mask : AlertSet) (s : State) : KeepsBlocks s (setMaskTo mask s) := by
  simp only [setMaskTo]
  split
  · have hfit := repliesFit_queueAlert (m := { s.mgmt with alertMask := mask })
    exact .setMgmt_of_params hfit (queueAlert_params _)
  · exact .setMgmt_of_params id rfl

end Sys2Proof.Machine

namespace Sys2Proof.Machine

open Sys2Proof.Safety

/-! ## The laws of bounds, kept by what changes the intake queue, by the resets and by a tick -/

/-- The seven laws of bounds, each kept from one state to another. -/
structure KeepsBounds (s t : State) : Prop where
  intake : IntakeBounded s → IntakeBounded t
  load : LoadPlaced s → LoadPlaced t
  bulletins : StacksBounded s → StacksBounded t
  ticker : TickerBounded s → TickerBounded t
  replies : RepliesBounded s → RepliesBounded t
  time : TimeInRange s → TimeInRange t
  params : ParamsLegal s → ParamsLegal t

/-- The place of a LOAD hangs on the intake queue and on how far the LOAD is. -/
theorem loadPlaced_of_eq {s t : State} (hintake : t.intake = s.intake) (hload : t.load = s.load) (h : LoadPlaced s) :
    LoadPlaced t := by
  simpa only [LoadPlaced, hintake, hload] using h

/-- Where no LOAD is under way, none is out of its place. -/
theorem loadPlaced_of_none {s : State} (h : s.load = none) : LoadPlaced s := by
  intro done hdone
  rw [h] at hdone
  cases hdone

namespace KeepsBounds

variable {s t u : State}

theorem refl (s : State) : KeepsBounds s s := ⟨id, id, id, id, id, id, id⟩

theorem trans (h : KeepsBounds s t) (h' : KeepsBounds t u) : KeepsBounds s u where
  intake hi := h'.intake (h.intake hi)
  load hl := h'.load (h.load hl)
  bulletins hs := h'.bulletins (h.bulletins hs)
  ticker ht := h'.ticker (h.ticker ht)
  replies hr := h'.replies (h.replies hr)
  time ht := h'.time (h.time ht)
  params hp := h'.params (h.params hp)

/-- An operation of a block. -/
theorem of_blocks (h : KeepsBlocks s t) : KeepsBounds s t where
  intake hi := by simpa only [IntakeBounded, h.intake] using hi
  load := loadPlaced_of_eq h.intake h.load
  bulletins hs k := ⟨h.stackLength k (hs k).1, h.stackTimers k (hs k).2⟩
  ticker := h.ticker
  replies := h.replies
  time := h.time
  params := h.params

/-- Operations of states taken one after the other from a list. -/
theorem foldl {α : Type} {f : State → α → State} (h : ∀ s x, KeepsBounds s (f s x)) :
    ∀ (l : List α) (s : State), KeepsBounds s (l.foldl f s)
  | [], s => refl s
  | x :: rest, s => (h s x).trans (foldl h rest (f s x))

/-- The head entry gone from the intake queue, where no LOAD is under way then (R50). -/
theorem dropHead (h : KeepsBounds s t) (hload : LoadPlaced s → t.load = none) :
    KeepsBounds s (t.setIntake (t.intake.drop 1)) :=
  { h with
    intake := fun hi => (List.drop_sublist 1 _).length_le.trans (h.intake hi)
    load := fun hl => loadPlaced_of_none (hload hl) }

/-- The place of a LOAD given up. -/
theorem setLoad_none (s : State) : KeepsBounds s (s.setLoad none) :=
  { refl s with load := fun _ => loadPlaced_of_none rfl }

end KeepsBounds

/-! ### The feed line (chapter 3) -/

theorem handFeedState_keepsBlocks (new : FeedState) (s : State) : KeepsBlocks s (handFeedState new s) := by
  simp only [handFeedState]
  split
  · exact .congr_left (by simp) (offerText_keepsBlocks _ _ _)
  · exact .of_view (by simp)

theorem silenceExpire_keepsBlocks (s : State) : KeepsBlocks s (silenceExpire s) := by
  simp only [silenceExpire]
  split
  · have hraised : KeepsBlocks s (raiseAlert .feedLost (s.setFeed { s.feed with feedState := .lost, silence := none })) :=
      .congr_left (boundsView_setFeed s _) (raiseAlert_keepsBlocks _ _)
    exact (hraised.congr_right (boundsView_markAllStale _)).trans (handFeedState_keepsBlocks _ _)
  · exact .refl s

theorem arrivalSeen_keepsBlocks (s : State) : KeepsBlocks s (arrivalSeen s) := by
  simp only [arrivalSeen, setFeedState]
  split
  · exact .of_view (boundsView_setFeed s _)
  · exact .congr_left (by simp) (handFeedState_keepsBlocks _ _)

theorem sequenceChecked_keepsBlocks {body : List Byte} {s t : State} (h : sequenceChecked body s = some t) :
    KeepsBlocks s t := by
  simp only [sequenceChecked] at h
  split at h
  · split at h
    · obtain rfl := Option.some.inj h
      exact .of_view rfl
    · obtain rfl := Option.some.inj h
      exact .congr_left (by simp) (raiseAlert_keepsBlocks _ _)
    · cases h
  · obtain rfl := Option.some.inj h
    exact .refl _

/-- The offer to the intake queue: an entry at the tail of a queue with room (R46, R47). -/
theorem offerIntake_keepsBounds (body : List Byte) (s : State) : KeepsBounds s (offerIntake body s) := by
  simp only [offerIntake]
  split
  · rename_i hroom
    simp only [intakeCapacity] at hroom
    refine { KeepsBounds.refl s with intake := fun _ => ?_, load := fun hplaced done hdone => ?_ }
    · simp only [IntakeBounded, setFeed_intake, setIntake_intake, List.length_append, List.length_singleton]
      omega
    · obtain ⟨e, rest, table, hi, hchecked⟩ := hplaced done hdone
      refine ⟨e, rest ++ [{ body := body, gapBefore := s.feed.gapOwed }], table, ?_, hchecked⟩
      simp only [setFeed_intake, setIntake_intake, hi, List.cons_append]
  · exact .of_blocks (.of_view (boundsView_setFeed s _))

theorem arrive_keepsBounds (body : List Byte) (s : State) : KeepsBounds s (arrive body s) := by
  have hseen := arrivalSeen_keepsBlocks s
  simp only [arrive]
  split
  · exact .of_blocks hseen
  · rename_i t ht
    have hchecked := KeepsBounds.of_blocks (hseen.trans (sequenceChecked_keepsBlocks ht))
    split
    · exact hchecked.trans (offerIntake_keepsBounds body t)
    · exact hchecked

theorem settleReception_keepsBounds (r : Receiver × RxEvent) (s : State) : KeepsBounds s (settleReception r s) := by
  have hset := KeepsBounds.of_blocks (.of_view (boundsView_setFeed s { s.feed with rx := r.1 }))
  simp only [settleReception]
  split
  · exact hset
  · exact hset.trans (arrive_keepsBounds _ _)

theorem feedBits_keepsBounds (bits : List Bool) (s : State) : KeepsBounds s (feedBits bits s) :=
  .foldl (fun s _ => settleReception_keepsBounds _ s) bits s

theorem takeLastByte_keepsBounds (low : Byte) (s : State) : KeepsBounds s (takeLastByte low s) := by
  simp only [takeLastByte]
  split
  · exact settleReception_keepsBounds _ s
  · exact feedBits_keepsBounds _ s

/-! ### The head of the intake queue (R47 to R50) -/

/-- A frame applied: the bounds kept, and no LOAD begun. -/
structure AppliesFrame (s t : State) : Prop where
  bounds : KeepsBounds s t
  load : s.load = none → t.load = none

theorem AppliesFrame.of_blocks {s t : State} (h : KeepsBlocks s t) : AppliesFrame s t :=
  ⟨.of_blocks h, fun hload => h.load.trans hload⟩

/-- The head entry taken by a step that is none of a LOAD: while a LOAD is under way, the head is the LOAD's. -/
theorem takeHead_keepsBounds {step : FrameStep} {apply : List Byte → State → State} (hstep : stepsLoad step = false)
    (h : ∀ body s, AppliesFrame s (apply body s)) (s : State) : KeepsBounds s (takeHead step apply s) := by
  simp only [takeHead]
  split
  · exact .refl s
  · rename_i e rest hi
    split
    · rename_i hframe
      have hgap : KeepsBlocks s (afterGap e s) := .of_view (boundsView_afterGap s e)
      obtain ⟨hbounds, hload⟩ := h e.body (afterGap e s)
      refine ((KeepsBounds.of_blocks hgap).trans hbounds).dropHead fun hplaced => hload (hgap.load.trans ?_)
      cases hs : s.load with
      | none => rfl
      | some done =>
        obtain ⟨e', rest', table, hi', htable, -⟩ := hplaced done hs
        obtain ⟨rfl, -⟩ := List.cons.inj (hi.symm.trans hi')
        have htrue := stepsLoad_table table
        rw [← htable, hframe, hstep] at htrue
        cases htrue
    · exact .refl s

theorem applyItems_appliesFrame {α : Type} {items : List Byte → Option α} {apply : α → State → State}
    (h : ∀ p x s, items p = some x → KeepsBlocks s (apply x s)) (body : List Byte) (s : State) :
    AppliesFrame s (applyItems items apply body s) := by
  simp only [applyItems]
  split
  · rename_i x hx
    exact .of_blocks (h _ x s hx)
  · exact .of_blocks (.refl s)

/-! ### LOAD (R167) -/

theorem loadEnds_keepsBounds {body answer : List Byte} {s t : State} (h : KeepsBlocks s t) :
    KeepsBounds s (loadEnds body answer t) := by
  have hreplied := KeepsBounds.of_blocks (h.trans (replyTo_keepsBlocks body answer t))
  exact (hreplied.trans (.setLoad_none _)).dropHead fun _ => rfl

/-- What a LOAD that passes its checks has shown (R167). -/
theorem loadCheck_eq_none {size entrySize : Nat} {p : List Byte} (h : loadCheck size entrySize p = none) :
    at16 p 1 + at16 p 3 ≤ size ∧ p.length = 5 + at16 p 3 * entrySize := by
  simp only [loadCheck] at h
  split at h
  · cases h
  · split at h
    · cases h
    · split at h
      · cases h
      · omega

/-- A LOAD that begins and goes on has passed its checks. -/
theorem loadCheck_of_takeLoad {step : FrameStep} {size entrySize : Nat} {apply : Nat → List Byte → State → Option State}
    {s : State} {e : IntakeEntry} {rest : List IntakeEntry} (hi : s.intake = e :: rest) (hstep : frameStep e.body = step)
    (hload : s.load = none) (hon : (takeLoad step size entrySize apply s).load ≠ none) :
    loadCheck size entrySize (payload e.body) = none := by
  by_contra hfails
  obtain ⟨code, hcode⟩ := Option.ne_none_iff_exists'.mp hfails
  refine hon ?_
  simp only [takeLoad, hi, hstep, if_true, hload, hcode]
  rw [loadEnds_frame]

/-- A step of a LOAD. -/
theorem takeLoad_keepsBounds (table : LoadTable) (s : State) :
    KeepsBounds s (takeLoad table.step table.size table.entrySize (table.apply s) s) := by
  rcases takeLoad_cases table.step table.size table.entrySize (table.apply s) s with
    hsame | ⟨e, rest, u, v, hi, hframe, hu, hv, hend⟩
  · rw [hsame]
    exact .refl s
  · have hsu : KeepsBlocks s u := by
      rw [hu]
      split
      · exact .of_view (boundsView_afterGap s e)
      · exact .refl s
    have hsv : KeepsBlocks s v := by
      rcases hv with rfl | ⟨n, x, hx⟩
      · exact hsu
      · exact hsu.trans (loadTable_keepsBlocks table hx)
    rcases hend with ⟨answer, ht⟩ | ⟨done, ht, hdone⟩
    · rw [ht]
      exact loadEnds_keepsBounds hsv
    · have hon : (takeLoad table.step table.size table.entrySize (table.apply s) s).load ≠ none := by
        rw [ht]
        nofun
      rw [ht]
      refine { KeepsBounds.of_blocks hsv with load := fun hplaced k hk => ?_ }
      obtain rfl := Option.some.inj hk
      have hi' : (v.setLoad (some (done + 1))).intake = e :: rest := hsv.intake.trans hi
      cases hs : s.load with
      | none =>
        obtain ⟨hrange, hlength⟩ := loadCheck_eq_none (loadCheck_of_takeLoad hi hframe hs hon)
        exact ⟨e, rest, table, hi', hframe, hrange, hlength, hdone⟩
      | some k =>
        obtain ⟨e', rest', table', hplace, hstep, hrange, hlength, -⟩ := hplaced k hs
        obtain ⟨rfl, -⟩ := List.cons.inj (hi.symm.trans hplace)
        exact ⟨e, rest, table', hi', hstep, hrange, hlength, hdone⟩

/-! ### Resets (R174, R175) -/

/-- The cold values of Table 10-1 are legal. -/
theorem coldParams_legal : (∀ i : Fin 20, (paramRanges[i]).1 ≤ (coldParams[i]).toNat
      ∧ (coldParams[i]).toNat ≤ (paramRanges[i]).2)
    ∧ (coldParams[(9 : Fin 20)]).toNat < (coldParams[(10 : Fin 20)]).toNat
    ∧ (coldParams[(10 : Fin 20)]).toNat < (coldParams[(11 : Fin 20)]).toNat
    ∧ (coldParams[(11 : Fin 20)]).toNat < (coldParams[(12 : Fin 20)]).toNat := by decide

theorem coldState_keepsBounds (cause : ResetCause) (phase : Phase) (station : BitVec 6) (sense : Vector Bool 4)
    (s : State) : KeepsBounds s (coldState cause phase station sense s) where
  intake _ := Nat.zero_le _
  load _ := loadPlaced_of_none rfl
  bulletins _ k := by simp [coldState, coldBulletins]
  ticker _ := ⟨Nat.zero_le _, fun _ => rfl, Nat.zero_le _, Nat.zero_le _, Nat.zero_le _⟩
  replies _ := ⟨Nat.zero_le _, Nat.zero_le _⟩
  time _ := ⟨Nat.zero_le _, Nat.zero_le _⟩
  params _ := coldParams_legal

theorem coldState_appliesFrame (cause : ResetCause) (phase : Phase) (station : BitVec 6) (sense : Vector Bool 4)
    (s : State) : AppliesFrame s (coldState cause phase station sense s) :=
  ⟨coldState_keepsBounds cause phase station sense s, fun _ => rfl⟩

theorem initEnds_keepsBounds (straps : BitVec 6) (sense : Vector Bool 4) (s : State) :
    KeepsBounds s (initEnds straps sense s) :=
  (coldState_keepsBounds s.mgmt.cause .running straps sense s).trans
    (.of_blocks (.congr_left (boundsView_setFlashClock _ _) (raiseAlert_keepsBlocks .reset _)))

theorem pinTaken_keepsBounds (s : State) : KeepsBounds s (pinTaken s) :=
  { KeepsBounds.refl s with
    ticker := fun ⟨hqueue, hstopped, hlevel, hminutes, _⟩ => ⟨hqueue, hstopped, hlevel, hminutes, Nat.zero_le _⟩ }

theorem warmState_keepsBounds (straps : BitVec 6) (s : State) : KeepsBounds s (warmState straps s) :=
  { KeepsBounds.refl s with
    intake := fun _ => Nat.zero_le _
    load := fun _ => loadPlaced_of_none rfl
    ticker := fun _ => ⟨Nat.zero_le _, fun _ => rfl, Nat.zero_le _, Nat.zero_le _, Nat.zero_le _⟩
    replies := fun _ => ⟨Nat.zero_le _, Nat.zero_le _⟩ }

theorem applyWarm_appliesFrame (straps : BitVec 6) (body : List Byte) (s : State) :
    AppliesFrame s (applyWarm straps body s) := by
  have hblocks : KeepsBlocks (warmState straps s) (applyWarm straps body s) := by
    refine KeepsBlocks.trans ?_ (raiseAlert_keepsBlocks .reset _)
    exact .congr_left (by simp) (replyTo_keepsBlocks body [codeDone] _)
  exact ⟨(warmState_keepsBounds straps s).trans (.of_blocks hblocks), fun _ => hblocks.load⟩

/-! ### The interval tick (R57 to R59, R106, R109) -/

theorem ifDue_keepsBlocks {due : Bool} {expire : State → State} {s : State} (h : KeepsBlocks s (expire s)) :
    KeepsBlocks s (ifDue due expire s) := by
  simp only [ifDue]
  split
  · exact h
  · exact .refl s

theorem chainDue_keepsBlocks (c : ChainId) (s : State) : KeepsBlocks s (chainDue c s) :=
  (ifDue_keepsBlocks (settleExpire_keepsBlocks c s)).trans (ifDue_keepsBlocks (.of_view (boundsView_keepaliveExpire _ c)))

theorem slotDue_keepsBlocks (s : State) (n : Nat) : KeepsBlocks s (slotDue s n) :=
  ifDue_keepsBlocks (.of_view (boundsView_flashExpire s n))

theorem stackDue_keepsBlocks (s : State) (k : StackId) : KeepsBlocks s (stackDue s k) :=
  .foldl (fun s place => ifDue_keepsBlocks (bulletinExpire_keepsBlocks k place s)) _ s

theorem probeDueAt_keepsBlocks (s : State) (x : TermId) : KeepsBlocks s (probeDueAt s x) :=
  ifDue_keepsBlocks (.of_view (boundsView_probeExpire s x))

/-- A stack without its entry at a place, where that one is due. -/
def dropDue (stack : List BulletinEntry) (place : Nat) : List BulletinEntry :=
  if (stack[place]?).any (fun b => timerDue b.timer) then stack.eraseIdx place else stack

/-- The expiry of a due entry takes it out of its stack. -/
theorem bulletinExpire_stack {k : StackId} {place : Nat} {s : State}
    (h : ((s.bulletins[k])[place]?).any (fun b => timerDue b.timer) = true) :
    (bulletinExpire k place s).bulletins[k] = (s.bulletins[k]).eraseIdx place := by
  obtain ⟨e, he, hdue⟩ := (Option.any_eq_true _ _).mp h
  have hruns : timerRuns e.timer = true := by
    rw [eq_of_beq hdue]
    rfl
  have hmarked (v : State) : (markMessages k v).bulletins = v.bulletins :=
    (blocks_of_boundsView (boundsView_markMessages v k)).2.2.1
  have hoffered (stack : List BulletinEntry) (v : State) : (offerUncovered stack v).bulletins = v.bulletins := by
    simp only [offerUncovered]
    split
    · rfl
    · split
      · rw [offerText_frame]
      · rfl
  have hall : (bulletinExpire k place s).bulletins = s.bulletins.set k ((s.bulletins[k]).eraseIdx place) := by
    simp only [bulletinExpire, he, hruns, if_true]
    split
    · rw [hoffered, hmarked, setStack_bulletins]
    · rfl
  simp [hall]

/-- The due entries of a stack taken, as of the stack alone. -/
theorem stackDue_stack (s : State) (k : StackId) :
    (stackDue s k).bulletins[k] = [3, 2, 1, 0].foldl dropDue s.bulletins[k] := by
  have hone (v : State) (place : Nat) : dropDue v.bulletins[k] place
      = (ifDue (((v.bulletins[k])[place]?).any (fun b => timerDue b.timer)) (bulletinExpire k place) v).bulletins[k] := by
    simp only [dropDue, ifDue]
    split
    · rename_i h
      exact (bulletinExpire_stack h).symm
    · rfl
  exact (List.foldl_hom (fun v : State => v.bulletins[k]) hone).symm

theorem drop_eraseIdx_self (stack : List BulletinEntry) (place : Nat) :
    (stack.eraseIdx place).drop place = stack.drop (place + 1) := by
  apply List.ext_getElem?
  intro i
  rw [List.getElem?_drop, List.getElem?_eraseIdx, if_neg (by omega), List.getElem?_drop]
  congr 1
  omega

/-- One place further up, none has run out. -/
theorem noneRunOut_dropDue {stack : List BulletinEntry} {place : Nat} (h : NoneRunOut (stack.drop (place + 1))) :
    NoneRunOut ((dropDue stack place).drop place) := by
  simp only [dropDue]
  split
  · rw [drop_eraseIdx_self]
    exact h
  · rename_i hdue
    intro e he
    by_cases hplace : place < stack.length
    · rw [List.drop_eq_getElem_cons hplace] at he
      rcases List.mem_cons.mp he with rfl | he
      · simpa [hplace, timerDue] using hdue
      · exact h e he
    · rw [List.drop_of_length_le (by omega)] at he
      cases he

/-- After the due entries of a stack are taken, from the bottom place up, none has run out. -/
theorem noneRunOut_stackDue {s : State} {k : StackId} (h : (s.bulletins[k]).length ≤ 4) :
    NoneRunOut (stackDue s k).bulletins[k] := by
  have hbelow : NoneRunOut ((s.bulletins[k]).drop 4) := by
    rw [List.drop_of_length_le h]
    exact fun e he => absurd he List.not_mem_nil
  rw [stackDue_stack]
  exact noneRunOut_dropDue (noneRunOut_dropDue (noneRunOut_dropDue (noneRunOut_dropDue hbelow)))

/-- The same of a run of stacks. -/
theorem noneRunOut_foldl_stackDue (ks : List StackId) : ∀ {s : State}, (∀ k : StackId, (s.bulletins[k]).length ≤ 4) →
    ∀ k ∈ ks, NoneRunOut (ks.foldl stackDue s).bulletins[k] := by
  induction ks with
  | nil => exact fun _ k hk => absurd hk List.not_mem_nil
  | cons x rest ih =>
    intro s hlength k hk
    have hx := stackDue_keepsBlocks s x
    rw [List.foldl_cons]
    rcases List.mem_cons.mp hk with rfl | hk
    · exact (KeepsBlocks.foldl stackDue_keepsBlocks rest _).stackTimers k (noneRunOut_stackDue (hlength k))
    · exact ih (fun j => hx.stackLength j (hlength j)) k hk

/-- What a tick takes between the second phase and the stacks. -/
def takeDueOfBoards (s : State) : State :=
  let s2 := ifDue (timerDue s.feed.silence) silenceExpire s
  let s3 := chainDue 3 (chainDue 2 (chainDue 1 (chainDue 0 s2)))
  let s4 := ifDue (timerDue s3.flashClock.timer) halfPeriodExpire s3
  (s4.slots.map Prod.fst).foldl slotDue s4

theorem takeDueOfBoards_keepsBlocks (s : State) : KeepsBlocks s (takeDueOfBoards s) := by
  refine KeepsBlocks.trans ?_ (.foldl slotDue_keepsBlocks _ _)
  refine KeepsBlocks.trans ?_ (ifDue_keepsBlocks (.of_view (boundsView_halfPeriodExpire _)))
  refine KeepsBlocks.trans ?_ (chainDue_keepsBlocks 3 _)
  refine KeepsBlocks.trans ?_ (chainDue_keepsBlocks 2 _)
  refine KeepsBlocks.trans ?_ (chainDue_keepsBlocks 1 _)
  refine KeepsBlocks.trans ?_ (chainDue_keepsBlocks 0 _)
  exact ifDue_keepsBlocks (silenceExpire_keepsBlocks s)

/-- What a tick takes after the stacks. -/
def takeDueOfLines (s : State) : State :=
  let s7 := ifDue (timerDue s.ticker.stepTimer) stepExpire s
  let s8 := ifDue (s7.line.transaction.any (fun tx => timerDue tx.timeout)) responseExpire s7
  let s9 := (List.finRange 32).foldl probeDueAt s8
  ifDue (timerDue s9.line.gap) gapExpire s9

theorem takeDueOfLines_keepsBlocks (s : State) : KeepsBlocks s (takeDueOfLines s) := by
  refine KeepsBlocks.trans ?_ (ifDue_keepsBlocks (.of_view (boundsView_gapExpire _)))
  refine KeepsBlocks.trans ?_ (.foldl probeDueAt_keepsBlocks _ _)
  refine KeepsBlocks.trans ?_ (ifDue_keepsBlocks (responseExpire_keepsBlocks _))
  exact ifDue_keepsBlocks (stepExpire_keepsBlocks s)

/-- The timers due at a tick: the second phase, the boards, the stacks, the lines. -/
theorem takeDue_eq (s : State) : takeDue s = takeDueOfLines ((List.finRange 8).foldl stackDue
    (takeDueOfBoards (ifDue (decide (1000 ≤ s.time.phaseTicks)) secondExpire s))) := by
  simp only [takeDue, takeDueOfLines, takeDueOfBoards]

/-- The second phase counted up, and the second carried where it is full (R59). -/
theorem secondPhase_time {s : State} (h : TimeInRange s) :
    TimeInRange (ifDue (decide (1000 ≤ (countTimers s).time.phaseTicks)) secondExpire (countTimers s)) := by
  obtain ⟨hclock, hphase⟩ := h
  simp only [ifDue, decide_eq_true_eq]
  split
  · obtain ⟨hnext, hticks⟩ := secondExpire_time (countTimers s)
    exact ⟨hnext ▸ advancedClock_le hclock, hticks ▸ Nat.zero_le _⟩
  · rename_i hfull
    exact ⟨hclock, by omega⟩

/-- A count of the timers leaves the stacks as long as they are. -/
theorem countTimers_stackLength (s : State) (k : StackId) :
    ((countTimers s).bulletins[k]).length = (s.bulletins[k]).length := by
  simp [countTimers]

theorem intervalTick_keepsBounds (s : State) : KeepsBounds s (intervalTick s) := by
  simp only [intervalTick]
  split
  · rw [takeDue_eq]
    have htime := secondPhase_time (s := s)
    have hsecond : KeepsBlocks (countTimers s)
        (ifDue (decide (1000 ≤ (countTimers s).time.phaseTicks)) secondExpire (countTimers s)) :=
      ifDue_keepsBlocks (secondExpire_keepsBlocks _)
    generalize ifDue (decide (1000 ≤ (countTimers s).time.phaseTicks)) secondExpire (countTimers s) = u at htime hsecond ⊢
    have hboards := takeDueOfBoards_keepsBlocks u
    have hstacks := KeepsBlocks.foldl stackDue_keepsBlocks (List.finRange 8) (takeDueOfBoards u)
    have hlines := takeDueOfLines_keepsBlocks ((List.finRange 8).foldl stackDue (takeDueOfBoards u))
    have hrest := hboards.trans (hstacks.trans hlines)
    obtain ⟨hintake, hload, -, hticker, hreplies, -, hparams⟩ := KeepsBounds.of_blocks (hsecond.trans hrest)
    have hlength {k : StackId} (hk : (s.bulletins[k]).length ≤ 4) : (u.bulletins[k]).length ≤ 4 :=
      hsecond.stackLength k ((countTimers_stackLength s k).trans_le hk)
    refine ⟨hintake, hload, fun hs k => ⟨hrest.stackLength k (hlength (hs k).1), ?_⟩, hticker, hreplies,
      fun ht => hrest.time (htime ht), hparams⟩
    refine hlines.stackTimers k (noneRunOut_foldl_stackDue _ (fun j => ?_) k (List.mem_finRange k))
    exact hboards.stackLength j (hlength (hs j).1)
  · exact .refl s

/-! ### The step -/

/-- A command that acts in operation alone. -/
theorem whenRunning_keepsBounds {f : State → State} (h : ∀ s, KeepsBounds s (f s)) {s t : State}
    (ht : whenRunning f s = .next t) : KeepsBounds s t := by
  simp only [whenRunning, Host.Outcome.next.injEq] at ht
  subst ht
  split
  · exact h s
  · exact .refl s

/-- A command that is an operation of a block. -/
theorem whenRunning_keepsBlocks {f : State → State} (h : ∀ s, KeepsBlocks s (f s)) {s t : State}
    (ht : whenRunning f s = .next t) : KeepsBounds s t := whenRunning_keepsBounds (fun s => .of_blocks (h s)) ht

/-- A command that applies a market data frame. -/
theorem whenRunning_items_keepsBounds {α : Type} {step : FrameStep} {items : List Byte → Option α}
    {apply : α → State → State} (hstep : stepsLoad step = false)
    (h : ∀ p x s, items p = some x → KeepsBlocks s (apply x s)) {s t : State}
    (ht : whenRunning (takeHead step (applyItems items apply)) s = .next t) : KeepsBounds s t :=
  whenRunning_keepsBounds (takeHead_keepsBounds hstep (applyItems_appliesFrame h)) ht

/-- A command that carries out a management frame. -/
theorem whenRunning_head_keepsBounds {step : FrameStep} {apply : List Byte → State → State}
    (hstep : stepsLoad step = false) (h : ∀ body s, KeepsBlocks s (apply body s)) {s t : State}
    (ht : whenRunning (takeHead step apply) s = .next t) : KeepsBounds s t :=
  whenRunning_keepsBounds (takeHead_keepsBounds hstep fun body s => .of_blocks (h body s)) ht

/-- The command that takes the next entry of a LOAD. -/
theorem exec_load_keepsBounds (table : LoadTable) {s t : State} (h : exec table.command s = .next t) :
    KeepsBounds s t := by
  rw [exec_load, whenRunning, Host.Outcome.next.injEq] at h
  subst h
  split
  · exact takeLoad_keepsBounds table s
  · exact .refl s

/-- A command that acts in one phase alone. -/
theorem ite_keepsBounds {p : Prop} [Decidable p] {s t u v : State}
    (ht : Host.Outcome.next (if p then u else v) = (.next t : Answer)) (hu : KeepsBounds s u) (hv : KeepsBounds s v) :
    KeepsBounds s t := by
  obtain rfl := Host.Outcome.next.inj ht
  split
  · exact hu
  · exact hv

/-- Every command keeps the bounds. -/
theorem exec_keepsBounds (i : Instr) {s t : State} (h : exec i s = .next t) : KeepsBounds s t := by
  cases i
  case feedFrameReceived low => exact whenRunning_keepsBounds (takeLastByte_keepsBounds low) h
  case feedByteReceived unit => exact whenRunning_keepsBounds (feedBits_keepsBounds _) h
  case silenceTimerExpiry => exact whenRunning_keepsBlocks silenceExpire_keepsBlocks h
  case trade => exact whenRunning_items_keepsBounds rfl (fun _ q s _ => applyTrade_keepsBlocks q s) h
  case quote => exact whenRunning_items_keepsBounds rfl (fun _ q s _ => applyQuote_keepsBlocks q s) h
  case symbolState => exact whenRunning_items_keepsBounds rfl (fun _ q s _ => applySymbolState_keepsBlocks q s) h
  case recap => exact whenRunning_items_keepsBounds rfl (fun _ q s _ => applyRecap_keepsBlocks q s) h
  case clock => exact whenRunning_items_keepsBounds rfl (fun _ _ s hq => applyClock_keepsBlocks hq s) h
  case session => exact whenRunning_items_keepsBounds rfl (fun _ q s _ => applySession_keepsBlocks q s) h
  case bulletinPush => exact whenRunning_items_keepsBounds rfl (fun _ q s _ => applyPush_keepsBlocks q s) h
  case bulletinPop => exact whenRunning_items_keepsBounds rfl (fun _ q s _ => applyPop_keepsBlocks q s) h
  case bulletinClear => exact whenRunning_items_keepsBounds rfl (fun _ q s _ => applyClear_keepsBlocks q s) h
  case loadParam => exact exec_load_keepsBounds .param h
  case loadSymbol => exact exec_load_keepsBounds .symbol h
  case loadSlot => exact exec_load_keepsBounds .slot h
  case loadChain => exact exec_load_keepsBounds .chain h
  case loadModule => exact exec_load_keepsBounds .module h
  case loadTerminal => exact exec_load_keepsBounds .terminal h
  case read => exact whenRunning_head_keepsBounds rfl applyRead_keepsBlocks h
  case report => exact whenRunning_head_keepsBounds rfl applyReport_keepsBlocks h
  case clearAlerts =>
    refine whenRunning_head_keepsBounds rfl (applyControl_keepsBlocks ?_) h
    rintro p u v ⟨rfl⟩
    exact clearAlertsNamed_keepsBlocks _ u
  case setMask =>
    refine whenRunning_head_keepsBounds rfl (applyControl_keepsBlocks ?_) h
    rintro p u v ⟨rfl⟩
    exact setMaskTo_keepsBlocks _ u
  case chainReset =>
    refine whenRunning_head_keepsBounds rfl (applyControl_keepsBlocks fun p u v hv => ?_) h
    obtain ⟨c, -, rfl⟩ := Option.map_eq_some_iff.mp hv
    exact .of_view (boundsView_chainResetAt u c)
  case terminalReset =>
    refine whenRunning_head_keepsBounds rfl (applyControl_keepsBlocks fun p u v hv => ?_) h
    obtain ⟨x, -, rfl⟩ := Option.map_eq_some_iff.mp hv
    exact .of_view (boundsView_terminalResetAt u x)
  case tickerFlush =>
    refine whenRunning_head_keepsBounds rfl (applyControl_keepsBlocks ?_) h
    rintro p u v ⟨rfl⟩
    exact tickerFlushAt_keepsBlocks u
  case resetCold =>
    exact whenRunning_keepsBounds (takeHead_keepsBounds rfl fun _ s => coldState_appliesFrame _ _ _ _ s) h
  case resetWarm straps =>
    exact whenRunning_keepsBounds (takeHead_keepsBounds rfl (applyWarm_appliesFrame straps)) h
  case powerOn =>
    obtain rfl := Host.Outcome.next.inj h
    exact coldState_keepsBounds _ _ _ _ s
  case resetPinAssert => exact ite_keepsBounds h (.refl s) (pinTaken_keepsBounds s)
  case resetPinRelease => exact ite_keepsBounds h (coldState_keepsBounds _ _ _ _ s) (.refl s)
  case initEnd straps sense => exact ite_keepsBounds h (initEnds_keepsBounds straps sense s) (.refl s)
  case secondPhaseExpiry => exact whenRunning_keepsBlocks secondExpire_keepsBlocks h
  case keepaliveExpiry c => exact whenRunning_keepsBlocks (fun s => .of_view (boundsView_keepaliveExpire s c)) h
  case shiftCompletion c returned => exact whenRunning_keepsBlocks (shiftComplete_keepsBlocks c _) h
  case settleCompletion c => exact whenRunning_keepsBlocks (settleExpire_keepsBlocks c) h
  case chainSenseChange c present =>
    refine whenRunning_keepsBlocks (f := fun s => if s.chains[c].senseLevel = present then s else senseChange c present s)
      (fun s => ?_) h
    split
    · exact .refl s
    · exact senseChange_keepsBlocks c present s
  case pwmPeriodStart c => exact whenRunning_keepsBlocks (fun s => .of_view (boundsView_setChain s c _)) h
  case flashClockHalfPeriod => exact whenRunning_keepsBlocks (fun s => .of_view (boundsView_halfPeriodExpire s)) h
  case flashExpiry n => exact whenRunning_keepsBlocks (fun s => .of_view (boundsView_flashExpire s n)) h
  case bulletinDurationExpiry k place => exact whenRunning_keepsBlocks (bulletinExpire_keepsBlocks k place) h
  case step => exact whenRunning_keepsBlocks stepExpire_keepsBlocks h
  case primaryFrameSent => exact whenRunning_keepsBlocks (fun s => .of_view (boundsView_frameSent s)) h
  case terminalResponse low => exact whenRunning_keepsBlocks (takeCharacter_keepsBlocks low) h
  case terminalCharacterReceived b => exact whenRunning_keepsBlocks (takeCharacter_keepsBlocks b) h
  case responseTimeout => exact whenRunning_keepsBlocks responseExpire_keepsBlocks h
  case probeTimerExpiry x => exact whenRunning_keepsBlocks (fun s => .of_view (boundsView_probeExpire s x)) h
  case nightPollGapExpiry => exact whenRunning_keepsBlocks (fun s => .of_view (boundsView_gapExpire s)) h
  case returnTransmissionStart => exact whenRunning_keepsBlocks returnStart_keepsBlocks h
  case returnFrameSent => exact whenRunning_keepsBlocks returnSent_keepsBlocks h
  case refusedManagementFrame =>
    exact whenRunning_head_keepsBounds rfl (fun body s => replyTo_keepsBlocks body [refusalCode body] s) h

/-- Every step keeps the bounds. -/
theorem step_keepsBounds {s t : State} (h : step s = .next t) : KeepsBounds s t := by
  simp only [step] at h
  split at h
  · rename_i i rest _
    have hfront : KeepsBlocks s { s with pending := rest } := .of_view rfl
    exact (KeepsBounds.of_blocks hfront).trans (exec_keepsBounds i h)
  · obtain rfl := Host.Outcome.next.inj h
    exact intervalTick_keepsBounds s

/-- Settles O54: every operation of a block keeps the bounds of the blocks; the intake queue, the resets and the tick
are told apart. -/
theorem boundsAreKept : Obligations.BoundsAreKept := by
  unfold Obligations.BoundsAreKept
  intro s t h
  obtain ⟨hintake, hload, hstacks, hticker, hreplies, htime, hparams⟩ := step_keepsBounds h
  exact ⟨hintake, hload, hstacks, hticker, hreplies, htime, hparams⟩

end Sys2Proof.Machine

namespace Sys2Proof.Machine

open Sys2Proof.Safety

/-! ## The gap-before marking (R48) -/

theorem markStale_settled {v : State} {n : Nat} (h : (tableGet v.records n).any (fun r => !r.stale) = true) :
    ChainsSettled (markStale v n) := by
  obtain ⟨r, hr, hst⟩ := (Option.any_eq_true _ _).mp h
  rw [markStale_of_fresh hr (by simpa using hst)]
  obtain ⟨hchains, hslots⟩ := updateRecord_boards_eq n { r with stale := true } (names := nameStale) (by decide) v
  simp only [ChainsSettled, hchains, hslots]
  exact markedBoards_settled _ _

/-- Once the chains have been told of what is dirty, further stale marking leaves none untold. -/
theorem foldl_markStale_settled (ns : List Nat) :
    ∀ {v : State}, ChainsSettled v → ChainsSettled (ns.foldl markStale v) := by
  induction ns with
  | nil => exact id
  | cons n rest ih =>
    intro v hv
    rw [List.foldl_cons]
    refine ih ?_
    cases hfresh : (tableGet v.records n).any (fun r => !r.stale)
    · rwa [markStale_of_not_fresh hfresh]
    · exact markStale_settled hfresh

/-- The stale marking of every record tells the chains, where a record is marked. -/
theorem foldl_markStale_settled_of_fresh {n : Nat} {r : QuoteRecord} (hfresh : r.stale = false) (ns : List Nat) :
    ∀ {v : State}, n ∈ ns → tableGet v.records n = some r → ChainsSettled (ns.foldl markStale v) := by
  induction ns with
  | nil => exact fun hmem _ => absurd hmem List.not_mem_nil
  | cons m rest ih =>
    intro v hmem hr
    rw [List.foldl_cons]
    by_cases hm : n = m
    · exact foldl_markStale_settled rest (markStale_settled (by simp [← hm, hr, hfresh]))
    · refine ih ((List.mem_cons.mp hmem).resolve_left hm) ?_
      rw [tableGet_markStale, hr]
      simp [hm]

theorem markAllStale_reaches (s : State) : MarkReaches (FreshLamp s) s (markAllStale s) := by
  intro k sl hsl hkind
  have hsettled : ChainsSettled (markAllStale s) := by
    obtain ⟨n, -, -, -, -, r, -, hr, hfresh⟩ := hkind
    have hmem : n ∈ definedNumbers s := (tableGet_isSome s.records n).mp (by rw [hr]; rfl)
    exact foldl_markStale_settled_of_fresh hfresh (definedNumbers s) hmem hr
  exact (markAllStale_advance s).markReaches (markAllStale_dirty s) hsettled k sl hsl hkind

/-- The stale marking of every record in turn, in record number order (R6). -/
theorem markAllStale_inTurn {s : State} (h : (s.records.map Prod.fst).Nodup) :
    BoardsMarkedInTurn (staleTurns s) s (markAllStale s) := by
  obtain ⟨l, hl⟩ := markAllStale_turns h
  rw [hl]
  exact ⟨rfl, rfl⟩

/-- Settles O8: the marking is `markAllStale`, told at the records, the rows and the boards. -/
theorem gapBeforeMarks : Obligations.GapBeforeMarks := by
  unfold Obligations.GapBeforeMarks
  intro s e hgap t
  have ht : t = markAllStale s := by simp only [t, afterGap, hgap, if_true]
  clear_value t
  subst ht
  have hrecords := tableGet_markAllStale s
  refine ⟨fun n r hr => ?_, fun n hnone => ?_, markAllStale_line s, markAllStale_reaches s, marksStand_markAllStale s,
    markAllStale_inTurn, ?_, markAllStale_boards s, ?_⟩
  · rw [hrecords, hr]
    rfl
  · rw [hrecords, hnone]
    rfl
  · rw [markAllStale_frame]
    exact ⟨rfl, rfl, rfl, rfl, rfl, rfl⟩
  · rw [markAllStale_frame]
    exact ⟨rfl, rfl, rfl, rfl, rfl⟩

end Sys2Proof.Machine

namespace Sys2Proof.Machine

open Sys2Proof.Safety

/-! ## The CRC, bit by bit (R40) -/

theorem crcBit_eq (crc : BitVec 16) (x : Bool) :
    crcBit crc x = if crc.getLsbD 15 = x then crc <<< 1 else crc <<< 1 ^^^ 0x1021 := by
  have hmsb : crc.msb = crc.getLsbD 15 := BitVec.msb_eq_getLsbD_last crc
  simp only [crcBit, hmsb]
  cases crc.getLsbD 15 <;> cases x <;> rfl

/-! ## Bits gathered into a byte (R38) -/

/-- A byte with one more bit gathered at its foot. -/
def gathered (w : Byte) (x : Bool) : Byte := w <<< 1 ||| (if x then 1 else 0)

/-- Bits gathered push out what stood before them. -/
theorem foldl_gathered (bits : List Bool) : ∀ w : Byte, bits.foldl gathered w = w <<< bits.length ||| byteOfBits bits := by
  induction bits with
  | nil => intro w; simp [byteOfBits]
  | cons x rest ih =>
    intro w
    have hzero : byteOfBits (x :: rest) = rest.foldl gathered (gathered 0 x) := rfl
    have hfoot : gathered 0 x = (if x then 1 else 0) := by simp [gathered]
    rw [hzero, List.foldl_cons, ih, ih (gathered 0 x), hfoot, gathered, BitVec.shiftLeft_or_distrib, List.length_cons,
      BitVec.or_assoc, Nat.add_comm, BitVec.shiftLeft_add]

/-- The eight bits of a byte are the byte, whatever stood before. -/
theorem foldl_gathered_bitsOf (w b : Byte) : (bitsOf b).foldl gathered w = b := by
  have hgone : w <<< (bitsOf b).length = 0 := BitVec.shiftLeft_eq_zero (Nat.le_refl 8)
  rw [foldl_gathered, hgone, byteOfBits_bitsOf]
  exact BitVec.zero_or

/-- Whether a receiver gathers bits into bytes: everywhere but in the search for SYNC (R38). -/
def Gathers (r : Receiver) : Prop := r.state ≠ .hunt ∨ r.aligned = true

theorem takeBit_of_gathers {r : Receiver} (h : Gathers r) (x : Bool) : takeBit x r
    = if min 8 (r.nbits + 1) = 8 then takeByte (gathered r.window x) r
      else ({ r with window := gathered r.window x, nbits := min 8 (r.nbits + 1) }, .none) := by
  have hsearch : ¬ (r.state = .hunt ∧ (!r.aligned) = true) := by
    rcases h with h | h <;> simp [h]
  simp only [takeBit, hsearch, if_false, gathered]

/-- A receiver that holds n bits gathered. -/
def holding (w : Byte) (n : Nat) (r : Receiver) : Receiver := { r with window := w, nbits := n }

/-- A bit before the eighth is gathered. -/
theorem takeBit_gathered {r : Receiver} (h : Gathers r) (hn : r.nbits < 7) (x : Bool) :
    takeBit x r = (holding (gathered r.window x) (r.nbits + 1) r, .none) := by
  have hmin : min 8 (r.nbits + 1) = r.nbits + 1 := by omega
  rw [takeBit_of_gathers h, hmin, if_neg (by omega), holding]

/-- The eighth bit does what its byte does. -/
theorem takeBit_eighth {r : Receiver} (h : Gathers r) (hn : r.nbits = 7) (x : Bool) :
    takeBit x r = takeByte (gathered r.window x) r := by
  rw [takeBit_of_gathers h, if_pos (by rw [hn]; rfl)]

/-- In the search, the last eight bits are compared with SYNC. -/
theorem takeBit_search {r : Receiver} (hstate : r.state = .hunt) (haligned : r.aligned = false) (x : Bool) :
    takeBit x r = (if min 8 (r.nbits + 1) = 8 ∧ gathered r.window x = 0x5A
      then { r with aligned := true, window := 0, nbits := 0 }
      else { r with window := gathered r.window x, nbits := min 8 (r.nbits + 1) }, .none) := by
  have hsearch : r.state = .hunt ∧ (!r.aligned) = true := ⟨hstate, by rw [haligned]; rfl⟩
  rw [takeBit, if_pos hsearch]
  exact (apply_ite (fun r : Receiver => (r, RxEvent.none)) _ _ _).symm

/-! ## The receiver stored (R38 to R40) -/

/-- The state with its receiver replaced. -/
def withReceiver (r : Receiver) (s : State) : State := { s with feed := { s.feed with rx := r } }

theorem settleReception_none (r : Receiver) (s : State) : settleReception (r, .none) s = withReceiver r s := rfl

theorem settleReception_withReceiver (e : Receiver × RxEvent) (r : Receiver) (s : State) :
    settleReception e (withReceiver r s) = settleReception e s := rfl

/-- A run of bits that does not fill a byte is gathered. -/
theorem feedBits_gathered (bits : List Bool) : ∀ {r : Receiver} (s : State), Gathers r → r.nbits + bits.length ≤ 7 →
    feedBits bits (withReceiver r s)
      = withReceiver (holding (bits.foldl gathered r.window) (r.nbits + bits.length) r) s := by
  induction bits with
  | nil => exact fun _ _ _ => rfl
  | cons x rest ih =>
    intro r s h hn
    rw [List.length_cons] at hn
    have hone : feedBit (withReceiver r s) x = withReceiver (holding (gathered r.window x) (r.nbits + 1) r) s := by
      rw [feedBit, settleReception_withReceiver, ← settleReception_none]
      exact congrArg (settleReception · s) (takeBit_gathered h (by omega) x)
    have hrest : feedBits (x :: rest) (withReceiver r s) = feedBits rest (feedBit (withReceiver r s) x) := rfl
    have hroom : (holding (gathered r.window x) (r.nbits + 1) r).nbits + rest.length ≤ 7 := by
      simp only [holding]
      omega
    rw [hrest, hone, ih (r := holding (gathered r.window x) (r.nbits + 1) r) s h hroom, List.foldl_cons,
      List.length_cons, Nat.add_comm rest.length 1, ← Nat.add_assoc]
    rfl

/-- The last of a run of bits comes after the others. -/
theorem feedBits_concat (bits : List Bool) (x : Bool) (s : State) :
    feedBits (bits ++ [x]) s = feedBit (feedBits bits s) x := by
  simp only [feedBits, List.foldl_append, List.foldl_cons, List.foldl_nil]

theorem withReceiver_self (s : State) : withReceiver s.feed.rx s = s := rfl

/-- Eight bits do what the byte that they spell does, where no bits have been gathered before them. -/
theorem feedBits_eight {s : State} (h : Gathers s.feed.rx) (hn : s.feed.rx.nbits = 0) {seven : List Bool}
    (hseven : seven.length = 7) (x : Bool) : feedBits (seven ++ [x]) s
      = settleReception (takeByte ((seven ++ [x]).foldl gathered s.feed.rx.window) s.feed.rx) s := by
  have hheld := feedBits_gathered seven s h (by omega)
  rw [withReceiver_self, hn, hseven] at hheld
  rw [feedBits_concat, hheld, feedBit, settleReception_withReceiver, List.foldl_append]
  exact congrArg (settleReception · s)
    (takeBit_eighth (r := holding (seven.foldl gathered s.feed.rx.window) 7 s.feed.rx) h rfl x)

/-- The bits of a byte do what the byte does, where no bits have been gathered before it. -/
theorem feedBits_bitsOf {s : State} (h : Gathers s.feed.rx) (hn : s.feed.rx.nbits = 0) (b : Byte) :
    feedBits (bitsOf b) s = settleReception (takeByte b s.feed.rx) s := by
  have hbits : bitsOf b = (bitsOf b).take 7 ++ [b.getLsbD 0] := rfl
  rw [hbits, feedBits_eight h hn rfl, ← hbits, foldl_gathered_bitsOf]

/-- A bit and a byte of the feed line, with the part in operation. -/
theorem exec_feedBit {s : State} (h : s.phase = .running) (x : Bool) :
    exec (.feedByteReceived (.bit x)) s = .next (settleReception (takeBit x s.feed.rx) s) := by
  show Host.Outcome.next (if s.phase = .running then _ else s) = _
  rw [if_pos h]
  rfl

theorem exec_feedByte {s : State} (h : s.phase = .running) (b : Byte) :
    exec (.feedByteReceived (.byte b)) s = .next (feedBits (bitsOf b) s) := by
  show Host.Outcome.next (if s.phase = .running then _ else s) = _
  rw [if_pos h]
  rfl

/-- A byte does what FEED_FRAME_RECEIVED does with it. -/
theorem exec_feedByte_eq_feedFrameReceived {s : State} (h : s.phase = .running) (b : Byte) :
    exec (.feedByteReceived (.byte b)) s = exec (.feedFrameReceived b) s := by
  have hlast : takeLastByte b s = feedBits (bitsOf b) s := by
    simp only [takeLastByte]
    split
    · rename_i hawaits
      obtain ⟨-, hcheck, hn, -⟩ := (frameEnds_iff s).mpr ⟨h, hawaits⟩
      exact (feedBits_bitsOf (.inl (by rw [hcheck]; nofun)) hn b).symm
    · rfl
  have hframe : exec (.feedFrameReceived b) s = whenRunning (takeLastByte b) s := rfl
  rw [exec_feedByte h, hframe, whenRunning, if_pos h, hlast]

/-- An aligned byte that completes no frame. -/
theorem exec_feedByte_of_none {s : State} (h : s.phase = .running) (hgathers : Gathers s.feed.rx)
    (hn : s.feed.rx.nbits = 0) {b : Byte} {r : Receiver} (hbyte : takeByte b s.feed.rx = (r, .none)) :
    exec (.feedByteReceived (.byte b)) s = .next (withReceiver r s) := by
  rw [exec_feedByte h, feedBits_bitsOf hgathers hn, hbyte, settleReception_none]

/-! ### One aligned byte, by the receiver's state (Table 3-1) -/

theorem takeByte_hunt {r : Receiver} (h : r.state = .hunt) (b : Byte) : takeByte b r
    = (if b = 0x5A then { r with state := .length, window := 0, nbits := 0 } else huntReceiver, .none) := by
  simp only [takeByte, h]
  exact (apply_ite (fun r : Receiver => (r, RxEvent.none)) _ _ _).symm

theorem takeByte_length {r : Receiver} (h : r.state = .length) (b : Byte) : takeByte b r
    = (if b = 0x5A then { r with window := 0, nbits := 0 }
        else if 6 ≤ b.toNat ∧ b.toNat ≤ 88 then
          { r with state := .body, window := 0, nbits := 0, length := b.toNat, body := [], crc := crcByte 0xFFFF b }
        else huntReceiver, .none) := by
  simp only [takeByte, h, syncByte, apply_ite (fun r : Receiver => (r, RxEvent.none))]

theorem takeByte_body {r : Receiver} (h : r.state = .body) (b : Byte) : takeByte b r
    = ({ r with state := if r.length ≤ r.body.length + 1 then .check else .body, window := 0, nbits := 0,
                body := r.body ++ [b], crc := crcByte r.crc b, crcHigh := none }, .none) := by
  simp only [takeByte, h, List.length_append, List.length_singleton]

theorem takeByte_check {r : Receiver} (h : r.state = .check) (hhigh : r.crcHigh = none) (b : Byte) :
    takeByte b r = ({ r with window := 0, nbits := 0, crcHigh := some b }, .none) := by
  simp only [takeByte, h, hhigh]

/-- Settles O4: the bits of an aligned receiver are gathered, and the eighth does what the byte does in each state. -/
theorem feedByteIsReceived : Obligations.FeedByteIsReceived := by
  unfold Obligations.FeedByteIsReceived
  refine ⟨crcBit_eq, fun _ _ => rfl, fun _ => rfl, fun _ => rfl, fun s hphase => ?_⟩
  intro r becomes
  refine ⟨exec_feedByte_eq_feedFrameReceived hphase, ?_, ?_, fun b hn => ⟨fun hstate haligned => ?_, fun hstate => ?_,
    fun hstate => ?_, fun hstate hhigh => ?_⟩⟩
  · intro x hgathers w
    refine ⟨fun hn => ?_, fun hn => ?_⟩
    · exact (exec_feedBit hphase x).trans (by rw [takeBit_gathered hgathers hn x]; rfl)
    · have hfresh : exec (.feedByteReceived (.byte w)) (withReceiver (holding r.window 0 r) s)
          = .next (settleReception (takeByte w r) s) := by
        have hbits := feedBits_bitsOf (s := withReceiver (holding r.window 0 r) s) hgathers rfl w
        rw [exec_feedByte (s := withReceiver (holding r.window 0 r) s) hphase, hbits, settleReception_withReceiver]
        rfl
      rw [exec_feedBit hphase x, takeBit_eighth hgathers hn x]
      exact hfresh.symm
  · intro x hstate haligned w n
    exact (exec_feedBit hphase x).trans (by rw [takeBit_search hstate haligned x]; rfl)
  · exact exec_feedByte_of_none hphase (.inr haligned) hn (takeByte_hunt hstate b)
  · exact exec_feedByte_of_none hphase (.inl (by rw [hstate]; nofun)) hn (takeByte_length hstate b)
  · exact exec_feedByte_of_none hphase (.inl (by rw [hstate]; nofun)) hn (takeByte_body hstate b)
  · exact exec_feedByte_of_none hphase (.inl (by rw [hstate]; nofun)) hn (takeByte_check hstate hhigh b)

end Sys2Proof.Machine

namespace Sys2Proof.Machine

open Sys2Proof.Safety

/-! ## The arrival of a CRC-valid frame, told whole (R40, R42 to R47, R54) -/

/-- The feed running: what R42 and R54 make of the state at an arrival. -/
structure FeedHeard (s v : State) : Prop where
  feed : v.feed = (feedBack s).feed
  frame : v = { s with feed := v.feed, line := v.line, chains := v.chains, slots := v.slots }
  shown : ∀ t : State, t.feed.feedState = .running → t.line = v.line → t.chains = v.chains → t.slots = v.slots →
    FeedStateShown s t

theorem FeedHeard.expected {s v : State} (h : FeedHeard s v) : v.feed.expected = s.feed.expected := by
  rw [h.feed]
  rfl

theorem feedHeard_arrivalSeen (s : State) :
    FeedHeard s (arrivalSeen { s with feed := { s.feed with rx := huntReceiver } }) := by
  by_cases h : s.feed.feedState = .running
  · have hseen : arrivalSeen { s with feed := { s.feed with rx := huntReceiver } }
        = { s with feed := (feedBack s).feed } := by
      have hback : (feedBack s).feed = { (feedBack s).feed with feedState := s.feed.feedState } := by rw [h]; rfl
      rw [hback]
      exact if_pos h
    rw [hseen]
    exact ⟨rfl, rfl, fun t _ hline hchains hslots => ⟨fun _ => ⟨hline, hchains, hslots⟩, fun hne => absurd h hne⟩⟩
  · rw [arrivalSeen_eq h]
    have hmarked := boardsMarked_markedBoards statusMark (feedBack s)
    have hframe := markedBoards_frame statusMark (feedBack s)
    generalize markedBoards statusMark (feedBack s) = m at hmarked hframe
    refine ⟨by rw [hframe], ?_, fun t hrunning hline hchains hslots => ⟨fun hr => absurd hr h, fun _ => ⟨hline, ?_⟩⟩⟩
    · rw [hframe]
      rfl
    · have hsame : SameShown { s with feed := t.feed } (feedBack s) := ⟨rfl, hrunning.symm, rfl, rfl, rfl, rfl, rfl, rfl⟩
      have hboards := boardsMarked_of_sameShown hsame hmarked
      simpa only [BoardsMarked, RefreshStarted, hchains, hslots] using hboards

/-- What the sequence check makes of market data, by how far it runs ahead (R43). -/
theorem sequenceChecked_of_market {s v : State} (hexpected : v.feed.expected = s.feed.expected)
    (hdata : MarketData s.feed.rx.body) :
    let next : Feed := { v.feed with expected := some (arrivingNumber s + 1) }
    (runsAhead s = 0 → sequenceChecked s.feed.rx.body v = some { v with feed := next })
      ∧ (0 < runsAhead s → runsAhead s ≤ 32767 → sequenceChecked s.feed.rx.body v = some
          { v with feed := { next with gapOwed := true }, mgmt := alertSet .feedGap v.mgmt })
      ∧ (32768 ≤ runsAhead s → sequenceChecked s.feed.rx.body v = none) := by
  have hcases := (sequenceChecked_cases s.feed.rx.body v).2 ((isMarketData_iff _).mpr hdata)
  rw [hexpected] at hcases
  exact hcases

/-- The sequence check of a frame that is not old: the expected number past market data, and a gap told (R43). -/
theorem sequenceChecked_of_not_old {s v : State} (h : FeedHeard s v)
    (hold : MarketData s.feed.rx.body → runsAhead s ≤ 32767) :
    sequenceChecked s.feed.rx.body v = some { v with feed := feedAfter s, mgmt := mgmtAfter s } := by
  have hmgmt : v.mgmt = s.mgmt := by rw [h.frame]
  by_cases hdata : MarketData s.feed.rx.body
  · obtain ⟨hinOrder, hgap, -⟩ := sequenceChecked_of_market h.expected hdata
    by_cases hzero : runsAhead s = 0
    · have hfollows : followsGap s = false := by simp [followsGap, hzero]
      have hafter : feedAfter s = { v.feed with expected := some (arrivingNumber s + 1) } := by
        rw [h.feed, feedAfter, if_pos hdata, hfollows, Bool.or_false]
        rfl
      rw [hinOrder hzero, hafter, mgmtAfter, hfollows, ← hmgmt]
      rfl
    · have hfollows : followsGap s = true := decide_eq_true ⟨hdata, Nat.pos_of_ne_zero hzero⟩
      have hafter : feedAfter s = { v.feed with expected := some (arrivingNumber s + 1), gapOwed := true } := by
        rw [h.feed, feedAfter, if_pos hdata, hfollows, Bool.or_true]
        rfl
      rw [hgap (Nat.pos_of_ne_zero hzero) (hold hdata), hafter, mgmtAfter, hfollows, ← hmgmt]
      rfl
  · have hfollows : followsGap s = false := decide_eq_false fun hboth => hdata hboth.1
    have hafter : feedAfter s = v.feed := by
      rw [h.feed, feedAfter, if_neg hdata, hfollows, Bool.or_false]
      rfl
    have hpasses := (sequenceChecked_cases s.feed.rx.body v).1
      (Bool.eq_false_iff.mpr fun hmarket => hdata ((isMarketData_iff _).mp hmarket))
    rw [hpasses, hafter, mgmtAfter, hfollows, ← hmgmt]
    rfl

theorem mgmtAfter_params (s : State) : (mgmtAfter s).params = s.mgmt.params := by
  simp only [mgmtAfter]
  split
  · exact alertSet_params _ _
  · rfl

/-- R44: a frame accepted by address. -/
theorem addressed_iff {s v : State} (hstation : v.feed.station = s.feed.station) (hparams : v.mgmt.params = s.mgmt.params)
    (body : List Byte) : addressed body v = true ↔ AddressedHere s body := by
  have hparam (i : Fin 20) : param v i = param s i := by simp only [param, hparams]
  have hgroup : (destGroup body).toNat = at8 body 0 := rfl
  have hdest : (destStation body).toNat = at8 body 1 := rfl
  have hlt := s.feed.station.isLt
  simp only [addressed, AddressedHere, hparam, hstation, hgroup, hdest, Bool.and_eq_true, Bool.or_eq_true, beq_iff_eq,
    decide_eq_true_eq, ne_eq]
  constructor
  · rintro ⟨hg, hs⟩
    exact ⟨by omega, by omega⟩
  · rintro ⟨hg, hs⟩
    exact ⟨by omega, by omega⟩

/-- The state in which a frame that is not old is offered to the intake queue. -/
theorem exec_feedFrameReceived_not_old {s : State} {low : Byte} (harrives : FrameArrives s low)
    (hold : MarketData s.feed.rx.body → runsAhead s ≤ 32767) : ∃ v, FeedHeard s v ∧
      exec (.feedFrameReceived low) s = .next
        (if AddressedHere s s.feed.rx.body ∧ TypeIsTaken s.feed.rx.body then
          offerIntake s.feed.rx.body { v with feed := feedAfter s, mgmt := mgmtAfter s }
        else { v with feed := feedAfter s, mgmt := mgmtAfter s }) := by
  have hheard := feedHeard_arrivalSeen s
  refine ⟨_, hheard, ?_⟩
  rw [exec_feedFrameReceived_arrives harrives]
  have haddressed := addressed_iff (s := s)
    (v := { arrivalSeen { s with feed := { s.feed with rx := huntReceiver } } with
      feed := feedAfter s, mgmt := mgmtAfter s })
    rfl (mgmtAfter_params s) s.feed.rx.body
  simp only [arrive, sequenceChecked_of_not_old hheard hold, Bool.and_eq_true, haddressed, typeTaken_iff]

/-- Settles O5: a frame that is addressed, taken and not old is offered to the queue. -/
theorem feedFrameIsQueued : Obligations.FeedFrameIsQueued := by
  unfold Obligations.FeedFrameIsQueued
  intro s low body room harrives hold haddressed htaken
  obtain ⟨v, hheard, hexec⟩ := exec_feedFrameReceived_not_old harrives hold
  rw [if_pos ⟨haddressed, htaken⟩, offerIntake] at hexec
  have hintake : v.intake = s.intake := by rw [hheard.frame]
  refine ⟨_, hexec, ?_⟩
  simp only [hintake, intakeCapacity]
  by_cases hroom : s.intake.length < 16
  · have htrue : room = true := decide_eq_true hroom
    rw [if_pos hroom, htrue]
    refine ⟨rfl, rfl, rfl, hheard.shown _ rfl rfl rfl rfl, ?_⟩
    rw [hheard.frame]
    rfl
  · have hfalse : room = false := decide_eq_false hroom
    rw [if_neg hroom, hfalse]
    refine ⟨rfl, rfl, rfl, hheard.shown _ rfl rfl rfl rfl, ?_⟩
    rw [hheard.frame]
    rfl

/-- A frame of bad CRC completes nothing (R40). -/
theorem takeByte_refuses {s : State} {low : Byte} (hends : FrameEnds s) (hcrc : ¬ CrcAgrees s low) :
    takeByte low s.feed.rx = (huntReceiver, .none) := by
  obtain ⟨-, hcheck, -, hhigh⟩ := hends
  obtain ⟨high, hhigh⟩ := Option.isSome_iff_exists.mp hhigh
  have hdiffers : ¬ wordBytes s.feed.rx.crc = [high, low] := by
    intro hword
    simp only [wordBytes, List.cons.injEq, and_true] at hword
    exact hcrc ⟨by rw [hhigh, hword.1], hword.2.symm⟩
  simp only [takeByte, hcheck, hhigh, hdiffers, if_false]

/-- Settles O6: a bad CRC completes no frame; an old frame stops at the sequence check; any other that is not queued has
passed it. -/
theorem feedFrameIsDropped : Obligations.FeedFrameIsDropped := by
  unfold Obligations.FeedFrameIsDropped
  intro s low body shown
  refine ⟨fun hends hcrc => ?_, fun harrives hdata hold => ?_, fun harrives hold hnot => ?_⟩
  · obtain ⟨hphase, hawaits⟩ := (frameEnds_iff s).mp hends
    have hexec : exec (.feedFrameReceived low) s = whenRunning (takeLastByte low) s := rfl
    rw [hexec, whenRunning, if_pos hphase, takeLastByte, if_pos hawaits, takeByte_refuses hends hcrc]
    rfl
  · have hheard := feedHeard_arrivalSeen s
    obtain ⟨-, -, hstops⟩ := sequenceChecked_of_market hheard.expected hdata
    rw [exec_feedFrameReceived_arrives harrives, arrive, hstops hold]
    generalize arrivalSeen { s with feed := { s.feed with rx := huntReceiver } } = v at hheard
    refine ⟨v, rfl, hheard.feed, by rw [hheard.frame], hheard.shown v ?_ rfl rfl rfl, ?_⟩
    · rw [hheard.feed]
      rfl
    · rw [hheard.frame]
  · obtain ⟨v, hheard, hexec⟩ := exec_feedFrameReceived_not_old harrives hold
    rw [if_neg (fun hboth => hnot.elim (· hboth.1) (· hboth.2))] at hexec
    refine ⟨_, hexec, rfl, rfl, hheard.shown _ rfl rfl rfl rfl, ?_⟩
    rw [hheard.frame]

end Sys2Proof.Machine

namespace Sys2Proof.Machine

open Sys2Proof.Safety

/-! ## The reset pin held, and INIT (R41, R57, R89, R133, R153, R174) -/

/-- The commands of the supply, the reset pin and the end of INIT: the only ones that act outside operation. -/
def ActsInReset (c : Instr) : Prop :=
  c = .powerOn ∨ c = .resetPinAssert ∨ c = .resetPinRelease ∨ ∃ straps sense, c = .initEnd straps sense

theorem whenRunning_of_not_running {s : State} (h : s.phase ≠ .running) (f : State → State) :
    whenRunning f s = .next s := by
  rw [whenRunning, if_neg h]

theorem exec_of_not_running {c : Instr} {s : State} (h : s.phase ≠ .running) (hc : ¬ ActsInReset c) :
    exec c s = .next s := by
  cases c
  case powerOn => exact absurd (.inl rfl) hc
  case resetPinAssert => exact absurd (.inr (.inl rfl)) hc
  case resetPinRelease => exact absurd (.inr (.inr (.inl rfl))) hc
  case initEnd straps sense => exact absurd (.inr (.inr (.inr ⟨straps, sense, rfl⟩))) hc
  case chainSenseChange c present =>
    exact whenRunning_of_not_running h (fun u => if u.chains[c].senseLevel = present then u else senseChange c present u)
  all_goals exact whenRunning_of_not_running h _

/-- The commands that act in reset change nothing in the phases that are not theirs (R174). -/
theorem exec_initEnd_of_pinHeld {s : State} (h : s.phase = .pinHeld) (straps : BitVec 6) (sense : Vector Bool 4) :
    exec (.initEnd straps sense) s = .next s :=
  congrArg _ (if_neg (by rw [h]; decide))

theorem exec_resetPinAssert_of_pinHeld {s : State} (h : s.phase = .pinHeld) : exec .resetPinAssert s = .next s :=
  congrArg _ (if_pos h)

theorem exec_resetPinRelease_of_initRunning {s : State} (h : s.phase = .initRunning) :
    exec .resetPinRelease s = .next s :=
  congrArg _ (if_neg (by rw [h]; decide))

theorem exec_of_pinHeld {c : Instr} {s : State} (h : s.phase = .pinHeld) (hrelease : c ≠ .resetPinRelease)
    (hpower : c ≠ .powerOn) : exec c s = .next s := by
  by_cases hc : ActsInReset c
  · obtain rfl | rfl | rfl | ⟨straps, sense, rfl⟩ := hc
    · exact absurd rfl hpower
    · exact exec_resetPinAssert_of_pinHeld h
    · exact absurd rfl hrelease
    · exact exec_initEnd_of_pinHeld h straps sense
  · exact exec_of_not_running (by rw [h]; decide) hc

theorem exec_of_initRunning {c : Instr} {s : State} (h : s.phase = .initRunning)
    (hend : ∀ straps sense, c ≠ .initEnd straps sense) (hpower : c ≠ .powerOn) (hpin : c ≠ .resetPinAssert) :
    exec c s = .next s := by
  by_cases hc : ActsInReset c
  · obtain rfl | rfl | rfl | ⟨straps, sense, rfl⟩ := hc
    · exact absurd rfl hpower
    · exact absurd rfl hpin
    · exact exec_resetPinRelease_of_initRunning h
    · exact absurd rfl (hend straps sense)
  · exact exec_of_not_running (by rw [h]; decide) hc

/-- Nothing counts outside operation (R57, R68). -/
theorem step_tick_of_not_running {s : State} (h : s.phase ≠ .running) (hpending : s.pending = []) :
    step s = .next s := by
  rw [step, hpending, intervalTick, if_neg h]

/-! ### The outputs -/

theorem outputsInactive_of_not_running {s : State} (h : s.phase ≠ .running) : OutputsInactive s := by
  have hstill : lineDirectionActive s = false := by simp [lineDirectionActive, h]
  refine ⟨by simp [flashOutput, h], by simp [tickerPresents, h], hstill, fun k => ⟨?_, ?_⟩,
    fun c => ⟨?_, fun k => ⟨?_, ?_⟩⟩⟩
  · simp [tickerLine, h, marking]
  · simp [transmitData, hstill, marking]
  · simp [shiftClockRuns, h]
  · simp [blankingActive, h]
  · simp [shiftData, h]

theorem returnBytes_of_pinHeld {s : State} (h : s.phase = .pinHeld) : returnBytes s = [] := by
  rw [returnBytes, h]

theorem returnLine_of_pinHeld {s : State} (h : s.phase = .pinHeld) (k : Nat) : returnLine s k = true := by
  rw [returnLine, returnBytes_of_pinHeld h]
  rfl

/-- A byte's bits stand most significant first. -/
theorem bitsOf_getD (b : Byte) {i : Nat} (h : i < 8) (x : Bool) : (bitsOf b).getD i x = b.getLsbD (7 - i) := by
  match i with
  | 0 | 1 | 2 | 3 | 4 | 5 | 6 | 7 => rfl

theorem sendsFill_of_initRunning {s : State} (h : s.phase = .initRunning) : SendsFill s := by
  have hbytes : returnBytes s = [0x5A] := by rw [returnBytes, h]
  have hidle : returnsFrame s = false := by simp [returnsFrame, h]
  refine ⟨hbytes, fun k => ?_⟩
  rw [returnLine, hbytes, hidle]
  exact bitsOf_getD 0x5A (Nat.mod_lt k (by decide)) marking

/-! ### The pin taken, and the blocks cold -/

theorem abandonCycle_latched (ch : Chain) : (abandonCycle ch).latched = ch.latched := by
  rw [abandonCycle]
  split
  · rfl
  · rfl

theorem coldChains_getElem (sense : Vector Bool 4) (c : ChainId) :
    (coldChains sense)[c] = coldChain sense[c] := by
  simp [coldChains]

theorem coldBulletins_getElem (k : StackId) : coldBulletins[k] = [] := by
  simp [coldBulletins]

theorem coldLine_getElem (x : TermId) : coldLine.terminals[x] = coldTerminal := by
  simp [coldLine]

theorem coldTerminal_row (i : Fin 16) : coldTerminal.rows[i] = coldRow := by
  simp [coldTerminal]

theorem coldChain_cold (sense : Bool) : ColdChain (coldChain sense) := by
  refine ⟨rfl, fun k => ?_, rfl, rfl, rfl, rfl, rfl, rfl, rfl, rfl, rfl, rfl, rfl⟩
  simp [coldChain]

theorem coldTerminal_cold : ColdTerminal coldTerminal :=
  ⟨rfl, rfl, rfl, rfl, rfl, rfl, rfl, rfl, rfl, coldTerminal_row, rfl, rfl, rfl, rfl⟩

theorem coldBlocks_coldState (cause : ResetCause) (phase : Phase) (station : BitVec 6) (sense : Vector Bool 4)
    (s : State) : ColdBlocks (coldState cause phase station sense s) := by
  refine ⟨⟨rfl, rfl, rfl, rfl, rfl⟩, rfl, rfl, rfl, rfl, rfl, fun c => ?_, rfl, fun k => ?_,
    ⟨rfl, rfl, rfl, rfl, rfl, rfl, rfl, rfl, rfl, rfl, rfl, rfl⟩, fun x => ?_, rfl, rfl, rfl, rfl⟩
  · exact coldChains_getElem sense c ▸ coldChain_cold sense[c]
  · exact coldBulletins_getElem k
  · exact coldLine_getElem x ▸ coldTerminal_cold

/-- Settles O33: outside operation no command but those of the reset acts, and every output rests. -/
theorem resetPinHoldsThePart : Obligations.ResetPinHoldsThePart := by
  unfold Obligations.ResetPinHoldsThePart
  have hheld {s : State} (h : s.phase = .pinHeld) : s.phase ≠ .running := by rw [h]; decide
  have hinit {s : State} (h : s.phase = .initRunning) : s.phase ≠ .running := by rw [h]; decide
  refine ⟨fun s hphase => ?_, fun c s => exec_of_pinHeld, fun s hphase => ?_, fun c s => exec_of_initRunning,
    fun s hphase => ?_, fun s hphase => ⟨returnBytes_of_pinHeld hphase, returnLine_of_pinHeld hphase⟩,
    fun s => sendsFill_of_initRunning⟩
  · have hexec : exec .resetPinAssert s = .next (pinTaken s) := congrArg _ (if_neg hphase)
    refine ⟨_, hexec, rfl, rfl, rfl, rfl, outputsInactive_of_not_running (hheld rfl), returnLine_of_pinHeld rfl,
      fun c => ?_, rfl, rfl, rfl, rfl, rfl, rfl, rfl⟩
    simp [pinTaken, abandonCycle_latched]
  · have hstays : (powerRise s).phase = .pinHeld := if_pos hphase
    exact ⟨powerRise s, rfl, hstays, coldBlocks_coldState _ _ _ _ s, rfl, outputsInactive_of_not_running (hheld hstays),
      returnLine_of_pinHeld hstays⟩
  · have hrests : s.phase ≠ .running := hphase.elim hheld hinit
    exact ⟨outputsInactive_of_not_running hrests, step_tick_of_not_running hrests⟩

/-! ## The state after reset -/

theorem coldBlocks_reset : ColdBlocks State.reset :=
  coldBlocks_coldState .powerOn .running 0 (Vector.replicate 4 false) State.reset

theorem reset_chain (c : ChainId) : State.reset.chains[c] = coldChain false := by
  have hsense : (Vector.replicate 4 false)[c] = false := by simp
  exact (coldChains_getElem (Vector.replicate 4 false) c).trans (congrArg coldChain hsense)

theorem reset_terminal (x : TermId) : State.reset.line.terminals[x] = coldTerminal := coldLine_getElem x

/-- No row names a record after reset. -/
theorem allRowsNaming_reset (n : Nat) : allRowsNaming State.reset n = 0 := by
  simp [allRowsNaming, rowsNaming, State.reset, coldLine, coldTerminal, coldRow]

theorem chainsFit_reset : ChainsFit State.reset := by
  intro c
  rw [reset_chain]
  simp [coldChain]

theorem rowsFormed_reset : RowsFormed State.reset := by
  intro x
  rw [reset_terminal]
  refine ⟨fun i => ?_, fun i j n hrecord => ?_⟩
  · rw [coldTerminal_row]
    exact ⟨nofun, fun _ => ⟨.inl rfl, .inl rfl⟩⟩
  · rw [coldTerminal_row] at hrecord
    cases hrecord

theorem lineLaw_reset : LineLaw State.reset := by
  refine ⟨⟨fun x y hx => ?_, fun x _ => ?_⟩, fun _ => ⟨fun x hx => ?_, fun x hx => ?_, nofun⟩⟩
  · rw [reset_terminal] at hx
    cases hx
  · rw [reset_terminal]
    exact ⟨fun i => by rw [coldTerminal_row]; rfl, rfl⟩
  · rw [reset_terminal] at hx
    cases hx
  · rw [reset_terminal] at hx
    cases hx

theorem reset_record (n : Nat) (r : QuoteRecord) : ¬ tableGet State.reset.records n = some r :=
  Option.some_ne_none r ∘ Eq.symm

theorem reset_slot (n : Nat) (sl : Slot) : ¬ tableGet State.reset.slots n = some sl :=
  Option.some_ne_none sl ∘ Eq.symm

theorem directoryExact_reset : DirectoryExact State.reset :=
  ⟨.nil, fun _ n => ⟨fun hmem => absurd hmem List.not_mem_nil, fun ⟨r, hr, _⟩ => absurd hr (reset_record n r)⟩⟩

/-- Every law holds after reset: the tables and queues are empty, the chains OFFLINE and the terminals DISABLED. -/
theorem safe_reset : Safe State.reset where
  directory := directoryExact_reset
  stale _ n r hr := absurd hr (reset_record n r)
  netChange n r hr := absurd hr (reset_record n r)
  range n r hr := absurd hr (reset_record n r)
  records n r hr := absurd hr (reset_record n r)
  tables := ⟨⟨.nil, nofun⟩, ⟨.nil, nofun⟩⟩
  intake := Nat.zero_le _
  load := loadPlaced_of_none rfl
  bulletins k := by
    have hempty : State.reset.bulletins[k] = [] := coldBulletins_getElem k
    rw [hempty]
    exact ⟨Nat.zero_le _, fun e he => absurd he List.not_mem_nil⟩
  ticker := ⟨Nat.zero_le _, fun _ => rfl, Nat.zero_le _, Nat.zero_le _, Nat.zero_le _⟩
  stopped := ⟨fun _ => ⟨rfl, rfl, rfl, rfl⟩, fun hrunning => absurd rfl hrunning⟩
  counters := rfl
  replies := ⟨Nat.zero_le _, Nat.le_refl _⟩
  time := ⟨Nat.zero_le _, Nat.zero_le _⟩
  chains := chainsFit_reset
  claims n _ a _ ha := absurd ha (reset_slot n a)
  watch := ⟨fun n r hr => absurd hr (reset_record n r), fun n _ => allRowsNaming_reset n⟩
  rows := rowsFormed_reset
  line := lineLaw_reset
  params := coldParams_legal

/-- Settles O58: the cold blocks with the flash clock started and RESET set. -/
theorem resetIsSafe : Obligations.ResetIsSafe := by
  unfold Obligations.ResetIsSafe
  exact ⟨safe_reset, rfl, coldBlocks_reset, rfl, rfl, rfl, rfl, rfl⟩

end Sys2Proof.Machine

namespace Sys2Proof.Machine

open Sys2Proof.Safety

/-! ## The step -/

theorem step_of_cons {c : Instr} {rest : List Instr} {s : State} (h : s.pending = c :: rest) :
    step s = exec c { s with pending := rest } := by
  simp only [step, h]

theorem step_of_nil {s : State} (h : s.pending = []) : step s = .next (intervalTick s) := by
  simp only [step, h]

/-- Settles O1: the two branches of the step. -/
theorem stepTakesTheFront : Obligations.StepTakesTheFront := by
  unfold Obligations.StepTakesTheFront
  exact ⟨fun _ _ _ => step_of_cons, fun _ => step_of_nil⟩

/-! ## The session table (R62, R63, Table 4-3) -/

/-- A code that gives no state, or the state the session is in already. -/
theorem applySession_of_ignored {code : SessionCode} {u : State}
    (h : sessionAfter code u.time.session = none ∨ sessionAfter code u.time.session = some u.time.session) :
    applySession code u = u := by
  obtain h | h := h
  · simp only [applySession, h]
  · simp only [applySession, h, if_true]

/-- Settles O16: the codes of R63 give no state, and CLOSE in CLOSED gives CLOSED. -/
theorem sessionIsIgnored : Obligations.SessionIsIgnored := by
  unfold Obligations.SessionIsIgnored
  intro s e rest code u old hhead hq hcode
  have hignored : sessionAfter code old = none ∨ sessionAfter code old = some old := by
    obtain ⟨rfl, h⟩ | ⟨rfl, h⟩ | ⟨rfl, h⟩ | ⟨rfl, h⟩ | ⟨rfl, h⟩ := hcode
    · left
      obtain h | h | h := h <;> rw [h] <;> rfl
    · left
      obtain h | h := h <;> rw [h] <;> rfl
    · left
      obtain h | h | h := h <;> rw [h] <;> rfl
    · left
      obtain h | h | h := h <;> rw [h] <;> rfl
    · right
      rw [h]
      rfl
  have happly : applyItems sessionItems applySession e.body u = u := by
    rw [applyItems_of_some hq, applySession_of_ignored hignored]
  exact whenRunning_takeHead_discarded hhead happly

end Sys2Proof.Machine

namespace Sys2Proof.Machine

open Sys2Proof.Safety

/-! ## Marks of the boards that only dirty and flash (R75, R95) -/

/-- A mark that keeps every slot's description brings about refreshes alone. -/
theorem markedBoards_boards {mark : Slot → Slot} (h : Marks mark) (v : State) :
    BoardsOnlyRefresh v (markedBoards mark v) := by
  have hmarked := markSlots_boards (fun _ => true) h.keeps v
  rw [markSlots_eq] at hmarked
  exact hmarked

theorem marks_clockMark : Marks clockMark := by
  refine ⟨fun sl => ?_, fun a b _ hf => ?_⟩
  · simp only [clockMark]
    split <;> rfl
  · simp only [clockMark]
    split <;> split <;> exact hf

/-! ## The exchange clock (R59 to R61, R102) -/

/-- A minute change at the CLOCK slots and the status lines. -/
theorem minuteChange_eq (s : State) :
    minuteChange s = { markedBoards clockMark s with line := lineWithStatus s.line } := by
  have hmark : (fun sl : Slot => if (sl.kind == .clock) = true then dirtied sl else sl) = clockMark := by
    funext sl
    simp [clockMark, dirtied]
  simp only [minuteChange, markClocks, markSlots_eq, hmark]
  rfl

/-- The time base replaced, and a minute change handed on where there is one. -/
def timeMoved (time : TimeBase) (minute : Prop) [Decidable minute] (u : State) : State :=
  if minute then minuteChange (u.setTime time) else u.setTime time

theorem applyClock_eq (q : TimeOfDay) (u : State) : applyClock q u
    = timeMoved { u.time with clock := secondsOf q, clockSet := true, phaseTicks := 0 }
      (u.time.clockSet = false ∨ secondsOf q / 60 ≠ u.time.clock / 60) u := rfl

theorem secondExpire_eq (s : State) : secondExpire s
    = timeMoved { s.time with clock := advancedClock s.time.clock, phaseTicks := 0 }
      (s.time.clockSet = true ∧ advancedClock s.time.clock / 60 ≠ s.time.clock / 60) s := rfl

/-- What a move of the clock brings about, told of the state u before it and a state t after it: the time base, the
status lines and the CLOCK slots at a minute change, and what stays. -/
structure ClockMoved (time : TimeBase) (minute : Prop) [Decidable minute] (u t : State) : Prop where
  time : t.time = time
  shown : if minute then t.line = lineWithStatus u.line ∧ BoardsMarked clockMark { u with time := t.time } t
    else t.line = u.line ∧ t.chains = u.chains ∧ t.slots = u.slots
  frame : t = { u with time := t.time, line := t.line, chains := t.chains, slots := t.slots, intake := t.intake }
  refresh : BoardsOnlyRefresh u t

theorem clockMoved_timeMoved (time : TimeBase) (minute : Prop) [Decidable minute] (u : State) :
    ClockMoved time minute u (timeMoved time minute u) := by
  by_cases h : minute
  · have hmoved : timeMoved time minute u
        = { markedBoards clockMark (u.setTime time) with line := lineWithStatus u.line } := by
      rw [timeMoved, if_pos h, minuteChange_eq]
      rfl
    have hframe := markedBoards_frame clockMark (u.setTime time)
    have hmarked := boardsMarked_markedBoards clockMark (u.setTime time)
    have hboards := markedBoards_boards marks_clockMark (u.setTime time)
    rw [hmoved]
    generalize markedBoards clockMark (u.setTime time) = m at *
    have htime : m.time = time := by rw [hframe]; rfl
    refine ⟨htime, ?_, ?_, hboards⟩
    · rw [if_pos h]
      refine ⟨rfl, ?_⟩
      show BoardsMarked clockMark { u with time := m.time } m
      rw [htime]
      exact hmarked
    · rw [hframe]
      rfl
  · have hmoved : timeMoved time minute u = u.setTime time := by rw [timeMoved, if_neg h]
    rw [hmoved]
    refine ⟨rfl, ?_, rfl, boardsOnlyRefresh_of_eq rfl rfl⟩
    rw [if_neg h]
    exact ⟨rfl, rfl, rfl⟩

/-- A CLOCK frame moves the clock (R60). -/
theorem clockMoved_applyClock (q : TimeOfDay) (u : State) :
    ClockMoved { u.time with clock := secondsOf q, clockSet := true, phaseTicks := 0 }
      (u.time.clockSet = false ∨ secondsOf q / 60 ≠ u.time.clock / 60) u (applyClock q u) := by
  rw [applyClock_eq]
  exact clockMoved_timeMoved _ _ u

/-- So does the second phase running out (R59). -/
theorem clockMoved_secondExpire (s : State) :
    ClockMoved { s.time with clock := advancedClock s.time.clock, phaseTicks := 0 }
      (s.time.clockSet = true ∧ advancedClock s.time.clock / 60 ≠ s.time.clock / 60) s (secondExpire s) := by
  rw [secondExpire_eq]
  exact clockMoved_timeMoved _ _ s

/-- A clock that moves leaves the other blocks as they are. -/
theorem ClockMoved.others {time : TimeBase} {minute : Prop} [Decidable minute] {u t : State}
    (h : ClockMoved time minute u t) : t.phase = u.phase ∧ t.feed = u.feed ∧ t.load = u.load ∧ t.records = u.records
      ∧ t.directory = u.directory ∧ t.flashClock = u.flashClock ∧ t.bulletins = u.bulletins
      ∧ t.ticker = u.ticker ∧ t.mgmt = u.mgmt := by
  rw [h.frame]
  exact ⟨rfl, rfl, rfl, rfl, rfl, rfl, rfl, rfl, rfl⟩

/-- Settles O14: both the CLOCK frame and the second phase move the clock, and hand a minute change on. -/
theorem clockRuns : Obligations.ClockRuns := by
  unfold Obligations.ClockRuns
  constructor
  · intro s e rest q u seconds hhead hq
    have happly : applyItems clockItems applyClock e.body u = applyClock q u := applyItems_of_some hq u
    have hmoved := clockMoved_applyClock q u
    have hintake : (applyClock q u).intake = u.intake := (applyClock_keepsBlocks hq u).intake
    have hexec := whenRunning_takeHead hhead (apply := applyItems clockItems applyClock) (by rw [happly]; exact hintake)
    obtain ⟨hphase, hfeed, hload, hrecords, hdirectory, hflash, hbulletins, hticker, hmgmt⟩ := hmoved.others
    rw [happly] at hexec
    exact ⟨(applyClock q u).setIntake rest, hexec, hmoved.time, hmoved.shown, hphase, hfeed, rfl, hload, hrecords,
      hdirectory, hflash, hbulletins, hticker, hmgmt, hmoved.refresh⟩
  · intro s hphase next
    have hmoved := clockMoved_secondExpire s
    have hexec : exec .secondPhaseExpiry s = .next (secondExpire s) := congrArg _ (if_pos hphase)
    have hintake : (secondExpire s).intake = s.intake := (secondExpire_keepsBlocks s).intake
    obtain ⟨hphase, hfeed, hload, hrecords, hdirectory, hflash, hbulletins, hticker, hmgmt⟩ := hmoved.others
    exact ⟨secondExpire s, hexec, hmoved.time, hmoved.shown, hphase, hfeed, hintake, hload, hrecords, hdirectory,
      hflash, hbulletins, hticker, hmgmt, hmoved.refresh⟩

end Sys2Proof.Machine

namespace Sys2Proof.Machine

open Sys2Proof.Safety

/-! ## What a selection leaves as it is (R139) -/

/-- A selection does not touch the night poll gap. -/
theorem select_gap (s : State) : (select s).line.gap = s.line.gap := by
  simp only [select]
  split
  · split
    · simp only [serve]
      split
      case h_4 => split <;> rfl
      all_goals rfl
    · rfl
  · rfl

/-! ## The ticker at a session change (R113, R129) -/

/-- The ticker after a session change, with the step interval of its level, and the cursor that a text emptied is
given. -/
def sessionTicker (old new : SessionState) (interval cursor : Nat) (k : Ticker) : Ticker :=
  if old = .closed then
    if k.state = .stopped then
      { k with state := .running, text := [], cursor := cursor, separator := 0, stepTimer := some interval }
    else { k with state := .running }
  else if new = .closed ∧ k.state = .running then { k with state := .draining }
  else k

/-- Where the cursor is stated, it is the one that the ticker has. -/
theorem eq_sessionTicker_cursor {old new : SessionState} {interval cursor : Nat} {k after : Ticker}
    (h : after = sessionTicker old new interval cursor k) :
    after = sessionTicker old new interval after.cursor k := by
  subst h
  simp only [sessionTicker]
  split
  · split <;> rfl
  · split <;> rfl

theorem sessionTicker_level (old new : SessionState) (interval cursor : Nat) (k : Ticker) :
    (sessionTicker old new interval cursor k).level = k.level
      ∧ (sessionTicker old new interval cursor k).lateMinutes = k.lateMinutes := by
  simp only [sessionTicker]
  split
  · split <;> exact ⟨rfl, rfl⟩
  · split <;> exact ⟨rfl, rfl⟩

/-- A change of the session as Table 4-3 gives it: out of CLOSED it goes to PRE_OPEN or OPEN. -/
abbrev SessionMoves (old new : SessionState) : Prop := old = .closed → new = .preOpen ∨ new = .openMarket

/-- What the ticker does at a session change is its own alone. -/
theorem tickerSession_eq {old new : SessionState} (h : SessionMoves old new) (v : State) :
    tickerSession old new v = { v with ticker := sessionTicker old new (stepInterval v) 0 v.ticker } := by
  by_cases hold : old = .closed
  · simp only [tickerSession, sessionTicker, hold, h hold, and_self, if_true]
    split <;> rfl
  · simp only [tickerSession, sessionTicker, hold, false_and, if_false]
    split <;> rfl

/-! ## The hand-off of a session change (R64, R104, R140, R150) -/

/-- The state with its session changed. -/
def withSession (new : SessionState) (u : State) : State := { u with time := { u.time with session := new } }

/-- The line at a session change: the status lines, and out of CLOSED the end of the night poll gap with the selection
that it brings. -/
def sessionLine (old : SessionState) (v : State) : TerminalLine :=
  if old = .closed then (select { v with line := { lineWithStatus v.line with gap := none } }).line
  else lineWithStatus v.line

theorem lineSession_line (old : SessionState) (v : State) : (lineSession old v).line = sessionLine old v := by
  by_cases h : old = .closed
  · rw [h, lineSession_closed, sessionLine, if_pos rfl]
  · simp only [lineSession, sessionLine, h, if_false]
    rfl

/-- It hangs on what a selection reads alone. -/
theorem sessionLine_of_sameServed {v w : State} (h : SameServed v w) (old : SessionState) :
    sessionLine old w = sessionLine old v := by
  simp only [sessionLine]
  split
  · have hgap : SameServed { v with line := { lineWithStatus v.line with gap := none } }
        { w with line := { lineWithStatus w.line with gap := none } } :=
      { h with line := by rw [h.line] }
    exact hgap.select_line
  · rw [h.line]

/-- The hand-off of a session change, told whole. -/
theorem handSession_eq {old new : SessionState} (h : SessionMoves old new) (v : State) : handSession old new v
    = { markedBoards statusMark v with
        ticker := sessionTicker old new (stepInterval v) 0 v.ticker, line := sessionLine old v } := by
  have hinterval : stepInterval (markedBoards statusMark v) = stepInterval v := rfl
  have hticker : (markedBoards statusMark v).ticker = v.ticker := rfl
  obtain ⟨hlevel, hminutes⟩ := sessionTicker_level old new (stepInterval v) 0 v.ticker
  rw [handSession, markStatus_eq, tickerSession_eq h, lineSession_frame, lineSession_line, hinterval, hticker]
  generalize sessionTicker old new (stepInterval v) 0 v.ticker = after at *
  have hserved : SameServed v { markedBoards statusMark v with ticker := after } :=
    ⟨rfl, rfl, rfl, rfl, hlevel, hminutes, rfl⟩
  rw [sessionLine_of_sameServed hserved old]

/-- What the hand-off of a session change leaves of every block. -/
structure SessionPassed (old new : SessionState) (u t : State) : Prop where
  frame : t = { withSession new u with ticker := t.ticker, line := t.line, chains := t.chains, slots := t.slots }
  ticker : t.ticker = sessionTicker old new (stepInterval u) 0 u.ticker
  line : t.line = sessionLine old (withSession new u)
  boards : BoardsMarked statusMark (withSession new u) t
  refresh : BoardsOnlyRefresh u t

theorem sessionPassed_handSession {old new : SessionState} (h : SessionMoves old new) (u : State) :
    SessionPassed old new u (handSession old new (withSession new u)) := by
  have hframe := markedBoards_frame statusMark (withSession new u)
  have hmarked := boardsMarked_markedBoards statusMark (withSession new u)
  have hboards := markedBoards_boards marks_statusMark (withSession new u)
  rw [handSession_eq h]
  generalize markedBoards statusMark (withSession new u) = m at *
  exact ⟨by rw [hframe], rfl, rfl, hmarked, hboards⟩

/-! ## The day reset, of records in any order (R22, R65, R110, R131) -/

theorem dayResetOne_boards (v : State) (n : Nat) : BoardsOnlyRefresh v (dayResetOne v n) := by
  cases h : tableGet v.records n with
  | none =>
    rw [dayResetOne_of_none h]
    exact boardsOnlyRefresh_refl v
  | some r =>
    rw [dayResetOne_of_some h]
    exact updateRecord_boards n _ allNames v

theorem recordsDayReset_boards (s : State) : BoardsOnlyRefresh s (recordsDayReset s) := by
  have hfold (ns : List Nat) : ∀ v : State, BoardsOnlyRefresh v (ns.foldl dayResetOne v) := by
    induction ns with
    | nil => exact boardsOnlyRefresh_refl
    | cons n rest ih => exact fun v => boardsOnlyRefresh_trans (dayResetOne_boards v n) (ih _)
  exact hfold (definedNumbers s) s

theorem tickerDayReset_boards (s : State) : BoardsOnlyRefresh s (tickerDayReset s) := by
  rw [tickerDayReset_eq]
  split
  · exact boardsOnlyRefresh_of_eq rfl rfl
  · exact markedBoards_boards marks_statusMark { s with ticker := tickerOfDay s.ticker }

/-- What the day reset leaves before its last mark, but for what becomes of each record: it needs no order of the
records. -/
structure DayTurned (u h d : State) : Prop where
  frame : d = { h with records := d.records, ticker := tickerOfDay h.ticker, line := lineWithDayReset u h.line,
                       chains := d.chains, slots := d.slots }
  advance : BoardsAdvance h d
  flashes : FlashesWhere (fun n => (tableGet u.records n).isSome) (param u 5) h d
  refresh : BoardsOnlyRefresh h d

theorem dayTurned_dayCleared {u h : State} (hrecords : h.records = u.records) (hmgmt : h.mgmt = u.mgmt)
    (hlevel : h.ticker.level = u.ticker.level) : DayTurned u h (dayCleared h) := by
  have hframe := recordsDayReset_frame h
  have hline := recordsDayReset_line h
  have hadvance := recordsDayReset_advance h
  have hflashes := flashesWhere_recordsDayReset h
  have hrefresh := recordsDayReset_boards h
  have hparam : param h 5 = param u 5 := by simp only [param, hmgmt]
  rw [hrecords] at hline hflashes
  rw [hparam] at hflashes
  simp only [dayCleared]
  generalize recordsDayReset h = c at *
  have hrefresh' := tickerDayReset_boards c
  obtain ⟨hframe', hadvance', hflashes'⟩ := tickerReset_tickerDayReset c
  generalize tickerDayReset c = d at *
  have hticker : c.ticker = h.ticker := by rw [hframe]
  refine ⟨?_, hadvance.trans hadvance', ?_, boardsOnlyRefresh_trans hrefresh hrefresh'⟩
  · rw [hline, hticker, hlevel] at hframe'
    rw [hframe', hframe]
    rfl
  · have hall := hflashes.trans (hflashes' (param u 5))
    simpa only [Bool.or_false] using hall

/-- The last mark, of every slot, at what the marks before it have left (R98, R110). -/
theorem marksStand_dirtyMark {u d : State} (hadvance : BoardsAdvance u d)
    (hflashes : FlashesWhere (fun n => (tableGet u.records n).isSome) (param u 5) u d) :
    MarksStand (dayMark u) u (markedBoards dirtyMark d) := by
  intro n sl hsl
  obtain ⟨mid, hmid, hd, hf⟩ := hflashes n sl hsl
  obtain ⟨sl', hsl', hd', hf', hs'⟩ := marksStand_marked marks_dirtyMark d n mid hmid
  have hmark : dayMark u sl = { sl with dirty := true, flash := mid.flash } := by
    rw [hf]
    obtain ⟨_, _, kind, _, _⟩ := sl
    cases kind <;> rfl
  have hmid' : dirtyMark mid = dayMark u sl := by
    obtain ⟨_, _, _, _, _⟩ := mid
    obtain ⟨_, _, _, _, _⟩ := sl
    simp only [description, Prod.mk.injEq] at hd
    obtain ⟨rfl, rfl, rfl⟩ := hd
    exact hmark.symm
  have hchain : mid.chain = sl.chain := chain_eq_of_description hd
  refine ⟨sl', hsl', hd'.trans hd, hf'.trans (congrArg Slot.flash hmid'), fun hbusy => ?_⟩
  rw [← hmid']
  exact hs' fun hidle => hbusy ((hadvance.busy hbusy).state_eq.symm.trans (hchain ▸ hidle))

theorem markReaches_dirtyMark {u d : State} (hadvance : BoardsAdvance u d) (kind : SlotKind → Prop) :
    MarkReaches kind u (markedBoards dirtyMark d) := by
  have hmarked := markedBoards_advance marks_dirtyMark (fun _ _ => rfl) d
  have hdirty := markedBoards_dirty (kind := kind) marks_dirtyMark (fun _ _ => rfl) d
  exact (hadvance.trans hmarked).markReaches (hadvance.dirty_right hmarked hdirty) (markedBoards_settled dirtyMark d)

/-! ## An accepted SESSION code (R62, Table 4-3) -/

/-- The codes that change the session, with the state that each gives. -/
abbrev SessionAccepts (code : SessionCode) (old new : SessionState) : Prop :=
  (code = .preOpen ∧ old = .closed ∧ new = .preOpen)
    ∨ (code = .openMarket ∧ (old = .closed ∨ old = .preOpen) ∧ new = .openMarket)
    ∨ (code = .haltAll ∧ old = .openMarket ∧ new = .haltedAll)
    ∨ (code = .resumeAll ∧ old = .haltedAll ∧ new = .openMarket)
    ∨ (code = .close ∧ old ≠ .closed ∧ new = .closed)

/-- What the table says of such a code. -/
structure SessionTaken (code : SessionCode) (old new : SessionState) : Prop where
  after : sessionAfter code old = some new
  changes : new ≠ old
  opens : new = .preOpen ↔ code = .preOpen
  fromClosed : code = .preOpen → old = .closed
  moves : SessionMoves old new

theorem sessionTaken_of_accepts {code : SessionCode} {old new : SessionState} (h : SessionAccepts code old new) :
    SessionTaken code old new := by
  obtain ⟨rfl, rfl, rfl⟩ | ⟨rfl, rfl | rfl, rfl⟩ | ⟨rfl, rfl, rfl⟩ | ⟨rfl, rfl, rfl⟩ | ⟨rfl, hold, rfl⟩ := h
  case inr.inr.inr.inr => exact ⟨by cases old <;> rfl, Ne.symm hold, by decide, nofun, fun hc => absurd hc hold⟩
  all_goals exact ⟨rfl, by decide, by decide, by decide, by decide⟩

theorem applySession_of_taken {code : SessionCode} {new : SessionState} {u : State}
    (h : SessionTaken code u.time.session new) : applySession code u
      = if code = .preOpen then dayReset (handSession u.time.session new (withSession new u))
        else handSession u.time.session new (withSession new u) := by
  simp only [applySession, h.after, h.changes, if_false, h.opens]
  rfl

end Sys2Proof.Machine

namespace Sys2Proof.Machine

open Sys2Proof.Safety

/-! ## What an accepted SESSION code brings about, told of each block -/

/-- Out of CLOSED no night poll gap is left. -/
theorem sessionLine_gap (v : State) : (sessionLine .closed v).gap = none := by
  rw [sessionLine, if_pos rfl, select_gap]

theorem lineWithDayReset_gap (u : State) (l : TerminalLine) : (lineWithDayReset u l).gap = l.gap := by
  simp only [lineWithDayReset]
  split <;> rfl

/-- What an accepted code brings about, told of the state u before it and a state t after it. The records, the ticker
and the line are told apart for the PRE_OPEN with its day reset. -/
structure SessionChanged (code : SessionCode) (new : SessionState) (u t : State) : Prop where
  frame : t = { withSession new u with
    records := t.records, ticker := t.ticker, line := t.line, chains := t.chains, slots := t.slots }
  ticker : t.ticker = if code = .preOpen
    then tickerOfDay (sessionTicker u.time.session new (stepInterval u) t.ticker.cursor u.ticker)
    else sessionTicker u.time.session new (stepInterval u) t.ticker.cursor u.ticker
  line : t.line = if code = .preOpen then lineWithDayReset u (sessionLine u.time.session (withSession new u))
    else sessionLine u.time.session (withSession new u)
  marked : code ≠ .preOpen → t.records = u.records ∧ BoardsMarked statusMark (withSession new u) t
  turned : code = .preOpen → MarkReaches (· = .status) u t ∧ MarksStand (dayMark u) u t
    ∧ ((u.records.map Prod.fst).Nodup → BoardsMarkedInTurn (dayTurns u) (withSession new u) t)
  refresh : BoardsOnlyRefresh u t

/-- A code other than PRE_OPEN: the hand-off alone. -/
theorem sessionChanged_of_passed {code : SessionCode} {new : SessionState} {u t : State} (hcode : code ≠ .preOpen)
    (h : SessionPassed u.time.session new u t) : SessionChanged code new u t where
  frame := by
    have hframe := h.frame
    have hrecords : t.records = u.records := by rw [hframe]; rfl
    rw [hrecords]
    exact hframe
  ticker := by
    rw [if_neg hcode]
    exact eq_sessionTicker_cursor h.ticker
  line := by
    rw [if_neg hcode]
    exact h.line
  marked _ := ⟨by rw [h.frame]; rfl, h.boards⟩
  turned hpre := absurd hpre hcode
  refresh := h.refresh

/-- PRE_OPEN: the hand-off, and then the day reset. -/
theorem sessionChanged_preOpen {u : State} (hclosed : u.time.session = .closed) :
    SessionChanged .preOpen .preOpen u (dayReset (handSession .closed .preOpen (withSession .preOpen u))) := by
  have hpassed := sessionPassed_handSession (old := .closed) (new := .preOpen) (fun _ => .inl rfl) u
  have hhanded : SessionHanded u (handSession .closed .preOpen (withSession .preOpen u)) := sessionHanded_handSession u
  have hturns (hnodup : (u.records.map Prod.fst).Nodup) : BoardsMarkedInTurn (dayTurns u) (withSession .preOpen u)
      (dayReset (handSession .closed .preOpen (withSession .preOpen u))) := preOpen_turns hnodup
  rw [dayReset_eq] at hturns ⊢
  generalize handSession .closed .preOpen (withSession .preOpen u) = h at *
  have hrecords : h.records = u.records := by rw [hpassed.frame]; rfl
  have hmgmt : h.mgmt = u.mgmt := by rw [hpassed.frame]; rfl
  have hturned := dayTurned_dayCleared hrecords hmgmt hhanded.wakes.level
  generalize dayCleared h = d at *
  have hadvance := hhanded.advance.trans hturned.advance
  have hflashes := (hhanded.flashes (param u 5)).trans hturned.flashes
  simp only [Bool.false_or] at hflashes
  have hstand := marksStand_dirtyMark hadvance hflashes
  have hreach := markReaches_dirtyMark hadvance (· = .status)
  have hrefresh := boardsOnlyRefresh_trans hpassed.refresh
    (boardsOnlyRefresh_trans hturned.refresh (markedBoards_boards marks_dirtyMark d))
  have hframe := markedBoards_frame dirtyMark d
  generalize markedBoards dirtyMark d = t at *
  have hticker : t.ticker = tickerOfDay h.ticker := by rw [hframe, hturned.frame]
  have hline : t.line = lineWithDayReset u h.line := by rw [hframe, hturned.frame]
  have hcursor : t.ticker.cursor = h.ticker.cursor := by rw [hticker]; rfl
  refine ⟨?_, ?_, ?_, fun hcode => absurd rfl hcode, fun _ => ⟨hreach, hstand, hturns⟩, hrefresh⟩
  · rw [hframe, hturned.frame, hpassed.frame]
  · rw [if_pos rfl, hcursor, hclosed, ← eq_sessionTicker_cursor hpassed.ticker]
    exact hticker
  · rw [if_pos rfl, hclosed, ← hpassed.line]
    exact hline

theorem sessionChanged_applySession {code : SessionCode} {new : SessionState} {u : State}
    (h : SessionTaken code u.time.session new) : SessionChanged code new u (applySession code u) := by
  rw [applySession_of_taken h]
  by_cases hcode : code = .preOpen
  · have hclosed := h.fromClosed hcode
    obtain rfl := h.opens.mpr hcode
    subst hcode
    rw [if_pos rfl, hclosed]
    exact sessionChanged_preOpen hclosed
  · rw [if_neg hcode]
    exact sessionChanged_of_passed hcode (sessionPassed_handSession h.moves u)

/-- The blocks that no SESSION touches. -/
theorem SessionChanged.others {code : SessionCode} {new : SessionState} {u t : State} (h : SessionChanged code new u t) :
    t.time = { u.time with session := new } ∧ t.load = u.load ∧ t.phase = u.phase ∧ t.feed = u.feed
      ∧ t.directory = u.directory ∧ t.flashClock = u.flashClock ∧ t.bulletins = u.bulletins ∧ t.mgmt = u.mgmt := by
  rw [h.frame]
  exact ⟨rfl, rfl, rfl, rfl, rfl, rfl, rfl, rfl⟩

/-- The line, by the session before. -/
theorem SessionChanged.lines {code : SessionCode} {new : SessionState} {u t : State} (h : SessionChanged code new u t)
    (htaken : SessionTaken code u.time.session new) :
    let chosen := (select { withSession new u with line := { lineWithStatus u.line with gap := none } }).line
    (u.time.session = .closed → t.line.gap = none)
      ∧ (u.time.session ≠ .closed → t.line = lineWithStatus u.line)
      ∧ (u.time.session = .closed → (code = .openMarket → t.line = chosen)
        ∧ (code = .preOpen → t.line = lineWithDayReset u chosen)) := by
  intro chosen
  have hclosed : u.time.session = .closed → sessionLine u.time.session (withSession new u) = chosen :=
    fun hc => if_pos hc
  refine ⟨fun hc => ?_, fun hc => ?_, fun hc => ⟨fun hcode => ?_, fun hcode => ?_⟩⟩
  · rw [h.line, hc]
    split
    · rw [lineWithDayReset_gap, sessionLine_gap]
    · exact sessionLine_gap _
  · rw [h.line, if_neg fun hcode => hc (htaken.fromClosed hcode), sessionLine, if_neg hc]
    rfl
  · rw [h.line, hclosed hc, if_neg (by rw [hcode]; decide)]
  · rw [h.line, hclosed hc, if_pos hcode]

/-- Settles O15: the session handed on, and at a PRE_OPEN the day reset after it. -/
theorem sessionChanges : Obligations.SessionChanges := by
  unfold Obligations.SessionChanges
  intro s e rest code new u old hhead hq haccepts
  have htaken : SessionTaken code u.time.session new := sessionTaken_of_accepts haccepts
  have hchanged := sessionChanged_applySession htaken
  have happly : applyItems sessionItems applySession e.body u = applySession code u := applyItems_of_some hq u
  have hintake : (applySession code u).intake = u.intake := (applySession_keepsBlocks code u).intake
  have hexec := whenRunning_takeHead hhead (apply := applyItems sessionItems applySession) (by rw [happly]; exact hintake)
  rw [happly] at hexec
  generalize applySession code u = t at *
  obtain ⟨htime, hload, hphase, hfeed, hdirectory, hflash, hbulletins, hmgmt⟩ := hchanged.others
  have hlines := hchanged.lines htaken
  have hsession : withSession new u = { u with time := t.time } := by rw [htime]; rfl
  rw [hsession] at hlines
  obtain ⟨hgap, hstatus, hchosen⟩ := hlines
  have hmarked := hchanged.marked
  have hturned := hchanged.turned
  rw [hsession] at hmarked hturned
  refine ⟨t.setIntake rest, hexec, htime, ⟨fun hcode => ?_, fun hcode => ?_⟩, hgap, hstatus, hchosen, hmarked, hturned,
    hload, hphase, hfeed, rfl, hdirectory, hflash, hbulletins, hmgmt, hchanged.refresh⟩
  · have hticker := hchanged.ticker
    rw [if_neg hcode] at hticker
    exact hticker
  · have hticker := hchanged.ticker
    rw [if_pos hcode] at hticker
    exact hticker

end Sys2Proof.Machine

namespace Sys2Proof.Machine

open Sys2Proof.Safety

/-! ## What stands but for its causes (R21, R62, R173, R174), as one view of the state -/

/-- The phase, the session, the alerts set and the records. -/
structure StandingView where
  phase : Phase
  session : SessionState
  alerts : AlertSet
  records : Table QuoteRecord

/-- The view of a state. -/
def State.standing (s : State) : StandingView :=
  { phase := s.phase, session := s.time.session, alerts := s.mgmt.alertStatus, records := s.records }

section
variable (s : State)

@[simp] theorem standing_setFeed (x : Feed) : (s.setFeed x).standing = s.standing := rfl
@[simp] theorem standing_setIntake (x : List IntakeEntry) : (s.setIntake x).standing = s.standing := rfl
@[simp] theorem standing_setLoad (x : Option Nat) : (s.setLoad x).standing = s.standing := rfl
@[simp] theorem standing_setChain (c : ChainId) (x : Chain) : (s.setChain c x).standing = s.standing := rfl
@[simp] theorem standing_setFlashClock (x : FlashClock) : (s.setFlashClock x).standing = s.standing := rfl
@[simp] theorem standing_setSlots (x : Table Slot) : (s.setSlots x).standing = s.standing := rfl
@[simp] theorem standing_setStack (k : StackId) (x : List BulletinEntry) : (s.setStack k x).standing = s.standing := rfl
@[simp] theorem standing_setTicker (x : Ticker) : (s.setTicker x).standing = s.standing := rfl
@[simp] theorem standing_setLine (x : TerminalLine) : (s.setLine x).standing = s.standing := rfl
@[simp] theorem standing_setTerm (t : TermId) (x : Terminal) : (s.setTerm t x).standing = s.standing := rfl
@[simp] theorem standing_setDraws (x : Nat) : (s.setDraws x).standing = s.standing := rfl
@[simp] theorem standing_onTicker (f : Ticker → Ticker) : (onTicker f s).standing = s.standing := rfl
@[simp] theorem standing_setQueue (q : List TickerEntry) : (setQueue q s).standing = s.standing := rfl
@[simp] theorem standing_statusLinesPending : (statusLinesPending s).standing = s.standing := rfl
@[simp] theorem standing_countTimers : (countTimers s).standing = s.standing := rfl

/-- The clock and its phase are no part of the view. -/
theorem standing_setTime {x : TimeBase} (h : x.session = s.time.session) : (s.setTime x).standing = s.standing := by
  simp only [State.standing, setTime_phase, setTime_time, setTime_mgmt, setTime_records, h]

/-- What the responder keeps beside the alerts set is no part of the view. -/
theorem standing_setMgmt {m : Management} (h : m.alertStatus = s.mgmt.alertStatus) :
    (s.setMgmt m).standing = s.standing := by
  simp only [State.standing, setMgmt_phase, setMgmt_time, setMgmt_mgmt, setMgmt_records, h]

/-! ### The boards -/

@[simp] theorem standing_refreshStart (c : ChainId) : (refreshStart c s).standing = s.standing := by
  rw [refreshStart_frame]; rfl

@[simp] theorem standing_wakeChain (c : ChainId) : (wakeChain c s).standing = s.standing := by
  rw [wakeChain_frame]; rfl

@[simp] theorem standing_wakeChains : (wakeChains s).standing = s.standing := by
  rw [wakeChains_eq]; rfl

@[simp] theorem standing_markSlots (pick : Slot → Bool) (f : Slot → Slot) :
    (markSlots pick f s).standing = s.standing := by
  rw [markSlots_eq]; rfl

@[simp] theorem standing_markStatus : (markStatus s).standing = s.standing := standing_markSlots _ _ _
@[simp] theorem standing_markClocks : (markClocks s).standing = s.standing := standing_markSlots _ _ _
@[simp] theorem standing_markAllSlots : (markAllSlots s).standing = s.standing := standing_markSlots _ _ _
@[simp] theorem standing_markMessages (k : StackId) : (markMessages k s).standing = s.standing := standing_markSlots _ _ _

@[simp] theorem standing_handLevel : (handLevel s).standing = s.standing := by simp [handLevel]

@[simp] theorem standing_minuteChange : (minuteChange s).standing = s.standing := by simp [minuteChange]

@[simp] theorem standing_applyChainEntry (c : ChainId) (e : ChainEntry) :
    (applyChainEntry c e s).standing = s.standing := by
  simp [applyChainEntry]

@[simp] theorem standing_applyModuleEntry (c : ChainId) (k : Fin 64) (m : ModuleKind) :
    (applyModuleEntry c k m s).standing = s.standing := by
  simp [applyModuleEntry]

@[simp] theorem standing_chainResetAtRest (c : ChainId) : (chainResetAtRest c s).standing = s.standing := by
  simp only [chainResetAtRest]
  split <;> simp

@[simp] theorem standing_chainResetAt (c : ChainId) : (chainResetAt c s).standing = s.standing := by
  simp only [chainResetAt]
  split <;> simp

@[simp] theorem standing_clearLatch (named : AlertSet) (c : ChainId) :
    (clearLatch named c s).standing = s.standing := by
  simp only [clearLatch]
  split <;> simp

@[simp] theorem standing_flashExpire (n : Nat) : (flashExpire n s).standing = s.standing := by
  simp only [flashExpire]
  repeat' split
  all_goals simp

@[simp] theorem standing_resyncFormer (n : Nat) : (resyncFormer n s).standing = s.standing := by
  simp only [resyncFormer]
  split <;> simp

@[simp] theorem standing_snapshotAfterLoad (s₀ u : State) (c : ChainId) :
    (snapshotAfterLoad s₀ u c s).standing = s.standing := by
  simp only [snapshotAfterLoad, snapshotNow]
  split <;> simp

@[simp] theorem standing_keepaliveExpire (c : ChainId) : (keepaliveExpire c s).standing = s.standing := by
  simp only [keepaliveExpire]
  split <;> simp

@[simp] theorem standing_halfPeriodExpire : (halfPeriodExpire s).standing = s.standing := by
  simp only [halfPeriodExpire, flashHalfPeriod]
  split <;> simp

/-! ### The clock and the parameters -/

theorem standing_applyClock (q : TimeOfDay) : (applyClock q s).standing = s.standing := by
  have hset := standing_setTime s (x := { s.time with clock := secondsOf q, clockSet := true, phaseTicks := 0 }) rfl
  simp only [applyClock]
  split <;> simp [hset]

theorem standing_secondExpire : (secondExpire s).standing = s.standing := by
  have hset := standing_setTime s (x := { s.time with clock := advancedClock s.time.clock, phaseTicks := 0 }) rfl
  simp only [secondExpire]
  split <;> simp [hset]

@[simp] theorem standing_windowLoaded : (windowLoaded s).standing = s.standing := by
  simp only [windowLoaded]
  repeat' split
  all_goals simp

/-! ### The terminal line -/

@[simp] theorem standing_select : (select s).standing = s.standing := by
  rw [select_frame]; rfl

@[simp] theorem standing_placeResult (t : TermId) (code : ResultCode) (row : Byte) :
    (placeResult t code row s).standing = s.standing := rfl

@[simp] theorem standing_setEnabled (t : TermId) (enabled : Bool) : (setEnabled t enabled s).standing = s.standing := by
  simp only [setEnabled]
  repeat' split
  all_goals simp

@[simp] theorem standing_terminalResetAt (t : TermId) : (terminalResetAt t s).standing = s.standing := by
  simp only [terminalResetAt]
  repeat' split
  all_goals simp

@[simp] theorem standing_applyWaiting (t : TermId) : (applyWaiting t s).standing = s.standing := by
  simp only [applyWaiting]
  repeat' split
  all_goals simp

@[simp] theorem standing_freeLine : (freeLine s).standing = s.standing := by
  simp only [freeLine]
  split <;> simp

@[simp] theorem standing_frameSent : (frameSent s).standing = s.standing := by
  simp only [frameSent]
  repeat' split
  all_goals simp

@[simp] theorem standing_probeExpire (t : TermId) : (probeExpire t s).standing = s.standing := by
  simp only [probeExpire]
  split <;> simp

@[simp] theorem standing_gapExpire : (gapExpire s).standing = s.standing := by
  simp only [gapExpire]
  split <;> simp

/-! ### The return line -/

theorem standing_takeReturnHead : (takeReturnHead s).standing = s.standing := by
  simp only [takeReturnHead]
  split
  · rfl
  · exact standing_setMgmt s rfl

theorem standing_returnStart : (returnStart s).standing = s.standing := by
  simp only [returnStart]
  split
  · exact standing_takeReturnHead s
  · rfl

theorem standing_returnSent : (returnSent s).standing = s.standing := by
  simp only [returnSent]
  split
  · exact (standing_takeReturnHead _).trans (standing_setMgmt s rfl)
  · rfl

theorem standing_setMaskTo (mask : AlertSet) : (setMaskTo mask s).standing = s.standing := by
  simp only [setMaskTo]
  split
  · exact standing_setMgmt s (queueAlert_status _)
  · exact standing_setMgmt s rfl

/-- The ticker is no part of the view. -/
theorem standing_condense (p : Print) : (condense p s).2.standing = s.standing := by
  rw [condense_eq]; rfl

theorem standing_stopTicker : (stopTicker s).standing = s.standing := by
  simp only [stopTicker]
  split <;> simp

theorem standing_tickerDayReset : (tickerDayReset s).standing = s.standing := by
  simp only [tickerDayReset]
  split <;> simp

theorem standing_handSession (old new : SessionState) : (handSession old new s).standing = s.standing := by
  have hticker (v : State) : (tickerSession old new v).standing = v.standing := by
    simp only [tickerSession]
    repeat' split
    all_goals simp
  have hline (v : State) : (lineSession old v).standing = v.standing := by
    rw [lineSession_frame]; rfl
  simp only [handSession, hline, hticker, standing_markStatus]

theorem standing_restartStep : (restartStep s).standing = s.standing := by
  simp only [restartStep]
  split <;> simp

end

end Sys2Proof.Machine

namespace Sys2Proof.Machine

open Sys2Proof.Safety

/-! ## What an operation leaves standing -/

/-- What stands but for its causes: the phase (R174), the session (R62), the alerts set (R173) and the stale marks (R21). -/
inductive Standing where
  | phase
  | session
  | alerts
  | stale

/-- From one state to another, those of the four that are `kept` stand. An alert may be set, and a record may be
gone; one that is there was there before, and is stale still if it was. -/
structure Stands (kept : Standing → Prop) (s t : State) : Prop where
  phase : kept .phase → t.phase = s.phase
  session : kept .session → t.time.session = s.time.session
  alerts : kept .alerts → ∀ a, alertIn a s.mgmt.alertStatus = true → alertIn a t.mgmt.alertStatus = true
  stale : kept .stale → ∀ n r', tableGet t.records n = some r' →
    ∃ r, tableGet s.records n = some r ∧ (r.stale = true → r'.stale = true)

namespace Stands

variable {kept : Standing → Prop} {s t u : State}

/-- Operations that leave the view as it is. -/
theorem of_view (h : t.standing = s.standing) : Stands kept s t := by
  simp only [State.standing, StandingView.mk.injEq] at h
  obtain ⟨hphase, hsession, halerts, hrecords⟩ := h
  exact ⟨fun _ => hphase, fun _ => hsession, fun _ a ha => halerts ▸ ha,
    fun _ n r' hr' => ⟨r', hrecords ▸ hr', id⟩⟩

theorem refl (s : State) : Stands kept s s := of_view rfl

theorem trans (h : Stands kept s t) (h' : Stands kept t u) : Stands kept s u where
  phase hk := (h'.phase hk).trans (h.phase hk)
  session hk := (h'.session hk).trans (h.session hk)
  alerts hk a ha := h'.alerts hk a (h.alerts hk a ha)
  stale hk n r' hr' := by
    obtain ⟨r₁, hr₁, hstale'⟩ := h'.stale hk n r' hr'
    obtain ⟨r, hr, hstale⟩ := h.stale hk n r₁ hr₁
    exact ⟨r, hr, hstale' ∘ hstale⟩

/-- An operation, and then some that leave the view as it is. -/
theorem congr_right (h : Stands kept s t) (he : u.standing = t.standing) : Stands kept s u := h.trans (of_view he)

/-- Some that leave the view as it is, and then an operation. -/
theorem congr_left (he : t.standing = s.standing) (h : Stands kept t u) : Stands kept s u := (of_view he).trans h

/-- Operations of states taken one after the other from a list. -/
theorem foldl {α : Type} {f : State → α → State} (h : ∀ s x, Stands kept s (f s x)) :
    ∀ (l : List α) (s : State), Stands kept s (l.foldl f s)
  | [], s => refl s
  | x :: rest, s => (h s x).trans (foldl h rest (f s x))

/-- A change of the records alone that leaves the stale marks standing. -/
theorem of_records {records : Table QuoteRecord} (ht : t.standing = { s.standing with records := records })
    (h : kept .stale → ∀ n r', tableGet records n = some r' →
      ∃ r, tableGet s.records n = some r ∧ (r.stale = true → r'.stale = true)) : Stands kept s t := by
  simp only [State.standing, StandingView.mk.injEq] at ht
  obtain ⟨hphase, hsession, halerts, hrecords⟩ := ht
  exact ⟨fun _ => hphase, fun _ => hsession, fun _ a ha => halerts ▸ ha, fun hk n r' hr' => h hk n r' (hrecords ▸ hr')⟩

/-- One DEFINED record replaced by another that is stale if it was. -/
theorem of_tableSet {n : Nat} {r r' : QuoteRecord} (hget : tableGet s.records n = some r)
    (hstale : kept .stale → r.stale = true → r'.stale = true)
    (ht : t.standing = { s.standing with records := tableSet s.records n r' }) : Stands kept s t := by
  refine of_records ht fun hk m x hx => ?_
  rw [tableGet_tableSet] at hx
  split at hx
  · next hm =>
    obtain rfl := Option.some.inj hx
    exact ⟨r, hm ▸ hget, hstale hk⟩
  · exact ⟨x, hx, id⟩

/-- Every record marked stale. -/
theorem of_staled {records : Table QuoteRecord} (ht : t.standing = { s.standing with records := records })
    (h : ∀ n, tableGet records n = (tableGet s.records n).map (fun r => { r with stale := true })) :
    Stands kept s t := by
  refine of_records ht fun _ n r' hr' => ?_
  rw [h] at hr'
  obtain ⟨r, hr, rfl⟩ := Option.map_eq_some_iff.mp hr'
  exact ⟨r, hr, fun _ => rfl⟩

end Stands

section
variable {kept : Standing → Prop}

/-! ### Alerts and replies (R172, R173) -/

/-- A change of the responder that takes no alert out of the status. -/
theorem stands_setMgmt {s : State} {m : Management}
    (h : ∀ a, alertIn a s.mgmt.alertStatus = true → alertIn a m.alertStatus = true) : Stands kept s (s.setMgmt m) :=
  ⟨fun _ => rfl, fun _ => rfl, fun _ => h, fun _ _ r' hr' => ⟨r', hr', id⟩⟩

theorem alertIn_alertSet_of_in {a b : Alert} {m : Management} (h : alertIn b m.alertStatus = true) :
    alertIn b (alertSet a m).alertStatus = true := by
  rw [alertIn_alertSet, h, Bool.or_true]

theorem raiseAlert_stands (a : Alert) (s : State) : Stands kept s (raiseAlert a s) :=
  stands_setMgmt fun _ => alertIn_alertSet_of_in

theorem replyTo_stands (body answer : List Byte) (s : State) : Stands kept s (replyTo body answer s) := by
  simp only [replyTo, queueReply]
  split
  · exact .of_view (standing_setMgmt s rfl)
  · exact raiseAlert_stands _ s

theorem loadEnds_stands (body answer : List Byte) (s : State) : Stands kept s (loadEnds body answer s) :=
  (replyTo_stands body answer s).congr_right (by simp [loadEnds])

/-! ### Records (chapter 1) -/

theorem standing_updateRecord (n : Nat) (r : QuoteRecord) (names : NameSet) (s : State) :
    (updateRecord n r names s).standing = { s.standing with records := tableSet s.records n r } := by
  rw [updateRecord_frame]; rfl

theorem updateRecord_stands {n : Nat} {r r' : QuoteRecord} {names : NameSet} {s : State}
    (hget : tableGet s.records n = some r) (hstale : kept .stale → r.stale = true → r'.stale = true) :
    Stands kept s (updateRecord n r' names s) :=
  .of_tableSet hget hstale (standing_updateRecord n r' names s)

theorem markAllStale_stands (s : State) : Stands kept s (markAllStale s) := by
  refine .of_staled (records := (markAllStale s).records) ?_ (tableGet_markAllStale s)
  rw [markAllStale_frame]; rfl

theorem afterGap_stands (e : IntakeEntry) (s : State) : Stands kept s (afterGap e s) := by
  simp only [afterGap]
  split
  · exact markAllStale_stands s
  · exact .refl s

theorem changeWatch_stands (f : Nat → Nat) (n : Nat) (s : State) : Stands kept s (changeWatch f n s) := by
  simp only [changeWatch]
  split
  · next r hr => exact .of_tableSet (r' := { r with watch := f r.watch }) hr (fun _ => id) rfl
  · exact .refl s

theorem setTapeFields_stands (p : Print) (s : State) : Stands kept s (setTapeFields p s) := by
  simp only [setTapeFields]
  split
  · exact .refl s
  · next r hr =>
    exact .of_tableSet
      (r' := { r with tapeWhole := some (tapeWholeOf r.denom p.price), tapeEpoch := s.ticker.epoch })
      (tableGet_of_matchingRecord hr) (fun _ => id) rfl

/-! ### The ticker (chapter 7) -/

theorem countOmitted_stands (n : Nat) (s : State) : Stands kept s (countOmitted n s) := by
  simp only [countOmitted]
  split
  · exact .of_view (standing_onTicker s _)
  · exact .congr_left (standing_onTicker s _) (raiseAlert_stands _ _)

theorem admitToFull_stands (p : Print) (s : State) : Stands kept s (admitToFull p s) := by
  simp only [admitToFull]
  split
  · exact .of_view (standing_onTicker s _)
  · split
    · exact countOmitted_stands 1 s
    · split
      · exact .congr_left (standing_setQueue s _) (countOmitted_stands 1 _)
      · exact countOmitted_stands 1 s

theorem offerPrint_stands (p : Print) (s : State) : Stands kept s (offerPrint p s) := by
  simp only [offerPrint]
  split
  · exact .refl s
  · split
    · exact .of_view (by simp)
    · exact .congr_left (standing_onTicker s _) (admitToFull_stands p _)

theorem offerText_stands (atHead : Bool) (text : List Byte) (s : State) : Stands kept s (offerText atHead text s) := by
  simp only [offerText]
  split
  · exact .refl s
  · split
    · exact .of_view (standing_setQueue s _)
    · split
      · exact .congr_left (standing_setQueue s _) (countOmitted_stands 1 _)
      · exact .refl s

theorem updateLevel_stands (lateness : Nat) (s : State) : Stands kept s (updateLevel lateness s) := by
  by_cases h : nextLevel s lateness = s.ticker.level
  · rw [updateLevel_of_stay h]
    exact .refl s
  · have hset : Stands kept s (levelSet lateness s) := .congr_left (standing_onTicker s _) (raiseAlert_stands _ _)
    rw [updateLevel_of_change h]
    exact (hset.congr_right (standing_handLevel _)).trans (offerText_stands _ _ _)

theorem printComposed_stands (p : Print) (s : State) : Stands kept s (printComposed p s) := by
  have hfields : Stands kept s (setTapeFields (condense p s).1 (condense p s).2) :=
    .congr_left (standing_condense s p) (setTapeFields_stands _ _)
  simp only [printComposed, beginText]
  exact (hfields.congr_right (standing_onTicker _ _)).congr_right (standing_onTicker _ _)

theorem compose_stands (fuel : Nat) : ∀ s : State, Stands kept s (compose fuel s).2 := by
  induction fuel with
  | zero => exact .refl
  | succ k ih =>
    intro s
    simp only [compose]
    split
    · exact .refl s
    · exact .of_view rfl
    · next p rest _ =>
      have hlevel : Stands kept s (updateLevel (latenessOf s.time p.time) (setQueue rest s)) :=
        .congr_left (standing_setQueue s rest) (updateLevel_stands _ _)
      split
      · exact (hlevel.trans (countOmitted_stands 1 _)).trans (ih _)
      · exact hlevel.trans (printComposed_stands p _)

theorem compositionStep_stands (s : State) : Stands kept s (compositionStep s) := by
  have h := compose_stands (kept := kept) (s.ticker.queue.length + 1) s
  simp only [compositionStep]
  split
  · next t ht => rwa [ht] at h
  · next t ht =>
    rw [ht] at h
    split
    · exact h.congr_right ((standing_stopTicker _).trans (standing_onTicker t _))
    · exact h.congr_right (standing_onTicker t _)

theorem stepExpire_stands (s : State) : Stands kept s (stepExpire s) := by
  have hemit : Stands kept s (emitStep s) := by
    simp only [emitStep]
    split
    · exact .of_view (standing_setTicker s _)
    · split
      · exact .of_view (standing_setTicker s _)
      · exact compositionStep_stands s
  simp only [stepExpire]
  split
  · exact hemit.congr_right (standing_restartStep _)
  · exact .refl s

theorem tickerFlushAt_stands (s : State) : Stands kept s (tickerFlushAt s) :=
  .congr_left (standing_setQueue s []) (countOmitted_stands _ _)

/-! ### The boards (chapter 5) -/

theorem shiftComplete_stands (c : ChainId) (returned : List Byte) (s : State) :
    Stands kept s (shiftComplete c returned s) := by
  simp only [shiftComplete]
  split
  · split
    · exact .congr_left (standing_setChain s c _) (raiseAlert_stands _ _)
    · exact .of_view (standing_setChain s c _)
  · exact .refl s

theorem settleExpire_stands (c : ChainId) (s : State) : Stands kept s (settleExpire c s) := by
  simp only [settleExpire, settleComplete]
  split
  · split
    · exact .of_view (standing_setChain s c _)
    · split
      · exact .congr_left (standing_setChain s c _) (raiseAlert_stands _ _)
      · exact .of_view (by simp)
  · exact .refl s

theorem senseChange_stands (c : ChainId) (present : Bool) (s : State) : Stands kept s (senseChange c present s) := by
  have hraised := raiseAlert_stands (kept := kept) (.chainSense c) s
  simp only [senseChange]
  split
  · exact hraised.congr_right (standing_setChain _ c _)
  · split
    · exact hraised.congr_right (by simp)
    · exact hraised.congr_right (standing_setChain _ c _)

/-! ### Bulletin stacks (chapter 6) -/

theorem offerUncovered_stands (stack : List BulletinEntry) (s : State) : Stands kept s (offerUncovered stack s) := by
  simp only [offerUncovered]
  split
  · exact .refl s
  · split
    · exact offerText_stands _ _ s
    · exact .refl s

theorem applyPush_stands (b : BulletinItems) (s : State) : Stands kept s (applyPush b s) := by
  simp only [applyPush]
  split
  · exact .congr_left (by simp) (offerText_stands _ _ _)
  · exact .of_view (by simp)

theorem applyPop_stands (b : BulletinItems) (s : State) : Stands kept s (applyPop b s) := by
  simp only [applyPop]
  split
  · exact .refl s
  · exact .congr_left (by simp) (offerUncovered_stands _ _)

theorem applyClear_stands (b : BulletinItems) (s : State) : Stands kept s (applyClear b s) := by
  simp only [applyClear]
  split
  · exact .refl s
  · exact .of_view (by simp)

theorem bulletinExpire_stands (k : StackId) (place : Nat) (s : State) : Stands kept s (bulletinExpire k place s) := by
  simp only [bulletinExpire]
  split
  · exact .refl s
  · split
    · split
      · exact .congr_left (by simp) (offerUncovered_stands _ _)
      · exact .of_view (standing_setStack s k _)
    · exact .refl s

/-! ### The feed line (chapter 3) -/

theorem handFeedState_stands (new : FeedState) (s : State) : Stands kept s (handFeedState new s) := by
  simp only [handFeedState]
  split
  · exact .congr_left (by simp) (offerText_stands _ _ _)
  · exact .of_view (by simp)

theorem silenceExpire_stands (s : State) : Stands kept s (silenceExpire s) := by
  simp only [silenceExpire]
  split
  · have hraised : Stands kept s (raiseAlert .feedLost (s.setFeed { s.feed with feedState := .lost, silence := none })) :=
      .congr_left (standing_setFeed s _) (raiseAlert_stands _ _)
    exact (hraised.trans (markAllStale_stands _)).trans (handFeedState_stands _ _)
  · exact .refl s

theorem arrivalSeen_stands (s : State) : Stands kept s (arrivalSeen s) := by
  simp only [arrivalSeen, setFeedState]
  split
  · exact .of_view (standing_setFeed s _)
  · exact .congr_left (by simp) (handFeedState_stands _ _)

theorem sequenceChecked_stands {body : List Byte} {s t : State} (h : sequenceChecked body s = some t) :
    Stands kept s t := by
  simp only [sequenceChecked] at h
  split at h
  · split at h
    · obtain rfl := Option.some.inj h
      exact .of_view (standing_setFeed s _)
    · obtain rfl := Option.some.inj h
      exact .congr_left (by simp) (raiseAlert_stands _ _)
    · cases h
  · obtain rfl := Option.some.inj h
    exact .refl _

theorem arrive_stands (body : List Byte) (s : State) : Stands kept s (arrive body s) := by
  have hseen := arrivalSeen_stands (kept := kept) s
  simp only [arrive]
  split
  · exact hseen
  · next t ht =>
    have hchecked := hseen.trans (sequenceChecked_stands ht)
    split
    · refine hchecked.congr_right ?_
      simp only [offerIntake]
      split <;> simp
    · exact hchecked

theorem settleReception_stands (r : Receiver × RxEvent) (s : State) : Stands kept s (settleReception r s) := by
  simp only [settleReception]
  split
  · exact .of_view (standing_setFeed s _)
  · exact .congr_left (standing_setFeed s _) (arrive_stands _ _)

theorem feedBits_stands (bits : List Bool) (s : State) : Stands kept s (feedBits bits s) :=
  .foldl (fun s _ => settleReception_stands _ s) bits s

theorem takeLastByte_stands (low : Byte) (s : State) : Stands kept s (takeLastByte low s) := by
  simp only [takeLastByte]
  split
  · exact settleReception_stands _ s
  · exact feedBits_stands _ s

/-! ### Market data (chapter 1) -/

theorem stale_tradedRecord (q : TradeItems) (r : QuoteRecord) : (tradedRecord q r).stale = r.stale := by
  simp only [tradedRecord, tradeLast, tradeAny]
  split <;> rfl

theorem applyTrade_stands (q : TradeItems) (s : State) : Stands kept s (applyTrade q s) := by
  simp only [applyTrade]
  split
  · exact .refl s
  · split
    · exact .refl s
    · next r hr =>
      have hupdated (names : NameSet) : Stands kept s (updateRecord _ (tradedRecord q r) names s) :=
        updateRecord_stands hr fun _ => (stale_tradedRecord q r).trans
      split
      · exact (hupdated _).trans (offerPrint_stands _ _)
      · exact hupdated _

theorem applyQuote_stands (q : QuoteItems) (s : State) : Stands kept s (applyQuote q s) := by
  simp only [applyQuote]
  split
  · exact .refl s
  · split
    · exact .refl s
    · next r hr => exact updateRecord_stands hr fun _ => id

theorem applySymbolState_stands (q : SymbolStateItems) (s : State) : Stands kept s (applySymbolState q s) := by
  simp only [applySymbolState]
  split
  · exact .refl s
  · split
    · exact .refl s
    · next r hr =>
      have hupdated : Stands kept s (updateRecord _ { r with state := stateAfter q.halt r } nameState s) :=
        updateRecord_stands hr fun _ => id
      split
      · exact .refl s
      · split
        · exact hupdated
        · exact hupdated.trans (offerText_stands _ _ _)

/-- A RECAP may clear a stale mark (R18), and does no more. -/
theorem applyRecap_stands (hstale : ¬ kept .stale) (q : RecapItems) (s : State) : Stands kept s (applyRecap q s) := by
  simp only [applyRecap]
  split
  · exact .refl s
  · split
    · exact .refl s
    · next r hr => exact updateRecord_stands hr fun hk => absurd hk hstale

/-! ### The session (chapter 4) -/

/-- A SESSION may change the session and clear stale marks (R22, R62), and does no more. -/
theorem applySession_stands (hsession : ¬ kept .session) (hstale : ¬ kept .stale) (code : SessionCode) (s : State) :
    Stands kept s (applySession code s) := by
  have hset (new : SessionState) : Stands kept s (s.setTime { s.time with session := new }) :=
    ⟨fun _ => rfl, fun hk => absurd hk hsession, fun _ _ => id, fun _ _ r' hr' => ⟨r', hr', id⟩⟩
  have hreset (v : State) : Stands kept v (dayReset v) := by
    have hrecords : Stands kept v (recordsDayReset v) := by
      refine .of_records (records := (recordsDayReset v).records) ?_ fun hk => absurd hk hstale
      rw [recordsDayReset_frame]; rfl
    exact hrecords.congr_right (by simp [dayReset, standing_tickerDayReset])
  simp only [applySession]
  split
  · exact .refl s
  · next new _ =>
    have hhanded := (hset new).congr_right (standing_handSession _ s.time.session new)
    split
    · exact .refl s
    · split
      · exact hhanded.trans (hreset _)
      · exact hhanded

/-! ### Table entries (R167) -/

theorem applyParamEntry_stands {i : Nat} {x : List Byte} {s t : State} (h : applyParamEntry i x s = some t) :
    Stands kept s t := by
  simp only [applyParamEntry] at h
  split at h
  · cases h
  · next v _ =>
    have hset : Stands kept s (setParam i v s) := .of_view (standing_setMgmt s rfl)
    obtain rfl := Option.some.inj h
    split
    · exact hset.congr_right (standing_windowLoaded _)
    · exact hset

/-- A SYMBOL entry may empty or redefine a record (R8 to R10), and does no more. -/
theorem applySymbolEntry_stands (hstale : ¬ kept .stale) {n : Nat} {x : List Byte} {s t : State}
    (h : applySymbolEntry n x s = some t) : Stands kept s t := by
  have loaded {u v : State} (hv : SymbolLoaded n u v) : Stands kept u v := by
    obtain ⟨hphase, -, htime, -⟩ := hv.keeps
    exact ⟨fun _ => hphase, fun _ => congrArg TimeBase.session htime, fun _ a ha => hv.mgmt ▸ ha,
      fun hk => absurd hk hstale⟩
  rcases applySymbolEntry_cases h with rfl | ⟨q, -, -, ⟨-, -, rfl⟩ | ⟨r, -, ⟨-, rfl⟩ | rfl | ⟨-, -, rfl⟩⟩⟩
  · exact .refl t
  · exact loaded (symbolLoaded_defineRecord n q s)
  · exact loaded (symbolLoaded_deleteRecord n r.symbol s)
  · exact loaded (symbolLoaded_updateRecord n _ _ s)
  · exact loaded (symbolLoaded_renameRecord n r.symbol q s)

theorem applySlotTable_stands {s₀ : State} {n : Nat} {x : List Byte} {s t : State}
    (h : applySlotTable s₀ n x s = some t) : Stands kept s t := by
  obtain ⟨v, hv, rfl⟩ := Option.map_eq_some_iff.mp h
  refine .of_view ?_
  simp only [standing_snapshotAfterLoad]
  simp only [applySlotEntry] at hv
  split at hv
  · cases hv
  · obtain rfl := Option.some.inj hv
    simp
  · split at hv
    · cases hv
    · obtain rfl := Option.some.inj hv
      simp

theorem applyChainTable_stands {n : Nat} {x : List Byte} {s t : State} (h : applyChainTable n x s = some t) :
    Stands kept s t := by
  simp only [applyChainTable] at h
  split at h
  · obtain rfl := Option.some.inj h
    exact .of_view (standing_applyChainEntry s _ _)
  · cases h

theorem applyModuleTable_stands {n : Nat} {x : List Byte} {s t : State} (h : applyModuleTable n x s = some t) :
    Stands kept s t := by
  simp only [applyModuleTable] at h
  split at h
  · obtain rfl := Option.some.inj h
    exact .of_view (standing_applyModuleEntry s _ _ _)
  · cases h

theorem changeRow_stands (x : TermId) (i : Fin 16) (item : Option Nat) (s : State) :
    Stands kept s (changeRow x i item s) := by
  have lowered (record : Option Nat) (v : State) : Stands kept v (lowerWatch record v) := by
    cases record with
    | none => exact .refl v
    | some n => exact changeWatch_stands (· - 1) n v
  have raised (record : Option Nat) (v : State) : Stands kept v (raiseWatch record v) := by
    cases record with
    | none => exact .refl v
    | some n => exact changeWatch_stands (· + 1) n v
  simp only [changeRow]
  exact (Stands.congr_left (standing_setTerm s x _) (lowered _ _)).trans (raised _ _)

theorem applyTerminalTable_stands {n : Nat} {x : List Byte} {s t : State} (h : applyTerminalTable n x s = some t) :
    Stands kept s t := by
  simp only [applyTerminalTable] at h
  split at h
  · simp only [applyTerminalEntry] at h
    split at h
    · cases h
    · split at h
      · obtain rfl := Option.some.inj h
        refine Stands.congr_right ?_ (standing_setEnabled _ _ _)
        refine .congr_left (standing_setTerm s _ _) (.foldl (fun v item => ?_) _ _)
        simp only [applyTerminalEntry.loadRow]
        split
        · exact .refl v
        · exact changeRow_stands _ _ _ v
      · cases h
  · cases h

/-! ### The terminal line (chapters 8 and 9) -/

theorem applyRequest_stands (x : TermId) (request : Option Request) (s : State) :
    Stands kept s (applyRequest x request s) := by
  have placed (code : ResultCode) (row : Byte) : Stands kept s (placeResult x code row s) :=
    .of_view (standing_placeResult s x code row)
  have changed (i : Fin 16) (item : Option Nat) (code : ResultCode) (row : Byte) :
      Stands kept s (placeResult x code row (changeRow x i item s)) :=
    (changeRow_stands x i item s).congr_right (standing_placeResult _ x code row)
  match request with
  | none => exact .refl s
  | some (.add row symbol) =>
    simp only [applyRequest, applyAdd]
    repeat' split
    case h_2 => exact changed _ _ _ _
    all_goals exact placed _ _
  | some (.drop row) =>
    simp only [applyRequest, applyDrop]
    repeat' split
    case h_2.isFalse => exact changed _ _ _ _
    all_goals exact placed _ _

theorem miss_stands (x : TermId) (after : TermState) (s : State) : Stands kept s (miss x after s) := by
  simp only [miss, loseTerminal]
  split
  · exact .congr_left (by simp) (raiseAlert_stands .terminalLost _)
  · exact .of_view (standing_setTerm s x _)

/-- What the outcome of a transaction comes to: a miss, or a change of the line and of rows. -/
theorem applyOutcome_stands (kind : PrimaryKind) (x : TermId) (o : LineOutcome) (s : State) :
    Stands kept s (applyOutcome kind x o s) := by
  have requested (term : Terminal) (request : Option Request) :
      Stands kept s (applyRequest x request (s.setTerm x term)) :=
    .congr_left (standing_setTerm s x term) (applyRequest_stands x request _)
  have set (term : Terminal) : Stands kept s (s.setTerm x term) := .of_view (standing_setTerm s x term)
  cases kind with
  | activate =>
    simp only [applyOutcome, activateOutcome]
    split
    all_goals exact set _
  | screenInit =>
    simp only [applyOutcome, screenInitOutcome]
    split
    · split
      · exact requested _ _
      · exact miss_stands _ _ _
    · exact .refl s
    all_goals exact miss_stands _ _ _
  | poll =>
    simp only [applyOutcome, pollOutcome]
    split
    · exact requested _ _
    · exact .refl s
    all_goals exact miss_stands _ _ _
  | update =>
    simp only [applyOutcome, updateOutcome]
    split
    · split
      · exact requested _ _
      · exact set _
    · exact set _
    all_goals exact miss_stands _ _ _
  | enquiry =>
    simp only [applyOutcome, enquiryOutcome]
    split
    · split
      all_goals exact set _
    all_goals exact miss_stands _ _ _

theorem endTransaction_stands (o : LineOutcome) (s : State) : Stands kept s (endTransaction o s) := by
  simp only [endTransaction]
  split
  · exact .refl s
  · next tx _ => exact (applyOutcome_stands tx.kind tx.terminal o s).congr_right (by simp)

theorem takeCharacter_stands (b : Byte) (s : State) : Stands kept s (takeCharacter b s) := by
  simp only [takeCharacter]
  split
  · exact .refl s
  · split
    · exact .refl s
    · split
      · exact .refl s
      · split
        · exact .congr_left (standing_setLine s _) (endTransaction_stands _ _)
        · split
          · exact .congr_left (standing_setLine s _) (endTransaction_stands _ _)
          · exact .of_view (standing_setLine s _)

theorem responseExpire_stands (s : State) : Stands kept s (responseExpire s) := by
  simp only [responseExpire]
  split
  · split
    · exact endTransaction_stands _ s
    · exact .refl s
  · exact .refl s

/-! ### READ, REPORT and CONTROL (chapter 10) -/

theorem applyRead_stands (body : List Byte) (s : State) : Stands kept s (applyRead body s) := by
  simp only [applyRead]
  split
  · exact replyTo_stands _ _ s
  · split
    · exact replyTo_stands _ _ s
    · split
      · exact replyTo_stands _ _ s
      · exact .congr_left (standing_setDraws s _) (replyTo_stands _ _ _)

theorem applyReport_stands (body : List Byte) (s : State) : Stands kept s (applyReport body s) := by
  simp only [applyReport]
  split
  · exact replyTo_stands _ _ s
  · exact .congr_left (standing_setDraws s _) (replyTo_stands _ _ _)

theorem applyControl_stands {length : Nat} {act : List Byte → State → Option State}
    (h : ∀ p s t, act p s = some t → Stands kept s t) (body : List Byte) (s : State) :
    Stands kept s (applyControl length act body s) := by
  simp only [applyControl]
  split
  · exact replyTo_stands _ _ s
  · split
    · next t ht => exact (h _ s t ht).trans (replyTo_stands _ _ t)
    · exact replyTo_stands _ _ s

/-- CLEAR ALERTS may take alerts out of the status (R173), and does no more. -/
theorem clearAlertsNamed_stands (halerts : ¬ kept .alerts) (named : AlertSet) (s : State) :
    Stands kept s (clearAlertsNamed named s) := by
  have hcleared : Stands kept s (s.setMgmt { s.mgmt with alertStatus := s.mgmt.alertStatus &&& ~~~named }) :=
    ⟨fun _ => rfl, fun _ => rfl, fun hk => absurd hk halerts, fun _ _ r' hr' => ⟨r', hr', id⟩⟩
  exact hcleared.congr_right (by simp [clearAlertsNamed])

end

end Sys2Proof.Machine

namespace Sys2Proof.Machine

open Sys2Proof.Safety

section
variable {kept : Standing → Prop}

/-! ## What the head of the intake queue and a reset leave standing (R50, R174, R175) -/

theorem takeHead_stands {step : FrameStep} {apply : List Byte → State → State}
    (h : ∀ body s, Stands kept s (apply body s)) (s : State) : Stands kept s (takeHead step apply s) := by
  simp only [takeHead]
  split
  · exact .refl s
  · next e _ _ =>
    split
    · exact ((afterGap_stands e s).trans (h e.body (afterGap e s))).congr_right (standing_setIntake _ _)
    · exact .refl s

theorem applyItems_stands {α : Type} {items : List Byte → Option α} {apply : α → State → State}
    (h : ∀ x s, Stands kept s (apply x s)) (body : List Byte) (s : State) :
    Stands kept s (applyItems items apply body s) := by
  simp only [applyItems]
  split
  · exact h _ s
  · exact .refl s

/-- A step of a LOAD: the gap-before marking, the entry, and the REPLY or the place kept. -/
theorem takeLoad_stands {step : FrameStep} {size entrySize : Nat} {apply : Nat → List Byte → State → Option State}
    (h : ∀ n x s t, apply n x s = some t → Stands kept s t) (s : State) :
    Stands kept s (takeLoad step size entrySize apply s) := by
  obtain hsame | ⟨e, rest, u, v, -, -, hu, hv, hend⟩ := takeLoad_cases step size entrySize apply s
  · rw [hsame]
    exact .refl s
  · have hsu : Stands kept s u := by
      rw [hu]
      split
      · exact afterGap_stands e s
      · exact .refl s
    have hsv : Stands kept s v := by
      obtain rfl | ⟨n, x, hx⟩ := hv
      · exact hsu
      · exact hsu.trans (h n x u v hx)
    obtain ⟨answer, ht⟩ | ⟨done, ht, -⟩ := hend
    · rw [ht]
      exact hsv.trans (loadEnds_stands _ _ v)
    · rw [ht]
      exact hsv.congr_right (standing_setLoad v _)

/-- A cold reset leaves no record, and so no stale mark to clear. -/
theorem coldState_stands (hphase : ¬ kept .phase) (hsession : ¬ kept .session) (halerts : ¬ kept .alerts)
    (cause : ResetCause) (phase : Phase) (station : BitVec 6) (sense : Vector Bool 4) (s : State) :
    Stands kept s (coldState cause phase station sense s) :=
  ⟨fun hk => absurd hk hphase, fun hk => absurd hk hsession, fun hk => absurd hk halerts, fun _ _ _ => nofun⟩

/-- The reset pin taken leaves the session, the alerts and the records. -/
theorem pinTaken_stands (hphase : ¬ kept .phase) (s : State) : Stands kept s (pinTaken s) :=
  ⟨fun hk => absurd hk hphase, fun _ => rfl, fun _ _ => id, fun _ _ r' hr' => ⟨r', hr', id⟩⟩

/-- A warm reset marks every record stale (R5), and leaves the session. -/
theorem applyWarm_stands (halerts : ¬ kept .alerts) (straps : BitVec 6) (body : List Byte) (s : State) :
    Stands kept s (applyWarm straps body s) := by
  have hwarm : Stands kept s (warmState straps s) := by
    refine ⟨fun _ => rfl, fun _ => rfl, fun hk => absurd hk halerts, fun _ n r' hr' => ?_⟩
    obtain ⟨r, hr, rfl⟩ := Option.map_eq_some_iff.mp ((tableGet_warmRecords s.records n).symm.trans hr')
    exact ⟨r, hr, fun _ => rfl⟩
  simp only [applyWarm]
  exact ((hwarm.congr_right (by simp)).trans (replyTo_stands body _ _)).trans (raiseAlert_stands _ _)

theorem whenRunning_stands {f : State → State} (h : ∀ s, Stands kept s (f s)) {s t : State}
    (ht : whenRunning f s = .next t) : Stands kept s t := by
  obtain rfl := Host.Outcome.next.inj ht
  split
  · exact h s
  · exact .refl s

theorem ite_stands {p : Prop} [Decidable p] {s t u v : State}
    (ht : Host.Outcome.next (if p then u else v) = (.next t : Answer)) (hu : Stands kept s u) (hv : Stands kept s v) :
    Stands kept s t := by
  obtain rfl := Host.Outcome.next.inj ht
  split
  · exact hu
  · exact hv

end

/-! ## What each command may do to what stands -/

/-- The commands that bring the part to its cold state (R174). -/
def Begins (c : Instr) : Prop :=
  c = .resetCold ∨ c = .powerOn ∨ c = .resetPinRelease ∨ ∃ straps sense, c = .initEnd straps sense

/-- The causes: the commands that may change the phase, that may change the session, that may take an alert out of the
status, and that may clear a stale mark. -/
def MayChange : Standing → Instr → Prop
  | .phase, c => Begins c ∨ c = .resetPinAssert
  | .session, c => c = .session ∨ Begins c
  | .alerts, c => c = .clearAlerts ∨ Begins c ∨ ∃ straps, c = .resetWarm straps
  | .stale, c => c = .recap ∨ c = .session ∨ c = .loadSymbol

/-- What a command is no cause of stands. -/
theorem exec_stands (c : Instr) {s t : State} (h : exec c s = .next t) :
    Stands (fun what => ¬ MayChange what c) s t := by
  cases c
  case feedFrameReceived low => exact whenRunning_stands (takeLastByte_stands low) h
  case feedByteReceived unit => exact whenRunning_stands (feedBits_stands _) h
  case silenceTimerExpiry => exact whenRunning_stands silenceExpire_stands h
  case trade => exact whenRunning_stands (takeHead_stands (applyItems_stands applyTrade_stands)) h
  case quote => exact whenRunning_stands (takeHead_stands (applyItems_stands applyQuote_stands)) h
  case symbolState => exact whenRunning_stands (takeHead_stands (applyItems_stands applySymbolState_stands)) h
  case recap =>
    exact whenRunning_stands (takeHead_stands (applyItems_stands (applyRecap_stands fun hn => hn (.inl rfl)))) h
  case clock =>
    exact whenRunning_stands (takeHead_stands (applyItems_stands fun q s => .of_view (standing_applyClock s q))) h
  case session =>
    exact whenRunning_stands (takeHead_stands (applyItems_stands
      (applySession_stands (fun hn => hn (.inl rfl)) fun hn => hn (.inr (.inl rfl))))) h
  case bulletinPush => exact whenRunning_stands (takeHead_stands (applyItems_stands applyPush_stands)) h
  case bulletinPop => exact whenRunning_stands (takeHead_stands (applyItems_stands applyPop_stands)) h
  case bulletinClear => exact whenRunning_stands (takeHead_stands (applyItems_stands applyClear_stands)) h
  case loadParam => exact whenRunning_stands (takeLoad_stands fun _ _ _ _ hx => applyParamEntry_stands hx) h
  case loadSymbol =>
    exact whenRunning_stands
      (takeLoad_stands fun _ _ _ _ hx => applySymbolEntry_stands (fun hn => hn (.inr (.inr rfl))) hx) h
  case loadSlot => exact whenRunning_stands (takeLoad_stands fun _ _ _ _ hx => applySlotTable_stands hx) h
  case loadChain => exact whenRunning_stands (takeLoad_stands fun _ _ _ _ hx => applyChainTable_stands hx) h
  case loadModule => exact whenRunning_stands (takeLoad_stands fun _ _ _ _ hx => applyModuleTable_stands hx) h
  case loadTerminal => exact whenRunning_stands (takeLoad_stands fun _ _ _ _ hx => applyTerminalTable_stands hx) h
  case read => exact whenRunning_stands (takeHead_stands applyRead_stands) h
  case report => exact whenRunning_stands (takeHead_stands applyReport_stands) h
  case clearAlerts =>
    refine whenRunning_stands (takeHead_stands (applyControl_stands ?_)) h
    rintro p u v ⟨rfl⟩
    exact clearAlertsNamed_stands (fun hn => hn (.inl rfl)) _ u
  case setMask =>
    refine whenRunning_stands (takeHead_stands (applyControl_stands ?_)) h
    rintro p u v ⟨rfl⟩
    exact .of_view (standing_setMaskTo u _)
  case chainReset =>
    refine whenRunning_stands (takeHead_stands (applyControl_stands fun p u v hv => ?_)) h
    obtain ⟨c, -, rfl⟩ := Option.map_eq_some_iff.mp hv
    exact .of_view (standing_chainResetAt u c)
  case terminalReset =>
    refine whenRunning_stands (takeHead_stands (applyControl_stands fun p u v hv => ?_)) h
    obtain ⟨x, -, rfl⟩ := Option.map_eq_some_iff.mp hv
    exact .of_view (standing_terminalResetAt u x)
  case tickerFlush =>
    refine whenRunning_stands (takeHead_stands (applyControl_stands ?_)) h
    rintro p u v ⟨rfl⟩
    exact tickerFlushAt_stands u
  case resetCold =>
    have hbegins : Begins .resetCold := .inl rfl
    exact whenRunning_stands (takeHead_stands fun _ s => coldState_stands (fun hn => hn (.inl hbegins))
      (fun hn => hn (.inr hbegins)) (fun hn => hn (.inr (.inl hbegins))) _ _ _ _ s) h
  case resetWarm straps =>
    exact whenRunning_stands (takeHead_stands (applyWarm_stands (fun hn => hn (.inr (.inr ⟨straps, rfl⟩))) straps)) h
  case powerOn =>
    have hbegins : Begins .powerOn := .inr (.inl rfl)
    obtain rfl := Host.Outcome.next.inj h
    exact coldState_stands (fun hn => hn (.inl hbegins)) (fun hn => hn (.inr hbegins))
      (fun hn => hn (.inr (.inl hbegins))) _ _ _ _ s
  case resetPinAssert => exact ite_stands h (.refl s) (pinTaken_stands (fun hn => hn (.inr rfl)) s)
  case resetPinRelease =>
    have hbegins : Begins .resetPinRelease := .inr (.inr (.inl rfl))
    exact ite_stands h (coldState_stands (fun hn => hn (.inl hbegins)) (fun hn => hn (.inr hbegins))
      (fun hn => hn (.inr (.inl hbegins))) _ _ _ _ s) (.refl s)
  case initEnd straps sense =>
    have hbegins : Begins (.initEnd straps sense) := .inr (.inr (.inr ⟨straps, sense, rfl⟩))
    have hcold := coldState_stands (kept := fun what => ¬ MayChange what (.initEnd straps sense))
      (fun hn => hn (.inl hbegins)) (fun hn => hn (.inr hbegins)) (fun hn => hn (.inr (.inl hbegins)))
      s.mgmt.cause .running straps sense s
    exact ite_stands h ((hcold.congr_right (standing_setFlashClock _ _)).trans (raiseAlert_stands .reset _)) (.refl s)
  case secondPhaseExpiry => exact whenRunning_stands (fun s => .of_view (standing_secondExpire s)) h
  case keepaliveExpiry c => exact whenRunning_stands (fun s => .of_view (standing_keepaliveExpire s c)) h
  case shiftCompletion c returned => exact whenRunning_stands (shiftComplete_stands c _) h
  case settleCompletion c => exact whenRunning_stands (settleExpire_stands c) h
  case chainSenseChange c present =>
    refine whenRunning_stands (f := fun s => if s.chains[c].senseLevel = present then s else senseChange c present s)
      (fun s => ?_) h
    split
    · exact .refl s
    · exact senseChange_stands c present s
  case pwmPeriodStart c => exact whenRunning_stands (fun s => .of_view (standing_setChain s c _)) h
  case flashClockHalfPeriod => exact whenRunning_stands (fun s => .of_view (standing_halfPeriodExpire s)) h
  case flashExpiry n => exact whenRunning_stands (fun s => .of_view (standing_flashExpire s n)) h
  case bulletinDurationExpiry k place => exact whenRunning_stands (bulletinExpire_stands k place) h
  case step => exact whenRunning_stands stepExpire_stands h
  case primaryFrameSent => exact whenRunning_stands (fun s => .of_view (standing_frameSent s)) h
  case terminalResponse low => exact whenRunning_stands (takeCharacter_stands low) h
  case terminalCharacterReceived b => exact whenRunning_stands (takeCharacter_stands b) h
  case responseTimeout => exact whenRunning_stands responseExpire_stands h
  case probeTimerExpiry x => exact whenRunning_stands (fun s => .of_view (standing_probeExpire s x)) h
  case nightPollGapExpiry => exact whenRunning_stands (fun s => .of_view (standing_gapExpire s)) h
  case returnTransmissionStart => exact whenRunning_stands (fun s => .of_view (standing_returnStart s)) h
  case returnFrameSent => exact whenRunning_stands (fun s => .of_view (standing_returnSent s)) h
  case refusedManagementFrame =>
    exact whenRunning_stands (takeHead_stands fun body s => replyTo_stands body [refusalCode body] s) h

/-! ## An interval tick (R57, R58) -/

section
variable {kept : Standing → Prop}

theorem ifDue_stands {due : Bool} {expire : State → State} {s : State} (h : Stands kept s (expire s)) :
    Stands kept s (ifDue due expire s) := by
  simp only [ifDue]
  split
  · exact h
  · exact .refl s

theorem chainDue_stands (c : ChainId) (s : State) : Stands kept s (chainDue c s) :=
  (ifDue_stands (settleExpire_stands c s)).trans (ifDue_stands (.of_view (standing_keepaliveExpire _ c)))

theorem takeDue_stands (s : State) : Stands kept s (takeDue s) := by
  refine .trans ?_ (ifDue_stands (.of_view (standing_gapExpire _)))
  refine .trans ?_ (.foldl (fun v x => ifDue_stands (.of_view (standing_probeExpire v x))) _ _)
  refine .trans ?_ (ifDue_stands (responseExpire_stands _))
  refine .trans ?_ (ifDue_stands (stepExpire_stands _))
  refine .trans ?_ (.foldl (fun v k => .foldl (fun w _ => ifDue_stands (bulletinExpire_stands k _ w)) _ v) _ _)
  refine .trans ?_ (.foldl (fun v n => ifDue_stands (.of_view (standing_flashExpire v n))) _ _)
  refine .trans ?_ (ifDue_stands (.of_view (standing_halfPeriodExpire _)))
  refine .trans ?_ (chainDue_stands 3 _)
  refine .trans ?_ (chainDue_stands 2 _)
  refine .trans ?_ (chainDue_stands 1 _)
  refine .trans ?_ (chainDue_stands 0 _)
  refine .trans ?_ (ifDue_stands (silenceExpire_stands _))
  exact ifDue_stands (.of_view (standing_secondExpire s))

/-- A tick is a cause of nothing. -/
theorem intervalTick_stands (s : State) : Stands kept s (intervalTick s) := by
  simp only [intervalTick]
  split
  · exact .congr_left (standing_countTimers s) (takeDue_stands _)
  · exact .refl s

end

/-! ## The step (R21, R62, R173) -/

/-- A cold reset leaves the session CLOSED, and a command that finds none to take leaves the session. -/
theorem exec_begins_session {c : Instr} {s t : State} (hc : Begins c) (h : exec c s = .next t) :
    t.time.session = s.time.session ∨ t.time.session = .closed := by
  obtain rfl | rfl | rfl | ⟨straps, sense, rfl⟩ := hc
  · obtain rfl := Host.Outcome.next.inj h
    split
    · simp only [takeHead]
      split
      · exact .inl rfl
      · split
        · exact .inr rfl
        · exact .inl rfl
    · exact .inl rfl
  · obtain rfl := Host.Outcome.next.inj h
    exact .inr rfl
  · obtain rfl := Host.Outcome.next.inj h
    split
    · exact .inr rfl
    · exact .inl rfl
  · obtain rfl := Host.Outcome.next.inj h
    split
    · exact .inr rfl
    · exact .inl rfl

/-- What stands over a step: all of it at a tick, and otherwise all that the command is no cause of. -/
theorem step_stands {s t : State} (h : step s = .next t) : Stands (fun _ => True) s t
    ∨ ∃ c, s.pending.head? = some c ∧ Stands (fun what => ¬ MayChange what c) s t
      ∧ (Begins c → t.time.session = s.time.session ∨ t.time.session = .closed) := by
  cases hpending : s.pending with
  | nil =>
    obtain rfl := Host.Outcome.next.inj ((step_of_nil hpending).symm.trans h)
    exact .inl (intervalTick_stands s)
  | cons c rest =>
    have hexec : exec c { s with pending := rest } = .next t := (step_of_cons hpending).symm.trans h
    have hfront : Stands (fun what => ¬ MayChange what c) s { s with pending := rest } := .of_view rfl
    exact .inr ⟨c, rfl, hfront.trans (exec_stands c hexec),
      fun hc => exec_begins_session (s := { s with pending := rest }) hc hexec⟩

/-- Settles O59: what changes has the command for its cause. -/
theorem sessionAlertsAndStaleMarksStand : Obligations.SessionAlertsAndStaleMarksStand := by
  unfold Obligations.SessionAlertsAndStaleMarksStand
  intro s t h taken begins
  obtain htick | ⟨c, hhead, hstands, hcold⟩ := step_stands h
  · refine ⟨fun hne => absurd (htick.session trivial) hne, fun a ha hgone => ?_, fun n r r' hr hr' hstale hfresh => ?_⟩
    · rw [htick.alerts trivial a ha] at hgone
      cases hgone
    · obtain ⟨r₀, hr₀, hkept⟩ := htick.stale trivial n r' hr'
      obtain rfl := Option.some.inj (hr.symm.trans hr₀)
      rw [hkept hstale] at hfresh
      cases hfresh
  · have cause (what : Standing) (hnot : ¬ ¬ MayChange what c) : taken (MayChange what) := ⟨c, hhead, not_not.mp hnot⟩
    refine ⟨fun hne => ?_, fun a ha hgone => cause .alerts fun hk => ?_,
      fun n r r' hr hr' hstale hfresh => cause .stale fun hk => ?_⟩
    · obtain hc | hc := not_not.mp fun hk => hne (hstands.session hk)
      · exact ⟨c, hhead, .inl hc⟩
      · exact ⟨c, hhead, .inr ⟨(hcold hc).resolve_left hne, hc⟩⟩
    · rw [hstands.alerts hk a ha] at hgone
      cases hgone
    · obtain ⟨r₀, hr₀, hkept⟩ := hstands.stale hk n r' hr'
      obtain rfl := Option.some.inj (hr.symm.trans hr₀)
      rw [hkept hstale] at hfresh
      cases hfresh

end Sys2Proof.Machine

namespace Sys2Proof.Machine

open Sys2Proof.Safety

/-! ## The slots that are not EMPTY stay so at an expiry of Table 4-1 -/

/-- The numbers of the slots that are not EMPTY. -/
def slotNumbers (s : State) : List Nat := s.slots.map Prod.fst

theorem slotNumbers_tickedOnce (s : State) : slotNumbers (tickedOnce s) = slotNumbers s := by
  simp only [slotNumbers, tickedOnce, List.map_map, Function.comp_def]

theorem slotNumbers_markedBoards (mark : Slot → Slot) (s : State) :
    slotNumbers (markedBoards mark s) = slotNumbers s := by
  simp only [slotNumbers, markedBoards, chainsTold, List.map_map, Function.comp_def]

theorem slotNumbers_markAllStale (s : State) : slotNumbers (markAllStale s) = slotNumbers s := by
  have hone (v : State) (n : Nat) : slotNumbers (markStale v n) = slotNumbers v := by
    simp only [markStale]
    split
    · split
      · rfl
      · next r _ _ =>
        obtain ⟨-, hslots⟩ := updateRecord_boards_eq n { r with stale := true } (names := nameStale) (by decide) v
        exact (congrArg (List.map Prod.fst) hslots).trans (slotNumbers_markedBoards _ _)
    · rfl
  have hall (ns : List Nat) : ∀ v : State, slotNumbers (ns.foldl markStale v) = slotNumbers v := by
    induction ns with
    | nil => exact fun _ => rfl
    | cons n rest ih => exact fun v => (ih _).trans (hone v n)
  exact hall (definedNumbers s) s

theorem slotNumbers_refreshStart (c : ChainId) (s : State) : slotNumbers (refreshStart c s) = slotNumbers s := by
  rw [refreshStart_frame]
  simp only [slotNumbers, clearDirty_eq_map, List.map_map, Function.comp_def]

theorem slotNumbers_wakeChain (c : ChainId) (s : State) : slotNumbers (wakeChain c s) = slotNumbers s := by
  simp only [wakeChain]
  split
  · exact slotNumbers_refreshStart c s
  · rfl

theorem slotNumbers_secondExpire (s : State) : slotNumbers (secondExpire s) = slotNumbers s := by
  rw [secondExpire_eq, timeMoved]
  split
  · rw [minuteChange_eq]
    exact slotNumbers_markedBoards clockMark _
  · rfl

theorem slotNumbers_silenceExpire (s : State) : slotNumbers (silenceExpire s) = slotNumbers s := by
  by_cases h : s.feed.silence.isSome = true
  · rw [silenceExpire_eq h]
    exact (slotNumbers_markedBoards statusMark _).trans (slotNumbers_markAllStale (feedGone s))
  · simp only [silenceExpire, timerRuns, h]
    rfl

theorem slotNumbers_settleExpire (c : ChainId) (s : State) : slotNumbers (settleExpire c s) = slotNumbers s := by
  simp only [settleExpire, settleComplete]
  split
  · split
    · rfl
    · split
      · rfl
      · exact slotNumbers_wakeChain c _
  · rfl

theorem slotNumbers_keepaliveExpire (c : ChainId) (s : State) : slotNumbers (keepaliveExpire c s) = slotNumbers s := by
  simp only [keepaliveExpire]
  split
  · exact slotNumbers_refreshStart c s
  · rfl

theorem slotNumbers_halfPeriodExpire (s : State) : slotNumbers (halfPeriodExpire s) = slotNumbers s := by
  simp only [halfPeriodExpire]
  split <;> rfl

theorem slotNumbers_ifDue {due : Bool} {expire : State → State} {s : State}
    (h : slotNumbers (expire s) = slotNumbers s) : slotNumbers (ifDue due expire s) = slotNumbers s := by
  simp only [ifDue]
  split
  · exact h
  · rfl

theorem slotNumbers_chainDue (c : ChainId) (s : State) : slotNumbers (chainDue c s) = slotNumbers s :=
  (slotNumbers_ifDue (slotNumbers_keepaliveExpire c _)).trans (slotNumbers_ifDue (slotNumbers_settleExpire c s))

/-! ## Expiries taken as their commands take them (R58) -/

/-- In operation, what `f` does is to take a run of expiries one after the other, and the part stays in operation. -/
def TakesExpiries (f : State → State) (es : List Expiry) : Prop :=
  ∀ v, v.phase = .running → f v = es.foldl expiryTaken v ∧ (f v).phase = .running

theorem TakesExpiries.comp {f g : State → State} {es es' : List Expiry} (hf : TakesExpiries f es)
    (hg : TakesExpiries g es') : TakesExpiries (fun v => g (f v)) (es ++ es') := by
  intro v hv
  obtain ⟨heq, hphase⟩ := hf v hv
  obtain ⟨heq', hphase'⟩ := hg (f v) hphase
  refine ⟨?_, hphase'⟩
  rw [List.foldl_append, ← heq]
  exact heq'

theorem TakesExpiries.congr {f g : State → State} {es : List Expiry} (hf : TakesExpiries f es) (h : ∀ v, g v = f v) :
    TakesExpiries g es := by
  intro v hv
  rw [h v]
  exact hf v hv

/-- Runs of expiries for the members of a list, one after the other. -/
theorem takesExpiries_foldl {α : Type} {f : State → α → State} {es : α → List Expiry}
    (h : ∀ x, TakesExpiries (fun v => f v x) (es x)) :
    ∀ xs : List α, TakesExpiries (fun v => xs.foldl f v) (xs.flatMap es)
  | [] => fun v hv => ⟨rfl, hv⟩
  | x :: rest => by
    rw [List.flatMap_cons]
    exact (h x).comp (takesExpiries_foldl h rest)

/-- One expiry, of a command that leaves the phase. -/
theorem takesExpiries_ifDue {due : State → Bool} {c : Instr} {expire : State → State}
    (hexec : ∀ v, exec c v = whenRunning expire v) (hphase : ∀ v, (expire v).phase = v.phase) :
    TakesExpiries (fun v => ifDue (due v) expire v) [(due, c)] := by
  intro v hv
  have htaken : expiryTaken v (due, c) = ifDue (due v) expire v := by
    simp only [expiryTaken, hexec, whenRunning, hv, if_true, ifDue]
  refine ⟨htaken.symm, ?_⟩
  simp only [ifDue]
  split
  · exact (hphase v).trans hv
  · exact hv

/-- What stands at an operation holds of its phase. -/
theorem phase_of_stands {s t : State} (h : Stands (fun _ => True) s t) : t.phase = s.phase := h.phase trivial

/-- The same, of one that leaves the view as it is. -/
theorem phase_of_standing {s t : State} (h : t.standing = s.standing) : t.phase = s.phase := phase_of_stands (.of_view h)

theorem chainDue_takes (c : ChainId) : TakesExpiries (chainDue c) (chainExpiries c) :=
  have hsettle := takesExpiries_ifDue (due := fun v => timerEnds v.chains[c].settleTimer) (c := .settleCompletion c)
    (fun _ => rfl) fun v => phase_of_stands (settleExpire_stands c v)
  have hkeepalive := takesExpiries_ifDue (due := fun v => timerEnds v.chains[c].keepaliveTimer)
    (c := .keepaliveExpiry c) (fun _ => rfl) fun v => phase_of_standing (standing_keepaliveExpire v c)
  hsettle.comp hkeepalive

theorem slotDue_takes (n : Nat) : TakesExpiries (fun v => slotDue v n) [flashEnds n] :=
  takesExpiries_ifDue (fun _ => rfl) fun v => phase_of_standing (standing_flashExpire v n)

theorem stackDue_takes (k : StackId) : TakesExpiries (fun v => stackDue v k) (stackExpiries k) :=
  takesExpiries_foldl (fun place => takesExpiries_ifDue (c := .bulletinDurationExpiry k place) (fun _ => rfl)
    fun v => phase_of_stands (bulletinExpire_stands k place v)) [3, 2, 1, 0]

theorem probeDueAt_takes (x : TermId) : TakesExpiries (fun v => probeDueAt v x) [probeEnds x] :=
  takesExpiries_ifDue (fun _ => rfl) fun v => phase_of_standing (standing_probeExpire v x)

/-! ## A tick in operation (R57, R58, Table 4-1) -/

/-- The due timers that Table 4-1 gives before those of the slots. -/
def dueBeforeSlots (s : State) : State :=
  let s1 := ifDue (1000 ≤ s.time.phaseTicks) secondExpire s
  let s2 := ifDue (timerDue s1.feed.silence) silenceExpire s1
  let s3 := chainDue 3 (chainDue 2 (chainDue 1 (chainDue 0 s2)))
  ifDue (timerDue s3.flashClock.timer) halfPeriodExpire s3

theorem timerDue_eq : timerDue = timerEnds := rfl

theorem foldl_chainDue (s : State) : (List.finRange 4).foldl (fun v c => chainDue c v) s
    = chainDue 3 (chainDue 2 (chainDue 1 (chainDue 0 s))) := by
  have hall : List.finRange 4 = [0, 1, 2, 3] := by decide
  simp only [hall, List.foldl_cons, List.foldl_nil]

/-- Those that it gives after them. -/
def dueAfterSlots (s : State) : State :=
  let s6 := (List.finRange 8).foldl stackDue s
  let s7 := ifDue (timerDue s6.ticker.stepTimer) stepExpire s6
  let s8 := ifDue (s7.line.transaction.any (fun tx => timerDue tx.timeout)) responseExpire s7
  let s9 := (List.finRange 32).foldl probeDueAt s8
  ifDue (timerDue s9.line.gap) gapExpire s9

theorem takeDue_eq_slots (s : State) :
    takeDue s = dueAfterSlots ((slotNumbers (dueBeforeSlots s)).foldl slotDue (dueBeforeSlots s)) := by
  simp only [takeDue, dueAfterSlots, dueBeforeSlots, slotNumbers]

theorem slotNumbers_dueBeforeSlots (s : State) : slotNumbers (dueBeforeSlots s) = slotNumbers s := by
  calc slotNumbers (dueBeforeSlots s)
    _ = slotNumbers (chainDue 3 _) := slotNumbers_ifDue (slotNumbers_halfPeriodExpire _)
    _ = slotNumbers (chainDue 2 _) := slotNumbers_chainDue 3 _
    _ = slotNumbers (chainDue 1 _) := slotNumbers_chainDue 2 _
    _ = slotNumbers (chainDue 0 _) := slotNumbers_chainDue 1 _
    _ = slotNumbers (ifDue _ silenceExpire _) := slotNumbers_chainDue 0 _
    _ = slotNumbers (ifDue _ secondExpire s) := slotNumbers_ifDue (slotNumbers_silenceExpire _)
    _ = slotNumbers s := slotNumbers_ifDue (slotNumbers_secondExpire s)

/-- The expiries of Table 4-1 before those of the slots. -/
def expiriesBeforeSlots : List Expiry :=
  let second : Expiry := (fun v => decide (1000 ≤ v.time.phaseTicks), .secondPhaseExpiry)
  let silence : Expiry := (fun v => timerEnds v.feed.silence, .silenceTimerExpiry)
  let halfPeriod : Expiry := (fun v => timerEnds v.flashClock.timer, .flashClockHalfPeriod)
  [second] ++ [silence] ++ (List.finRange 4).flatMap chainExpiries ++ [halfPeriod]

/-- Those after them. -/
def expiriesAfterSlots : List Expiry :=
  let step : Expiry := (fun v => timerEnds v.ticker.stepTimer, .step)
  let response : Expiry := (fun v => v.line.transaction.any (fun tx => timerEnds tx.timeout), .responseTimeout)
  let gap : Expiry := (fun v => timerEnds v.line.gap, .nightPollGapExpiry)
  (List.finRange 8).flatMap stackExpiries ++ [step] ++ [response]
    ++ (List.finRange 32).flatMap (fun x => [probeEnds x]) ++ [gap]

theorem expiries_eq (s : State) :
    expiries s = expiriesBeforeSlots ++ (slotNumbers s).flatMap (fun n => [flashEnds n]) ++ expiriesAfterSlots := by
  simp only [expiries, expiriesBeforeSlots, expiriesAfterSlots, slotNumbers, ← List.map_eq_flatMap, List.map_map,
    Function.comp_def, List.flatten_cons, List.flatten_nil, List.append_nil, List.append_assoc, List.cons_append,
    List.nil_append]

theorem dueBeforeSlots_takes : TakesExpiries dueBeforeSlots expiriesBeforeSlots := by
  have hsecond := takesExpiries_ifDue (due := fun v => decide (1000 ≤ v.time.phaseTicks)) (c := .secondPhaseExpiry)
    (fun _ => rfl) fun v => phase_of_standing (standing_secondExpire v)
  have hsilence := takesExpiries_ifDue (due := fun v => timerEnds v.feed.silence) (c := .silenceTimerExpiry)
    (fun _ => rfl) fun v => phase_of_stands (silenceExpire_stands v)
  have hchains : TakesExpiries (fun v => (List.finRange 4).foldl (fun v c => chainDue c v) v) _ :=
    takesExpiries_foldl chainDue_takes _
  have hflash := takesExpiries_ifDue (due := fun v => timerEnds v.flashClock.timer) (c := .flashClockHalfPeriod)
    (fun _ => rfl) fun v => phase_of_standing (standing_halfPeriodExpire v)
  refine (((hsecond.comp hsilence).comp hchains).comp hflash).congr fun v => ?_
  simp only [dueBeforeSlots, foldl_chainDue, timerDue_eq]

theorem dueAfterSlots_takes : TakesExpiries dueAfterSlots expiriesAfterSlots := by
  have hstacks := takesExpiries_foldl stackDue_takes (List.finRange 8)
  have hstep := takesExpiries_ifDue (due := fun v => timerEnds v.ticker.stepTimer) (c := .step)
    (fun _ => rfl) fun v => phase_of_stands (stepExpire_stands v)
  have hresponse := takesExpiries_ifDue (due := fun v => v.line.transaction.any (fun tx => timerEnds tx.timeout))
    (c := .responseTimeout) (fun _ => rfl) fun v => phase_of_stands (responseExpire_stands v)
  have hprobes := takesExpiries_foldl probeDueAt_takes (List.finRange 32)
  have hgap := takesExpiries_ifDue (due := fun v => timerEnds v.line.gap) (c := .nightPollGapExpiry)
    (fun _ => rfl) fun v => phase_of_standing (standing_gapExpire v)
  refine ((((hstacks.comp hstep).comp hresponse).comp hprobes).comp hgap).congr fun v => ?_
  simp only [dueAfterSlots, timerDue_eq]

/-- The due timers of a tick, taken in the order of Table 4-1. -/
theorem takeDue_takes {s : State} (h : s.phase = .running) :
    takeDue s = (expiriesBeforeSlots ++ (slotNumbers s).flatMap (fun n => [flashEnds n])
      ++ expiriesAfterSlots).foldl expiryTaken s := by
  have hslots := takesExpiries_foldl slotDue_takes (slotNumbers s)
  have hall := (dueBeforeSlots_takes.comp hslots).comp dueAfterSlots_takes
  rw [takeDue_eq_slots, slotNumbers_dueBeforeSlots]
  exact (hall s h).1

/-- Settles O3: the timers counted by `tickedOnce`, and each due one taken as its command takes it. -/
theorem tickCountsAndExpires : Obligations.TickCountsAndExpires := by
  unfold Obligations.TickCountsAndExpires
  intro s hpending
  refine ⟨fun hphase => ?_, fun hphase => step_tick_of_not_running hphase hpending⟩
  have hticked : (tickedOnce s).phase = .running := hphase
  rw [step_of_nil hpending, intervalTick, if_pos hphase, countTimers_eq, takeDue_takes hticked, expiries_eq,
    slotNumbers_tickedOnce]

end Sys2Proof.Machine

namespace Sys2Proof.Machine

open Sys2Proof.Safety

/-! ## The chains, the slots and the records, as one view of the state -/

/-- What the laws of BoardsStaySound speak of. -/
structure BoardView where
  chains : Vector Chain 4
  slots : Table Slot
  records : Table QuoteRecord

/-- The view of a state. -/
def State.boardView (s : State) : BoardView := { chains := s.chains, slots := s.slots, records := s.records }

section
variable (s : State)

@[simp] theorem boardView_setFeed (x : Feed) : (s.setFeed x).boardView = s.boardView := rfl
@[simp] theorem boardView_setIntake (x : List IntakeEntry) : (s.setIntake x).boardView = s.boardView := rfl
@[simp] theorem boardView_setLoad (x : Option Nat) : (s.setLoad x).boardView = s.boardView := rfl
@[simp] theorem boardView_setDirectory (x : List (SymbolCode × Nat)) : (s.setDirectory x).boardView = s.boardView := rfl
@[simp] theorem boardView_setTime (x : TimeBase) : (s.setTime x).boardView = s.boardView := rfl
@[simp] theorem boardView_setFlashClock (x : FlashClock) : (s.setFlashClock x).boardView = s.boardView := rfl
@[simp] theorem boardView_setStack (k : StackId) (x : List BulletinEntry) : (s.setStack k x).boardView = s.boardView := rfl
@[simp] theorem boardView_setTicker (x : Ticker) : (s.setTicker x).boardView = s.boardView := rfl
@[simp] theorem boardView_setLine (x : TerminalLine) : (s.setLine x).boardView = s.boardView := rfl
@[simp] theorem boardView_setTerm (t : TermId) (x : Terminal) : (s.setTerm t x).boardView = s.boardView := rfl
@[simp] theorem boardView_setMgmt (x : Management) : (s.setMgmt x).boardView = s.boardView := rfl
@[simp] theorem boardView_setDraws (x : Nat) : (s.setDraws x).boardView = s.boardView := rfl
@[simp] theorem boardView_onTicker (f : Ticker → Ticker) : (onTicker f s).boardView = s.boardView := rfl
@[simp] theorem boardView_setQueue (q : List TickerEntry) : (setQueue q s).boardView = s.boardView := rfl
@[simp] theorem boardView_statusLinesPending : (statusLinesPending s).boardView = s.boardView := rfl
@[simp] theorem boardView_raiseAlert (a : Alert) : (raiseAlert a s).boardView = s.boardView := rfl
@[simp] theorem boardView_beginText (text : List Byte) : (beginText text s).boardView = s.boardView := rfl
@[simp] theorem boardView_emitBlank : (emitBlank s).boardView = s.boardView := rfl
@[simp] theorem boardView_placeResult (x : TermId) (code : ResultCode) (row : Byte) :
    (placeResult x code row s).boardView = s.boardView := rfl

/-! ### Operations that leave the view as it is -/

@[simp] theorem boardView_replyTo (body answer : List Byte) : (replyTo body answer s).boardView = s.boardView := by
  rw [replyTo_frame]; rfl

@[simp] theorem boardView_loadEnds (body answer : List Byte) : (loadEnds body answer s).boardView = s.boardView := by
  rw [loadEnds_frame]; rfl

@[simp] theorem boardView_offerPrint (p : Print) : (offerPrint p s).boardView = s.boardView := by
  rw [offerPrint_frame]; rfl

@[simp] theorem boardView_offerText (atHead : Bool) (text : List Byte) : (offerText atHead text s).boardView = s.boardView := by
  rw [offerText_frame]; rfl

@[simp] theorem boardView_offerUncovered (stack : List BulletinEntry) :
    (offerUncovered stack s).boardView = s.boardView := by
  cases stack with
  | nil => rfl
  | cons top _ => simp only [offerUncovered]; split <;> simp

@[simp] theorem boardView_countOmitted (n : Nat) : (countOmitted n s).boardView = s.boardView := by
  simp only [countOmitted]; split <;> rfl

@[simp] theorem boardView_condense (p : Print) : (condense p s).2.boardView = s.boardView := by
  rw [condense_eq]; rfl

@[simp] theorem boardView_restartStep : (restartStep s).boardView = s.boardView := by
  simp only [restartStep]; split <;> rfl

@[simp] theorem boardView_tickerSession (old new : SessionState) : (tickerSession old new s).boardView = s.boardView := by
  simp only [tickerSession]
  split
  · split <;> rfl
  · split <;> rfl

@[simp] theorem boardView_select : (select s).boardView = s.boardView := by
  rw [select_frame]; rfl

@[simp] theorem boardView_lineSession (old : SessionState) : (lineSession old s).boardView = s.boardView := by
  rw [lineSession_frame]; rfl

@[simp] theorem boardView_setEnabled (x : TermId) (enabled : Bool) : (setEnabled x enabled s).boardView = s.boardView := by
  simp only [setEnabled]
  split
  · rfl
  · split
    · split <;> simp
    · split <;> rfl

@[simp] theorem boardView_terminalResetAt (x : TermId) : (terminalResetAt x s).boardView = s.boardView := by
  simp only [terminalResetAt]
  split
  · rfl
  · split <;> simp

@[simp] theorem boardView_applyWaiting (x : TermId) : (applyWaiting x s).boardView = s.boardView := by
  simp only [applyWaiting]
  split
  · rfl
  · split <;> rfl

@[simp] theorem boardView_freeLine : (freeLine s).boardView = s.boardView := by
  simp only [freeLine]
  split <;> simp

@[simp] theorem boardView_miss (x : TermId) (after : TermState) : (miss x after s).boardView = s.boardView := by
  simp only [miss]
  split <;> rfl

@[simp] theorem boardView_frameSent : (frameSent s).boardView = s.boardView := by
  simp only [frameSent]
  split
  · split <;> rfl
  · rfl

@[simp] theorem boardView_probeExpire (x : TermId) : (probeExpire x s).boardView = s.boardView := by
  simp only [probeExpire]
  split <;> simp

@[simp] theorem boardView_gapExpire : (gapExpire s).boardView = s.boardView := by
  simp only [gapExpire]
  split <;> simp

@[simp] theorem boardView_halfPeriodExpire : (halfPeriodExpire s).boardView = s.boardView := by
  simp only [halfPeriodExpire]
  split <;> rfl

@[simp] theorem boardView_windowLoaded : (windowLoaded s).boardView = s.boardView := by
  simp only [windowLoaded]
  split
  · rfl
  · split <;> rfl

@[simp] theorem boardView_takeReturnHead : (takeReturnHead s).boardView = s.boardView := by
  simp only [takeReturnHead]
  split <;> rfl

@[simp] theorem boardView_returnStart : (returnStart s).boardView = s.boardView := by
  simp only [returnStart]
  split <;> simp

@[simp] theorem boardView_returnSent : (returnSent s).boardView = s.boardView := by
  simp only [returnSent]
  split <;> simp

@[simp] theorem boardView_offerIntake (body : List Byte) : (offerIntake body s).boardView = s.boardView := by
  simp only [offerIntake]
  split <;> rfl

theorem boardView_sequenceChecked {body : List Byte} {t : State} (h : sequenceChecked body s = some t) :
    t.boardView = s.boardView := by
  obtain ⟨hframe, -, -⟩ := arrivalKeeps_of_sequenceChecked h
  rw [hframe.frame]; rfl

@[simp] theorem boardView_applyRead (body : List Byte) : (applyRead body s).boardView = s.boardView := by
  simp only [applyRead]
  split
  · simp
  · split
    · simp
    · split <;> simp

@[simp] theorem boardView_applyReport (body : List Byte) : (applyReport body s).boardView = s.boardView := by
  simp only [applyReport]
  split <;> simp

theorem boardView_applyParamEntry {n : Nat} {x : List Byte} {t : State} (h : applyParamEntry n x s = some t) :
    t.boardView = s.boardView := by
  simp only [applyParamEntry] at h
  split at h
  · cases h
  · obtain rfl := Option.some.inj h
    split
    · simp [setParam]
    · rfl

end

end Sys2Proof.Machine

namespace Sys2Proof.Machine

open Sys2Proof.Safety

/-! ## What an operation keeps of the boards -/

/-- R74, R77, R79, R80, R82: what `ChainsFit` asks of one chain. -/
structure Chain.Fits (ch : Chain) : Prop where
  cycle : ch.cycle.isSome = true ↔ ch.state = .shifting ∨ ch.state = .settling
  keepalive : ch.keepaliveTimer.isSome = true ↔ ch.state = .idle
  settle : ch.settleTimer.isSome = true ↔ ch.state = .settling
  shadow : ch.state = .offline → ch.shadowValid = false
  sense : ch.senseLevel = false → ch.state = .offline
  faults : ch.faultCount ≤ 3

theorem chainsFit_iff (s : State) : ChainsFit s ↔ ∀ c : ChainId, (s.chains[c]).Fits :=
  forall_congr' fun _ => ⟨fun ⟨a, b, d, e, f, g⟩ => ⟨a, b, d, e, f, g⟩, fun ⟨a, b, d, e, f, g⟩ => ⟨a, b, d, e, f, g⟩⟩

/-- A chain keeps its law, and stays OFFLINE unless it is one that leaves. -/
structure ChainKept (leaves : Prop) (before after : Chain) : Prop where
  fits : before.Fits → after.Fits
  offline : ¬ leaves → before.state = .offline → after.state = .offline

theorem ChainKept.refl (leaves : Prop) (ch : Chain) : ChainKept leaves ch ch := ⟨id, fun _ => id⟩

theorem ChainKept.trans {leaves : Prop} {a b c : Chain} (h : ChainKept leaves a b) (h' : ChainKept leaves b c) :
    ChainKept leaves a c := ⟨fun hf => h'.fits (h.fits hf), fun hn ho => h'.offline hn (h.offline hn ho)⟩

/-- What an operation keeps: the chains' laws, where `leaves` names the chains that it may bring out of OFFLINE; the
claims of the slots; and the numbers of the tables, where `placed` is what a table entry's number hangs on. -/
structure BoardsKept (leaves : ChainId → Prop) (placed : Prop) (s t : State) : Prop where
  chain : ∀ c : ChainId, ChainKept (leaves c) s.chains[c] t.chains[c]
  claims : ClaimsDisjoint s → ClaimsDisjoint t
  slots : placed → tableWf 256 s.slots → tableWf 256 t.slots
  records : placed → tableWf 512 s.records → tableWf 512 t.records

theorem blocks_of_boardView {s t : State} (h : t.boardView = s.boardView) :
    t.chains = s.chains ∧ t.slots = s.slots ∧ t.records = s.records := by
  simpa only [State.boardView, BoardView.mk.injEq] using h

theorem claimsDisjoint_of_slots {s t : State} (h : t.slots = s.slots) (hs : ClaimsDisjoint s) : ClaimsDisjoint t := by
  simpa only [ClaimsDisjoint, h] using hs

namespace BoardsKept

variable {leaves : ChainId → Prop} {placed placed' : Prop} {s t u : State}

theorem of_view (h : t.boardView = s.boardView) : BoardsKept leaves placed s t := by
  obtain ⟨hchains, hslots, hrecords⟩ := blocks_of_boardView h
  refine ⟨fun c => ?_, claimsDisjoint_of_slots hslots, fun _ hs => ?_, fun _ hs => ?_⟩
  · rw [hchains]
    exact .refl _ _
  · rwa [hslots]
  · rwa [hrecords]

theorem refl (s : State) : BoardsKept leaves placed s s := of_view rfl

theorem trans (h : BoardsKept leaves placed s t) (h' : BoardsKept leaves placed t u) : BoardsKept leaves placed s u where
  chain c := (h.chain c).trans (h'.chain c)
  claims hs := h'.claims (h.claims hs)
  slots hp hs := h'.slots hp (h.slots hp hs)
  records hp hs := h'.records hp (h.records hp hs)

/-- A change that the view does not show, after the operation. -/
theorem congr_right (h : BoardsKept leaves placed s t) (he : u.boardView = t.boardView) : BoardsKept leaves placed s u :=
  h.trans (of_view he)

/-- The same, before it. -/
theorem congr_left (he : t.boardView = s.boardView) (h : BoardsKept leaves placed t u) : BoardsKept leaves placed s u :=
  (of_view he).trans h

theorem foldl {α : Type} {f : State → α → State} (h : ∀ s x, BoardsKept leaves placed s (f s x)) :
    ∀ (l : List α) (s : State), BoardsKept leaves placed s (l.foldl f s)
  | [], s => refl s
  | x :: rest, s => (h s x).trans (foldl h rest _)

/-- The numbers may hang on more. -/
theorem mono (h : BoardsKept leaves placed s t) (hp : placed' → placed) : BoardsKept leaves placed' s t :=
  { h with slots := fun hp' => h.slots (hp hp'), records := fun hp' => h.records (hp hp') }

/-- One chain replaced. -/
theorem setChain {c : ChainId} {x : Chain} (h : ChainKept (leaves c) s.chains[c] x) :
    BoardsKept leaves placed s (s.setChain c x) := by
  refine ⟨fun d => ?_, id, fun _ => id, fun _ => id⟩
  by_cases hd : d = c
  · subst hd
    simpa using h
  · have hv : c.val ≠ d.val := fun hv => hd (Fin.ext hv.symm)
    have hsame : (s.setChain c x).chains[d] = s.chains[d] := by simp [Vector.getElem_set_ne _ _ hv]
    rw [hsame]
    exact .refl _ _

/-- The records replaced. -/
theorem setRecords {x : Table QuoteRecord} (h : placed → tableWf 512 s.records → tableWf 512 x) :
    BoardsKept leaves placed s (s.setRecords x) := { refl s with records := h }

end BoardsKept

/-! ### Slots whose numbers and descriptions stand -/

/-- The description of a slot tells the cells that it claims (R93). -/
theorem claims_of_description {a b : Slot} (h : description a = description b) (c : ChainId) (cell : Nat) :
    claimsCell c cell a = claimsCell c cell b ∧ claimsLamp c cell a = claimsLamp c cell b := by
  have hstart : a.start = b.start := congrArg (fun d => d.2.1) h
  simp only [claimsCell, claimsLamp, chain_eq_of_description h, kind_eq_of_description h, hstart, and_self]

theorem claimsDisjoint_of_descriptions {s t : State}
    (h : ∀ n, (tableGet t.slots n).map description = (tableGet s.slots n).map description) (hs : ClaimsDisjoint s) :
    ClaimsDisjoint t := by
  intro n m a b ha hb hne c cell
  have before {k : Nat} {x : Slot} (hx : tableGet t.slots k = some x) :
      ∃ y, tableGet s.slots k = some y ∧ description y = description x := by
    rw [← Option.map_eq_some_iff, ← h k, hx]
    rfl
  obtain ⟨a', ha', hda⟩ := before ha
  obtain ⟨b', hb', hdb⟩ := before hb
  rw [← (claims_of_description hda c cell).1, ← (claims_of_description hda c cell).2,
    ← (claims_of_description hdb c cell).1, ← (claims_of_description hdb c cell).2]
  exact hs n m a' b' ha' hb' hne c cell

theorem tableWf_of_numbers {α β : Type} {size : Nat} {t : Table α} {t' : Table β}
    (h : t'.map Prod.fst = t.map Prod.fst) (ht : tableWf size t) : tableWf size t' := by
  simpa only [tableWf, h] using ht

/-- The numbers of a table in canonical form are below its size. -/
theorem lt_of_tableGet {α : Type} {size n : Nat} {t : Table α} {x : α} (ht : tableWf size t)
    (hget : tableGet t n = some x) : n < size :=
  ht.2 n ((tableGet_isSome t n).mp (by rw [hget]; rfl))

section
variable {leaves : ChainId → Prop} {placed : Prop}

/-- An operation of the boards that keeps every slot's number and description. -/
theorem BoardsKept.of_slots {s t : State} (hchain : ∀ c : ChainId, ChainKept (leaves c) s.chains[c] t.chains[c])
    (hdescription : ∀ n, (tableGet t.slots n).map description = (tableGet s.slots n).map description)
    (hnumbers : slotNumbers t = slotNumbers s) (hrecords : t.records = s.records) : BoardsKept leaves placed s t :=
  ⟨hchain, claimsDisjoint_of_descriptions hdescription, fun _ => tableWf_of_numbers hnumbers,
    fun _ hs => by rwa [hrecords]⟩

/-! ### The refresh cycle (R75 to R79) -/

theorem fits_startedChain {c : ChainId} {s : State} (hi : (s.chains[c]).state = .idle) (h : (s.chains[c]).Fits) :
    (startedChain c s).Fits := by
  obtain ⟨hcycle, hkeepalive, hsettle, hshadow, hsense, hfaults⟩ := h
  simp only [startedChain]
  split
  · constructor <;> simp_all
    split <;> omega
  · constructor <;> simp_all

theorem refreshStart_kept {c : ChainId} {s : State} (hi : (s.chains[c]).state = .idle) :
    BoardsKept leaves placed s (refreshStart c s) := by
  refine .of_slots (fun d => ?_) (refreshStart_boards hi).2 (slotNumbers_refreshStart c s) (by rw [refreshStart_frame])
  rw [refreshStart_frame]
  by_cases hd : d = c
  · subst hd
    have hstarted : ChainKept (leaves d) s.chains[d] (startedChain d s) :=
      ⟨fits_startedChain hi, fun _ ho => by rw [hi] at ho; cases ho⟩
    simpa using hstarted
  · have hv : c.val ≠ d.val := fun hv => hd (Fin.ext hv.symm)
    have hsame : (s.chains.set c (startedChain c s))[d] = s.chains[d] := by simp [Vector.getElem_set_ne _ _ hv]
    rw [hsame]
    exact .refl _ _

theorem wakeChain_kept (c : ChainId) (s : State) : BoardsKept leaves placed s (wakeChain c s) := by
  simp only [wakeChain]
  split
  · next h =>
    simp only [wantsRefresh, Bool.and_eq_true, beq_iff_eq] at h
    exact refreshStart_kept h.1
  · exact .refl s

theorem wakeChains_kept (s : State) : BoardsKept leaves placed s (wakeChains s) :=
  (wakeChain_kept 0 s).trans ((wakeChain_kept 1 _).trans ((wakeChain_kept 2 _).trans (wakeChain_kept 3 _)))

theorem keepaliveExpire_kept (c : ChainId) (s : State) : BoardsKept leaves placed s (keepaliveExpire c s) := by
  simp only [keepaliveExpire]
  split
  · next h => exact refreshStart_kept h.1
  · exact .refl s

theorem shiftComplete_kept (c : ChainId) (returned : List Byte) (s : State) :
    BoardsKept leaves placed s (shiftComplete c returned s) := by
  simp only [shiftComplete]
  split
  · next cy hstate hcycle =>
    have hlatched (differing : List Nat) : ChainKept (leaves c) s.chains[c]
        (latchAndSettle (echoChecked s.chains[c] cy differing) cy returned) := by
      refine ⟨fun ⟨hfcycle, hkeepalive, hsettle, hshadow, hsense, hfaults⟩ => ?_, fun _ ho => by rw [hstate] at ho; cases ho⟩
      simp only [latchAndSettle, echoChecked]
      split
      · constructor <;> simp_all [startTimer]
      · split
        · constructor <;> simp_all [startTimer]
        · constructor <;> simp_all [startTimer]
    split
    · exact (BoardsKept.setChain (hlatched _)).congr_right (boardView_raiseAlert _ _)
    · exact .setChain (hlatched _)
  · exact .refl s

/-! ### Moves between OFFLINE and IDLE (R74, R79 to R86) -/

theorem Chain.Fits.goOffline {ch : Chain} (h : ch.Fits) : (goOffline ch).Fits := by
  obtain ⟨-, -, -, -, -, hfaults⟩ := h
  constructor <;> simp_all [Machine.goOffline]

theorem Chain.Fits.enterIdle {ch : Chain} (h : ch.Fits) (hsense : ch.senseLevel = true) : (enterIdle ch).Fits := by
  obtain ⟨-, -, -, -, -, hfaults⟩ := h
  constructor <;> simp_all [Machine.enterIdle, startTimer]

theorem ChainKept.goOffline {leaves : Prop} {a b : Chain} (h : ChainKept leaves a b) :
    ChainKept leaves a (goOffline b) := ⟨fun hf => (h.fits hf).goOffline, fun _ _ => rfl⟩

/-- A chain that is not OFFLINE, or one that may leave it, goes where its law lets it. -/
theorem ChainKept.of_leaving {leaves : Prop} {a b : Chain} (h : leaves ∨ a.state ≠ .offline) (hfits : a.Fits → b.Fits) :
    ChainKept leaves a b := ⟨hfits, fun hn ho => absurd ho (h.resolve_left hn)⟩

/-- A chain that keeps its state, its timers and its cycle, and whose shadow does not become valid. -/
theorem ChainKept.of_same {leaves : Prop} {a b : Chain} (hstate : b.state = a.state)
    (hcycle : b.cycle.isSome = a.cycle.isSome) (hkeepalive : b.keepaliveTimer.isSome = a.keepaliveTimer.isSome)
    (hsettle : b.settleTimer.isSome = a.settleTimer.isSome) (hshadow : b.shadowValid = true → a.shadowValid = true)
    (hsense : b.senseLevel = false → a.senseLevel = false) (hfaults : b.faultCount ≤ a.faultCount) :
    ChainKept leaves a b := by
  refine ⟨fun h => ⟨?_, ?_, ?_, fun ho => ?_, fun hs => ?_, hfaults.trans h.faults⟩, fun _ ho => hstate.trans ho⟩
  · rw [hstate, hcycle]
    exact h.cycle
  · rw [hstate, hkeepalive]
    exact h.keepalive
  · rw [hstate, hsettle]
    exact h.settle
  · have := h.shadow (hstate.symm.trans ho)
    by_contra hv
    simp_all
  · exact hstate.trans (h.sense (hsense hs))

theorem applyReload_kept {leaves : Prop} (ch : Chain) : ChainKept leaves ch (applyReload ch) := by
  simp only [applyReload]
  split
  · exact .of_same rfl rfl rfl rfl nofun id le_rfl
  · exact .refl _ _

theorem applyChainReset_kept {leaves : Prop} (ch : Chain) : ChainKept leaves ch (applyChainReset ch) :=
  .of_same rfl rfl rfl rfl nofun id (Nat.zero_le _)

theorem applyPendingReset_kept {leaves : Prop} (ch : Chain) : ChainKept leaves ch (applyPendingReset ch) := by
  simp only [applyPendingReset]
  split
  · exact applyChainReset_kept ch
  · exact .refl _ _

theorem reloaded_kept {leaves : Prop} (ch : Chain) : ChainKept leaves ch (reloaded ch) := by
  simp only [reloaded]
  split
  · exact .of_same rfl rfl rfl rfl nofun id le_rfl
  all_goals exact .of_same rfl rfl rfl rfl id id le_rfl

theorem settleExpire_kept (c : ChainId) (s : State) : BoardsKept leaves placed s (settleExpire c s) := by
  simp only [settleExpire]
  split
  · next hexpires =>
    have hended := (applyReload_kept (leaves := leaves c) s.chains[c]).trans (applyPendingReset_kept _)
    have hstate : (applyPendingReset (applyReload s.chains[c])).state = .settling := by
      simp only [applyPendingReset, applyReload]
      split <;> split <;> exact hexpires.1
    simp only [settleComplete]
    split
    · exact .setChain hended.goOffline
    · split
      · exact (BoardsKept.setChain hended.goOffline).congr_right (boardView_raiseAlert _ _)
      · refine (BoardsKept.setChain (.of_leaving (.inr fun ho => ?_) fun hf => ?_)).trans (wakeChain_kept c _)
        · rw [hexpires.1] at ho
          cases ho
        · obtain ⟨-, -, -, -, hsense, hfaults⟩ := hended.fits hf
          constructor <;> simp_all [backToIdle, startTimer]
  · exact .refl s

/-- A change of the sense level: to present may bring the chain out of OFFLINE (R82, R83). -/
theorem senseChange_kept (c : ChainId) (present : Bool) (s : State) (h : present = true → leaves c) :
    BoardsKept leaves placed s (senseChange c present s) := by
  have hraised : (raiseAlert (.chainSense c) s).boardView = s.boardView := rfl
  have hchain : (raiseAlert (.chainSense c) s).chains[c] = s.chains[c] := rfl
  simp only [senseChange]
  split
  · refine .congr_left hraised (.setChain ⟨fun hf => ?_, fun _ _ => rfl⟩)
    obtain ⟨-, -, -, -, -, hfaults⟩ := hf
    constructor <;> simp [goOffline]
  · next hpresent =>
    have hp : present = true := by simpa using hpresent
    split
    · refine .congr_left hraised ((BoardsKept.setChain (.of_leaving (.inl (h hp)) fun hf => ?_)).trans (wakeChain_kept c _))
      rw [hchain] at hf
      obtain ⟨-, -, -, -, -, hfaults⟩ := hf
      constructor <;> simp_all [enterIdle, startTimer]
    · refine .congr_left hraised (.setChain ?_)
      exact .of_same rfl rfl rfl rfl id (fun hs => absurd hs (by simp [hp])) le_rfl

theorem enableChanged_fits {ch : Chain} (h : ch.Fits) : (enableChanged ch).Fits := by
  simp only [enableChanged]
  split
  · split
    · next hc => exact h.enterIdle hc.2.1
    · exact h
  · split
    · exact h.goOffline
    · exact h

/-- A CHAIN entry may bring its chain out of OFFLINE (R85). -/
theorem applyChainEntry_kept {c : ChainId} (e : ChainEntry) (s : State) (h : leaves c) :
    BoardsKept leaves placed s (applyChainEntry c e s) := by
  have hentry : ChainKept (leaves c) s.chains[c] { s.chains[c] with entry := e } :=
    .of_same rfl rfl rfl rfl id id le_rfl
  simp only [applyChainEntry]
  refine (BoardsKept.setChain (.of_leaving (.inl h) fun hf => ?_)).trans (wakeChain_kept c _)
  have hloaded := (reloaded_kept (leaves := leaves c) _).fits (hentry.fits hf)
  split
  · exact hloaded
  · exact enableChanged_fits hloaded

theorem applyModuleEntry_kept (c : ChainId) (k : Fin 64) (m : ModuleKind) (s : State) :
    BoardsKept leaves placed s (applyModuleEntry c k m s) := by
  have hmodules : ChainKept (leaves c) s.chains[c] { s.chains[c] with modules := s.chains[c].modules.set k m } :=
    .of_same rfl rfl rfl rfl id id le_rfl
  exact (BoardsKept.setChain (hmodules.trans (reloaded_kept _))).trans (wakeChain_kept c _)

/-- A CHAIN RESET may bring its chain out of OFFLINE (R86). -/
theorem chainResetAt_kept {c : ChainId} (s : State) (h : leaves c) : BoardsKept leaves placed s (chainResetAt c s) := by
  have hpends : BoardsKept leaves placed s (s.setChain c { s.chains[c] with resetPending := true }) :=
    .setChain (.of_same rfl rfl rfl rfl id id le_rfl)
  have hrest : BoardsKept leaves placed s (chainResetAtRest c s) := by
    have hreset := applyChainReset_kept (leaves := leaves c) s.chains[c]
    simp only [chainResetAtRest]
    split
    · next hc =>
      rw [Bool.and_eq_true] at hc
      exact (BoardsKept.setChain (.of_leaving (.inl h) fun hf => (hreset.fits hf).enterIdle hc.2)).trans (wakeChain_kept c _)
    · exact .setChain hreset
  simp only [chainResetAt]
  split
  · exact hpends
  · exact hpends
  · exact hrest
  · exact hrest

theorem pwmStart_kept (c : ChainId) (s : State) : BoardsKept leaves placed s (pwmStart c s) :=
  .setChain (.of_same rfl rfl rfl rfl id id le_rfl)

theorem clearLatch_kept (named : AlertSet) (c : ChainId) (s : State) : BoardsKept leaves placed s (clearLatch named c s) := by
  simp only [clearLatch]
  split
  · exact .setChain (.of_same rfl rfl rfl rfl id id le_rfl)
  · exact .refl s

theorem clearAlertsNamed_kept (named : AlertSet) (s : State) : BoardsKept leaves placed s (clearAlertsNamed named s) := by
  simp only [clearAlertsNamed]
  refine .congr_left (boardView_setMgmt s { s.mgmt with alertStatus := s.mgmt.alertStatus &&& ~~~named }) ?_
  exact (clearLatch_kept named 0 _).trans ((clearLatch_kept named 1 _).trans
    ((clearLatch_kept named 2 _).trans (clearLatch_kept named 3 _)))

end

end Sys2Proof.Machine

namespace Sys2Proof.Machine

open Sys2Proof.Safety

section
variable {leaves : ChainId → Prop} {placed : Prop}

/-! ## Marks of the slots and hand-offs (R9, R12, R96 to R110) -/

/-- Every slot changed in place, by a change that keeps its description. -/
theorem setSlots_map_kept {f : Slot → Slot} (hf : ∀ sl, description (f sl) = description sl) (s : State) :
    BoardsKept leaves placed s (s.setSlots (s.slots.map (fun e => (e.1, f e.2)))) := by
  refine .of_slots (fun _ => .refl _ _) (fun n => ?_) ?_ rfl
  · rw [setSlots_slots, tableGet_map f, Option.map_map]
    congr 1
    exact funext hf
  · simp only [slotNumbers, setSlots_slots, List.map_map, Function.comp_def]

theorem markSlots_kept (pick : Slot → Bool) {f : Slot → Slot} (hf : ∀ sl, description (f sl) = description sl)
    (s : State) : BoardsKept leaves placed s (markSlots pick f s) := by
  have hmap : s.slots.map (fun e => if pick e.2 then (e.1, f e.2) else e)
      = s.slots.map (fun e => (e.1, if pick e.2 then f e.2 else e.2)) := by
    congr 1
    funext e
    split <;> rfl
  rw [markSlots, hmap]
  refine (setSlots_map_kept (f := fun sl => if pick sl then f sl else sl) (fun sl => ?_) s).trans (wakeChains_kept _)
  split
  · exact hf sl
  · rfl

theorem markStatus_kept (s : State) : BoardsKept leaves placed s (markStatus s) := markSlots_kept _ (f := dirtied) (fun _ => rfl) s

theorem markAllSlots_kept (s : State) : BoardsKept leaves placed s (markAllSlots s) :=
  markSlots_kept _ (f := dirtied) (fun _ => rfl) s

theorem minuteChange_kept (s : State) : BoardsKept leaves placed s (minuteChange s) :=
  (markSlots_kept _ (f := dirtied) (fun _ => rfl) s).congr_right (boardView_statusLinesPending _)

theorem markMessages_kept (k : StackId) (s : State) : BoardsKept leaves placed s (markMessages k s) :=
  markSlots_kept _ (f := dirtied) (fun _ => rfl) s

theorem handLevel_kept (s : State) : BoardsKept leaves placed s (handLevel s) :=
  (markStatus_kept s).congr_right (boardView_statusLinesPending _)

theorem boardView_rowsTakeNames (n : Nat) (names : NameSet) (s : State) :
    (rowsTakeNames n names s).boardView = s.boardView := rfl

theorem boardView_rowsTakeDeletion (n : Nat) (s : State) : (rowsTakeDeletion n s).boardView = s.boardView := rfl

theorem handNames_kept (n : Nat) (names : NameSet) (s : State) : BoardsKept leaves placed s (handNames n names s) := by
  simp only [handNames]
  split
  · exact .refl s
  · exact (markSlots_kept _ (description_slotTakes names _) s).congr_right (boardView_rowsTakeNames n names _)

theorem handDeletion_kept (n : Nat) (s : State) : BoardsKept leaves placed s (handDeletion n s) :=
  (markSlots_kept (quotesRecord n) (f := fun sl => { dirtied sl with flash := none }) (fun _ => rfl) s).congr_right
    (boardView_rowsTakeDeletion n _)

/-! ## Records (chapter 1) -/

/-- A record written, at a number that the table has. -/
theorem updateRecord_kept {n : Nat} {s : State} (hn : placed → tableWf 512 s.records → n < 512) (r : QuoteRecord)
    (names : NameSet) : BoardsKept leaves placed s (updateRecord n r names s) :=
  (BoardsKept.setRecords fun hp hs => tableWf_tableSet r hs (hn hp hs)).trans (handNames_kept n names _)

/-- A DEFINED record rewritten. -/
theorem updateRecord_defined_kept {n : Nat} {s : State} {old : QuoteRecord} (h : tableGet s.records n = some old)
    (r : QuoteRecord) (names : NameSet) : BoardsKept leaves placed s (updateRecord n r names s) :=
  updateRecord_kept (fun _ hs => lt_of_tableGet hs h) r names

/-- A DEFINED record rewritten, and nothing handed on. -/
theorem setRecord_defined_kept {n : Nat} {s : State} {old : QuoteRecord} (h : tableGet s.records n = some old)
    (r : QuoteRecord) : BoardsKept leaves placed s (s.setRecords (tableSet s.records n r)) :=
  .setRecords fun _ hs => tableWf_tableSet r hs (lt_of_tableGet hs h)

theorem markAllStale_kept (s : State) : BoardsKept leaves placed s (markAllStale s) := by
  refine .foldl (fun u n => ?_) _ s
  simp only [markStale]
  split
  · next r hr =>
    split
    · exact .refl u
    · exact updateRecord_defined_kept hr _ _
  · exact .refl u

theorem afterGap_kept (e : IntakeEntry) (s : State) : BoardsKept leaves placed s (afterGap e s) := by
  simp only [afterGap]
  split
  · exact markAllStale_kept s
  · exact .refl s

theorem recordsDayReset_kept (s : State) : BoardsKept leaves placed s (recordsDayReset s) := by
  refine .foldl (fun u n => ?_) _ s
  simp only [dayResetOne]
  split
  · next r hr => exact updateRecord_defined_kept hr _ _
  · exact .refl u

theorem applyTrade_kept (q : TradeItems) (s : State) : BoardsKept leaves placed s (applyTrade q s) := by
  simp only [applyTrade]
  split
  · exact .refl s
  · split
    · exact .refl s
    · next r hr =>
      have hupdated (names : NameSet) : BoardsKept leaves placed s (updateRecord _ (tradedRecord q r) names s) :=
        updateRecord_defined_kept hr _ _
      split
      · exact (hupdated _).congr_right (boardView_offerPrint _ _)
      · exact hupdated _

theorem applyQuote_kept (q : QuoteItems) (s : State) : BoardsKept leaves placed s (applyQuote q s) := by
  simp only [applyQuote]
  split
  · exact .refl s
  · split
    · exact .refl s
    · next r hr => exact updateRecord_defined_kept hr _ _

theorem applySymbolState_kept (q : SymbolStateItems) (s : State) :
    BoardsKept leaves placed s (applySymbolState q s) := by
  simp only [applySymbolState]
  split
  · exact .refl s
  · split
    · exact .refl s
    · next r hr =>
      have hupdated : BoardsKept leaves placed s (updateRecord _ { r with state := stateAfter q.halt r } nameState s) :=
        updateRecord_defined_kept hr _ _
      split
      · exact .refl s
      · split
        · exact hupdated
        · exact hupdated.congr_right (boardView_offerText _ _ _)

theorem applyRecap_kept (q : RecapItems) (s : State) : BoardsKept leaves placed s (applyRecap q s) := by
  simp only [applyRecap]
  split
  · exact .refl s
  · split
    · exact .refl s
    · next r hr => exact updateRecord_defined_kept hr _ _

/-- A SYMBOL entry of a number that the table has (R7 to R11). -/
theorem applySymbolEntry_kept {n : Nat} {x : List Byte} {s t : State} (h : applySymbolEntry n x s = some t) :
    BoardsKept leaves (n < 512) s t := by
  rcases applySymbolEntry_cases h with rfl | ⟨q, -, -, ⟨-, -, rfl⟩ | ⟨r, hr, ⟨-, rfl⟩ | rfl | ⟨-, -, rfl⟩⟩⟩
  · exact .refl t
  · exact .congr_left (boardView_setDirectory s _) (updateRecord_kept (fun hn _ => hn) _ _)
  · refine .congr_left (boardView_setDirectory s _) (.trans (.setRecords fun _ hs => ?_) (handDeletion_kept n _))
    exact tableWf_tableErase n hs
  · exact updateRecord_defined_kept hr _ _
  · refine .congr_left (boardView_setDirectory s _)
      ((BoardsKept.setRecords fun hn hs => ?_).trans ((handDeletion_kept n _).trans (handNames_kept n allNames _)))
    exact tableWf_tableSet _ hs hn

/-! ## Slots (R93, R94, R99) -/

/-- A slot written over one of the same description. -/
theorem setSlot_same_kept {n : Nat} {sl old : Slot} {s : State} (hget : tableGet s.slots n = some old)
    (hsl : description sl = description old) : BoardsKept leaves placed s (s.setSlots (tableSet s.slots n sl)) where
  chain _ := .refl _ _
  claims := claimsDisjoint_of_descriptions fun m => by
    rw [setSlots_slots, tableGet_tableSet]
    split
    · next hm => rw [hm, hget, Option.map_some, Option.map_some, hsl]
    · rfl
  slots _ hs := tableWf_tableSet sl hs (lt_of_tableGet hs hget)
  records _ := id

theorem flashExpire_kept (n : Nat) (s : State) : BoardsKept leaves placed s (flashExpire n s) := by
  simp only [flashExpire]
  split
  · next sl hsl =>
    split
    · exact (setSlot_same_kept (sl := { dirtied sl with flash := none }) hsl rfl).trans (wakeChains_kept _)
    · exact .refl s
  · exact .refl s

/-- R93: a slot whose cells no other claims joins the others. -/
theorem claimsDisjoint_tableSet {n : Nat} {sl : Slot} {s t : State} (hfree : claimTaken s.slots n sl = false)
    (ht : t.slots = tableSet s.slots n sl) (hs : ClaimsDisjoint s) : ClaimsDisjoint t := by
  have hnone {m : Nat} {a : Slot} (ha : tableGet s.slots m = some a) (hm : m ≠ n) (c : ChainId) (cell : Nat) :
      ¬ (claimsCell c cell a = true ∧ claimsCell c cell sl = true)
        ∧ ¬ (claimsLamp c cell a = true ∧ claimsLamp c cell sl = true) := by
    have hcross : claimsCross a sl = false := by
      by_contra hc
      have htaken : claimTaken s.slots n sl = true :=
        List.any_eq_true.mpr ⟨(m, a), mem_of_tableGet ha, by simp [hm, hc]⟩
      rw [hfree] at htaken
      cases htaken
    have hcell (h : ∃ k, (claimsCell sl.chain k a = true ∧ claimsCell sl.chain k sl = true)
        ∨ (claimsLamp sl.chain k a = true ∧ claimsLamp sl.chain k sl = true)) : False := by
      rw [← claimsCross_iff, hcross] at h
      cases h
    refine ⟨fun ⟨hca, hcs⟩ => hcell ⟨cell, .inl ?_⟩, fun ⟨hca, hcs⟩ => hcell ⟨cell, .inr ?_⟩⟩
    all_goals
      have hc : sl.chain = c := by simp_all [claimsCell, claimsLamp]
      subst hc
      exact ⟨hca, hcs⟩
  intro p m a b ha hb hne c cell
  rw [ht, tableGet_tableSet] at ha hb
  split at ha
  · next hp =>
    obtain rfl := Option.some.inj ha
    rw [if_neg fun hm => hne (hp.trans hm.symm)] at hb
    obtain ⟨hcells, hlamps⟩ := hnone hb (fun hm => hne (hp.trans hm.symm)) c cell
    exact ⟨fun h => hcells h.symm, fun h => hlamps h.symm⟩
  · next hp =>
    split at hb
    · obtain rfl := Option.some.inj hb
      exact hnone ha hp c cell
    · exact hs p m a b ha hb hne c cell

theorem resyncFormer_kept (n : Nat) (s : State) : BoardsKept leaves placed s (resyncFormer n s) := by
  simp only [resyncFormer]
  split
  · exact .setChain (.of_same rfl rfl rfl rfl id id le_rfl)
  · exact .refl s

theorem resyncFormer_slots (n : Nat) (s : State) : (resyncFormer n s).slots = s.slots := by
  simp only [resyncFormer]
  split <;> rfl

/-- A SLOT entry of a number that the table has. -/
theorem applySlotEntry_kept {n : Nat} {x : List Byte} {s t : State} (h : applySlotEntry n x s = some t) :
    BoardsKept leaves (n < 256) s t := by
  simp only [applySlotEntry] at h
  split at h
  · cases h
  · obtain rfl := Option.some.inj h
    refine (resyncFormer_kept n s).trans (BoardsKept.trans ?_ (wakeChains_kept _))
    refine ⟨fun _ => .refl _ _, fun hs => ?_, fun _ hs => ?_, fun _ => id⟩
    · intro p m a b ha hb
      simp only [setSlots_slots, tableGet_tableErase, ← resyncFormer_slots n s] at ha hb
      split at ha
      · cases ha
      · split at hb
        · cases hb
        · exact hs p m a b ha hb
    · rw [resyncFormer_slots] at hs
      exact tableWf_tableErase n hs
  · next sl _ =>
    split at h
    · cases h
    · next htaken =>
      obtain rfl := Option.some.inj h
      refine (resyncFormer_kept n s).trans (BoardsKept.trans ?_ (wakeChains_kept _))
      rw [← resyncFormer_slots n s] at htaken ⊢
      refine ⟨fun _ => .refl _ _, ?_, fun hn hs => tableWf_tableSet sl hs hn, fun _ => id⟩
      exact claimsDisjoint_tableSet (by simpa using htaken) rfl

theorem snapshotAfterLoad_kept (s u : State) (c : ChainId) (v : State) :
    BoardsKept leaves placed v (snapshotAfterLoad s u c v) := by
  simp only [snapshotAfterLoad]
  split
  · have hclean : BoardsKept leaves placed v (v.setSlots (clearDirty c v.slots)) := by
      rw [clearDirty_eq_map]
      refine setSlots_map_kept (f := fun sl => if sl.chain = c then { sl with dirty := false } else sl) (fun sl => ?_) v
      split <;> rfl
    exact hclean.trans (.setChain (.of_same rfl (by simp) rfl rfl id id le_rfl))
  · exact .refl v

theorem applySlotTable_kept {s : State} {n : Nat} {x : List Byte} {u v : State}
    (h : applySlotTable s n x u = some v) : BoardsKept leaves (n < 256) u v := by
  obtain ⟨w, hw, rfl⟩ := Option.map_eq_some_iff.mp h
  exact (applySlotEntry_kept hw).trans ((snapshotAfterLoad_kept _ _ 0 _).trans ((snapshotAfterLoad_kept _ _ 1 _).trans
    ((snapshotAfterLoad_kept _ _ 2 _).trans (snapshotAfterLoad_kept _ _ 3 _))))

/-! ## Rows and their watch counts (R155, R156) -/

theorem changeWatch_kept (f : Nat → Nat) (n : Nat) (s : State) : BoardsKept leaves placed s (changeWatch f n s) := by
  simp only [changeWatch]
  split
  · next r hr => exact setRecord_defined_kept hr _
  · exact .refl s

theorem changeRow_kept (x : TermId) (i : Fin 16) (item : Option Nat) (s : State) :
    BoardsKept leaves placed s (changeRow x i item s) := by
  have lowered (record : Option Nat) (v : State) : BoardsKept leaves placed v (lowerWatch record v) := by
    cases record with
    | none => exact .refl v
    | some n => exact changeWatch_kept (· - 1) n v
  have raised (record : Option Nat) (v : State) : BoardsKept leaves placed v (raiseWatch record v) := by
    cases record with
    | none => exact .refl v
    | some n => exact changeWatch_kept (· + 1) n v
  simp only [changeRow]
  exact (BoardsKept.congr_left (boardView_setTerm s x _) (lowered _ _)).trans (raised _ _)

theorem applyTerminalTable_kept {n : Nat} {x : List Byte} {s t : State} (h : applyTerminalTable n x s = some t) :
    BoardsKept leaves placed s t := by
  simp only [applyTerminalTable] at h
  split at h
  · simp only [applyTerminalEntry] at h
    split at h
    · cases h
    · split at h
      · obtain rfl := Option.some.inj h
        refine BoardsKept.congr_right ?_ (boardView_setEnabled _ _ _)
        refine .congr_left (boardView_setTerm s _ _) (.foldl (fun v item => ?_) _ _)
        simp only [applyTerminalEntry.loadRow]
        split
        · exact .refl v
        · exact changeRow_kept _ _ _ v
      · cases h
  · cases h

end

end Sys2Proof.Machine

namespace Sys2Proof.Machine

open Sys2Proof.Safety

section
variable {leaves : ChainId → Prop} {placed : Prop}

/-! ## The ticker (chapter 7) -/

theorem updateLevel_kept (lateness : Nat) (s : State) : BoardsKept leaves placed s (updateLevel lateness s) := by
  by_cases h : nextLevel s lateness = s.ticker.level
  · rw [updateLevel_of_stay h]
    exact .refl s
  · have hset : (levelSet lateness s).boardView = s.boardView := rfl
    rw [updateLevel_of_change h]
    exact .congr_left hset ((handLevel_kept _).congr_right (boardView_offerText _ _ _))

theorem setTapeFields_kept (p : Print) (s : State) : BoardsKept leaves placed s (setTapeFields p s) := by
  simp only [setTapeFields]
  split
  · exact .refl s
  · next r hr => exact setRecord_defined_kept (tableGet_of_matchingRecord hr) _

theorem printComposed_kept (p : Print) (s : State) : BoardsKept leaves placed s (printComposed p s) := by
  simp only [printComposed]
  refine .congr_left (boardView_condense s p) ((setTapeFields_kept (condense p s).1 _).congr_right ?_)
  simp only [boardView_beginText, boardView_onTicker]

theorem compose_kept (fuel : Nat) : ∀ s : State, BoardsKept leaves placed s (compose fuel s).2 := by
  induction fuel with
  | zero => exact .refl
  | succ k ih =>
    intro s
    simp only [compose]
    split
    · exact .refl s
    · exact .of_view (by simp only [boardView_beginText, boardView_setQueue])
    · next p rest _ =>
      have hlevel : BoardsKept leaves placed s (updateLevel (latenessOf s.time p.time) (setQueue rest s)) :=
        .congr_left (boardView_setQueue s rest) (updateLevel_kept _ _)
      split
      · exact (hlevel.congr_right (boardView_countOmitted _ 1)).trans (ih _)
      · exact hlevel.trans (printComposed_kept p _)

theorem stopTicker_kept (s : State) : BoardsKept leaves placed s (stopTicker s) := by
  simp only [stopTicker]
  split
  · exact .of_view (boardView_onTicker s _)
  · exact .congr_left (boardView_onTicker s _) (handLevel_kept _)

theorem tickerDayReset_kept (s : State) : BoardsKept leaves placed s (tickerDayReset s) := by
  simp only [tickerDayReset]
  split
  · exact .of_view (boardView_onTicker s _)
  · exact .congr_left (boardView_onTicker s _) (handLevel_kept _)

theorem compositionStep_kept (s : State) : BoardsKept leaves placed s (compositionStep s) := by
  have h := compose_kept (leaves := leaves) (placed := placed) (s.ticker.queue.length + 1) s
  simp only [compositionStep]
  split
  · next t ht => rwa [ht] at h
  · next t ht =>
    rw [ht] at h
    split
    · exact h.trans (.congr_left (boardView_emitBlank t) (stopTicker_kept _))
    · exact h.congr_right (boardView_emitBlank t)

theorem stepExpire_kept (s : State) : BoardsKept leaves placed s (stepExpire s) := by
  have hemit : BoardsKept leaves placed s (emitStep s) := by
    simp only [emitStep]
    split
    · exact .of_view (boardView_setTicker s _)
    · split
      · exact .of_view (boardView_setTicker s _)
      · exact compositionStep_kept s
  simp only [stepExpire]
  split
  · exact hemit.congr_right (boardView_restartStep _)
  · exact .refl s

theorem boardView_tickerFlushAt (s : State) : (tickerFlushAt s).boardView = s.boardView := by
  simp only [tickerFlushAt, boardView_countOmitted, boardView_setQueue]

/-! ## The clock, the session and the bulletin stacks (chapters 4 and 6) -/

theorem secondExpire_kept (s : State) : BoardsKept leaves placed s (secondExpire s) := by
  simp only [secondExpire]
  split
  · exact .congr_left (boardView_setTime s _) (minuteChange_kept _)
  · exact .of_view (boardView_setTime s _)

theorem applyClock_kept (q : TimeOfDay) (s : State) : BoardsKept leaves placed s (applyClock q s) := by
  simp only [applyClock]
  split
  · exact .congr_left (boardView_setTime s _) (minuteChange_kept _)
  · exact .of_view (boardView_setTime s _)

theorem handSession_kept (old new : SessionState) (s : State) : BoardsKept leaves placed s (handSession old new s) :=
  (markStatus_kept s).congr_right (by simp only [handSession, boardView_lineSession, boardView_tickerSession])

theorem dayReset_kept (s : State) : BoardsKept leaves placed s (dayReset s) :=
  (recordsDayReset_kept s).trans ((tickerDayReset_kept _).trans (markAllSlots_kept _))

theorem applySession_kept (code : SessionCode) (s : State) : BoardsKept leaves placed s (applySession code s) := by
  simp only [applySession]
  split
  · exact .refl s
  · next new _ =>
    have hhanded : BoardsKept leaves placed s
        (handSession s.time.session new (s.setTime { s.time with session := new })) :=
      .congr_left (boardView_setTime s _) (handSession_kept _ _ _)
    split
    · exact .refl s
    · split
      · exact hhanded.trans (dayReset_kept _)
      · exact hhanded

theorem applyPush_kept (b : BulletinItems) (s : State) : BoardsKept leaves placed s (applyPush b s) := by
  simp only [applyPush]
  split
  · exact .congr_left (boardView_setStack s _ _) ((markMessages_kept _ _).congr_right (boardView_offerText _ _ _))
  · exact .congr_left (boardView_setStack s _ _) (markMessages_kept _ _)

theorem applyPop_kept (b : BulletinItems) (s : State) : BoardsKept leaves placed s (applyPop b s) := by
  simp only [applyPop]
  split
  · exact .refl s
  · exact .congr_left (boardView_setStack s _ _) ((markMessages_kept _ _).congr_right (boardView_offerUncovered _ _))

theorem applyClear_kept (b : BulletinItems) (s : State) : BoardsKept leaves placed s (applyClear b s) := by
  simp only [applyClear]
  split
  · exact .refl s
  · exact .congr_left (boardView_setStack s _ _) (markMessages_kept _ _)

theorem bulletinExpire_kept (k : StackId) (place : Nat) (s : State) :
    BoardsKept leaves placed s (bulletinExpire k place s) := by
  simp only [bulletinExpire]
  split
  · exact .refl s
  · split
    · split
      · exact .congr_left (boardView_setStack s _ _) ((markMessages_kept _ _).congr_right (boardView_offerUncovered _ _))
      · exact .of_view (boardView_setStack s k _)
    · exact .refl s

/-! ## The feed line (chapter 3) -/

theorem handFeedState_kept (new : FeedState) (s : State) : BoardsKept leaves placed s (handFeedState new s) := by
  have hmarked : BoardsKept leaves placed s (statusLinesPending (markStatus s)) :=
    (markStatus_kept s).congr_right (boardView_statusLinesPending _)
  simp only [handFeedState]
  split
  · exact hmarked.congr_right (boardView_offerText _ _ _)
  · exact hmarked

theorem silenceExpire_kept (s : State) : BoardsKept leaves placed s (silenceExpire s) := by
  simp only [silenceExpire]
  split
  · refine .congr_left ?_ ((markAllStale_kept _).trans (handFeedState_kept _ _))
    simp only [boardView_raiseAlert, boardView_setFeed]
  · exact .refl s

theorem arrivalSeen_kept (s : State) : BoardsKept leaves placed s (arrivalSeen s) := by
  simp only [arrivalSeen, setFeedState]
  split
  · exact .of_view (boardView_setFeed s _)
  · exact .congr_left (by simp only [boardView_setFeed]) (handFeedState_kept _ _)

theorem arrive_kept (body : List Byte) (s : State) : BoardsKept leaves placed s (arrive body s) := by
  have hseen := arrivalSeen_kept (leaves := leaves) (placed := placed) s
  simp only [arrive]
  split
  · exact hseen
  · next t ht =>
    have hchecked := hseen.congr_right (boardView_sequenceChecked _ ht)
    split
    · exact hchecked.congr_right (boardView_offerIntake _ _)
    · exact hchecked

theorem settleReception_kept (r : Receiver × RxEvent) (s : State) : BoardsKept leaves placed s (settleReception r s) := by
  simp only [settleReception]
  split
  · exact .of_view (boardView_setFeed s _)
  · exact .congr_left (boardView_setFeed s _) (arrive_kept _ _)

theorem feedBits_kept (bits : List Bool) (s : State) : BoardsKept leaves placed s (feedBits bits s) :=
  .foldl (fun s _ => settleReception_kept _ s) bits s

theorem takeLastByte_kept (low : Byte) (s : State) : BoardsKept leaves placed s (takeLastByte low s) := by
  simp only [takeLastByte]
  split
  · exact settleReception_kept _ s
  · exact feedBits_kept _ s

/-! ## The terminal line (chapters 8 and 9) -/

theorem applyRequest_kept (x : TermId) (request : Option Request) (s : State) :
    BoardsKept leaves placed s (applyRequest x request s) := by
  have refused (code : ResultCode) (row : Byte) : BoardsKept leaves placed s (placeResult x code row s) :=
    .of_view (boardView_placeResult s x code row)
  have changed (i : Fin 16) (item : Option Nat) (code : ResultCode) (row : Byte) :
      BoardsKept leaves placed s (placeResult x code row (changeRow x i item s)) :=
    (changeRow_kept x i item s).congr_right (boardView_placeResult _ x code row)
  match request with
  | none => exact .refl s
  | some (.add row symbol) =>
    simp only [applyRequest, applyAdd]
    repeat' split
    case h_2 => exact changed _ _ _ _
    all_goals exact refused _ _
  | some (.drop row) =>
    simp only [applyRequest, applyDrop]
    repeat' split
    case h_2.isFalse => exact changed _ _ _ _
    all_goals exact refused _ _

/-- What the outcome of a transaction comes to: a miss, or a change of the line and of rows. -/
theorem applyOutcome_kept (kind : PrimaryKind) (x : TermId) (o : LineOutcome) (s : State) :
    BoardsKept leaves placed s (applyOutcome kind x o s) := by
  have requested (term : Terminal) (request : Option Request) :
      BoardsKept leaves placed s (applyRequest x request (s.setTerm x term)) :=
    .congr_left (boardView_setTerm s x term) (applyRequest_kept x request _)
  have set (term : Terminal) : BoardsKept leaves placed s (s.setTerm x term) := .of_view (boardView_setTerm s x term)
  have missed (after : TermState) : BoardsKept leaves placed s (miss x after s) := .of_view (boardView_miss s x after)
  cases kind with
  | activate =>
    simp only [applyOutcome, activateOutcome]
    split
    all_goals exact set _
  | screenInit =>
    simp only [applyOutcome, screenInitOutcome]
    split
    · split
      · exact requested _ _
      · exact missed _
    · exact .refl s
    all_goals exact missed _
  | poll =>
    simp only [applyOutcome, pollOutcome]
    split
    · exact requested _ _
    · exact .refl s
    all_goals exact missed _
  | update =>
    simp only [applyOutcome, updateOutcome]
    split
    · split
      · exact requested _ _
      · exact set _
    · exact set _
    all_goals exact missed _
  | enquiry =>
    simp only [applyOutcome, enquiryOutcome]
    split
    · split
      all_goals exact set _
    all_goals exact missed _

theorem endTransaction_kept (o : LineOutcome) (s : State) : BoardsKept leaves placed s (endTransaction o s) := by
  simp only [endTransaction]
  split
  · exact .refl s
  · next tx _ =>
    refine (applyOutcome_kept tx.kind tx.terminal o s).congr_right ?_
    simp only [boardView_freeLine, boardView_applyWaiting]

theorem takeCharacter_kept (b : Byte) (s : State) : BoardsKept leaves placed s (takeCharacter b s) := by
  have gathered (line : TerminalLine) (o : LineOutcome) :
      BoardsKept leaves placed s (endTransaction o (s.setLine line)) :=
    .congr_left (boardView_setLine s line) (endTransaction_kept o _)
  simp only [takeCharacter]
  split
  · exact .refl s
  · split
    · exact .refl s
    · split
      · exact .refl s
      · split
        · exact gathered _ _
        · split
          · exact gathered _ _
          · exact .of_view (boardView_setLine s _)

theorem responseExpire_kept (s : State) : BoardsKept leaves placed s (responseExpire s) := by
  simp only [responseExpire]
  split
  · split
    · exact endTransaction_kept _ s
    · exact .refl s
  · exact .refl s

end

end Sys2Proof.Machine

namespace Sys2Proof.Machine

open Sys2Proof.Safety

section
variable {leaves : ChainId → Prop} {placed : Prop}

/-! ## The head of the intake queue (R50, R167, R171) -/

theorem takeHead_kept {step : FrameStep} {apply : List Byte → State → State}
    (h : ∀ body s, BoardsKept leaves placed s (apply body s)) (s : State) :
    BoardsKept leaves placed s (takeHead step apply s) := by
  simp only [takeHead]
  split
  · exact .refl s
  · next e _ _ =>
    split
    · exact ((afterGap_kept e s).trans (h e.body (afterGap e s))).congr_right (boardView_setIntake _ _)
    · exact .refl s

theorem applyItems_kept {α : Type} {items : List Byte → Option α} {apply : α → State → State}
    (h : ∀ x s, BoardsKept leaves placed s (apply x s)) (body : List Byte) (s : State) :
    BoardsKept leaves placed s (applyItems items apply body s) := by
  simp only [applyItems]
  split
  · exact h _ s
  · exact .refl s

theorem applyControl_kept {length : Nat} {act : List Byte → State → Option State}
    (h : ∀ p s t, act p s = some t → BoardsKept leaves placed s t) (body : List Byte) (s : State) :
    BoardsKept leaves placed s (applyControl length act body s) := by
  simp only [applyControl]
  split
  · exact .of_view (boardView_replyTo s _ _)
  · split
    · next t ht => exact (h _ s t ht).congr_right (boardView_replyTo t _ _)
    · exact .of_view (boardView_replyTo s _ _)

/-- An entry of a table, at a number that the table has. -/
theorem tableApply_kept (table : LoadTable) (h : table = .chain → ∀ c, leaves c) {s : State} {n : Nat} {x : List Byte}
    {u v : State} (hv : table.apply s n x u = some v) : BoardsKept leaves (n < table.size) u v := by
  cases table with
  | param => exact .of_view (boardView_applyParamEntry u hv)
  | symbol => exact applySymbolEntry_kept hv
  | slot => exact applySlotTable_kept hv
  | chain =>
    simp only [LoadTable.apply, applyChainTable] at hv
    split at hv
    · obtain rfl := Option.some.inj hv
      exact applyChainEntry_kept _ u (h rfl _)
    · cases hv
  | module =>
    simp only [LoadTable.apply, applyModuleTable] at hv
    split at hv
    · obtain rfl := Option.some.inj hv
      exact applyModuleEntry_kept _ _ _ u
    · cases hv
  | terminal => exact applyTerminalTable_kept hv

/-- The next entry of a LOAD whose range its table has. -/
theorem loadNext_kept {size entrySize : Nat} {apply : Nat → List Byte → State → Option State} {body : List Byte}
    {u : State} (hrange : placed → at16 (payload body) 1 + at16 (payload body) 3 ≤ size)
    (h : ∀ n x v, apply n x u = some v → BoardsKept leaves (n < size) u v) (done : Nat) :
    BoardsKept leaves placed u (loadNext entrySize apply body done u) := by
  simp only [loadNext]
  split
  · exact .of_view (boardView_loadEnds u _ _)
  · next hdone =>
    split
    · exact .of_view (boardView_loadEnds u _ _)
    · next v hv =>
      have hentry : BoardsKept leaves placed u v := (h _ _ v hv).mono fun hp => by
        have := hrange hp
        omega
      split
      · exact hentry.congr_right (boardView_loadEnds v _ _)
      · exact hentry.congr_right (boardView_setLoad v _)

theorem loadTable_step_injective {table table' : LoadTable} (h : table.step = table'.step) : table = table' := by
  cases table <;> cases table' <;> simp_all only [LoadTable.step, reduceCtorEq]

/-- A step of a LOAD: its numbers are those of its table, where a LOAD under way has passed its checks (R167). -/
theorem takeLoad_kept (table : LoadTable) (h : table = .chain → ∀ c, leaves c) (s : State) :
    BoardsKept leaves (LoadPlaced s) s (takeLoad table.step table.size table.entrySize (table.apply s) s) := by
  simp only [takeLoad]
  split
  · exact .refl s
  · next e rest hintake =>
    split
    · next hstep =>
      split
      · next done hdone =>
        refine loadNext_kept (size := table.size) (fun hplaced => ?_) (fun n x v hv => tableApply_kept table h hv) done
        obtain ⟨e', rest', table', hintake', hstep', hrange, -, -⟩ := hplaced done hdone
        obtain ⟨rfl, -⟩ := List.cons.inj (hintake.symm.trans hintake')
        rwa [loadTable_step_injective (hstep.symm.trans hstep')]
      · refine (afterGap_kept e s).trans ?_
        rw [← afterGap]
        split
        · exact .of_view (boardView_loadEnds _ _ _)
        · next hcheck =>
          exact loadNext_kept (fun _ => (loadCheck_eq_none hcheck).1) (fun n x v hv => tableApply_kept table h hv) 0
    · exact .refl s

/-! ## Resets (R89, R90, R174, R175) -/

theorem coldState_kept (cause : ResetCause) (phase : Phase) (station : BitVec 6) (sense : Vector Bool 4) (s : State) :
    BoardsKept leaves placed s (coldState cause phase station sense s) := by
  have hcold (c : ChainId) : (coldState cause phase station sense s).chains[c] = coldChain sense[c] := by
    simp [coldState, coldChains]
  refine ⟨fun c => ?_, fun _ n m a b ha => ?_, fun _ _ => ?_, fun _ _ => ?_⟩
  · rw [hcold]
    exact ⟨fun _ => by constructor <;> simp [coldChain], fun _ _ => rfl⟩
  · cases ha
  · exact ⟨.nil, nofun⟩
  · exact ⟨.nil, nofun⟩

theorem abandonCycle_kept {leaves : Prop} (ch : Chain) : ChainKept leaves ch (abandonCycle ch) := by
  have hgone : ChainKept leaves ch { goOffline ch with reload := false, resetPending := false } :=
    (ChainKept.refl leaves ch).goOffline.trans (.of_same rfl rfl rfl rfl id id le_rfl)
  simp only [abandonCycle]
  split
  · exact hgone
  · exact .refl _ _

/-- Every chain changed by itself. -/
theorem BoardsKept.of_chains {f : Chain → Chain} {s t : State} (hf : ∀ c ch, ChainKept (leaves c) ch (f ch))
    (hchains : t.chains = s.chains.map f) (hslots : t.slots = s.slots) (hrecords : t.records = s.records) :
    BoardsKept leaves placed s t := by
  refine .of_slots (fun c => ?_) (fun n => by rw [hslots]) (congrArg (List.map Prod.fst) hslots) hrecords
  rw [hchains]
  simpa using hf c s.chains[c]

theorem pinTaken_kept (s : State) : BoardsKept leaves placed s (pinTaken s) :=
  .of_chains (fun _ => abandonCycle_kept) rfl rfl rfl

theorem fits_warmChain {ch : Chain} (h : ch.Fits) : (warmChain ch).Fits := by
  have hreset : Chain.Fits { ch with
      faultCount := 0, firstMismatch := none, reload := false, resetPending := false, senseLatch := false } :=
    { h with faults := Nat.zero_le _ }
  simp only [warmChain]
  split
  · next hc =>
    rw [Bool.and_eq_true] at hc
    exact hreset.enterIdle hc.2
  · exact hreset.goOffline

/-- A slot after a warm reset (R56, R104, R111, R134). -/
def warmSlot (statusChanged : Bool) (sl : Slot) : Slot :=
  { sl with flash := none, dirty := sl.dirty || (statusChanged && sl.kind == .status) }

theorem warmSlots_eq (statusChanged : Bool) (t : Table Slot) :
    warmSlots statusChanged t = t.map (fun e => (e.1, warmSlot statusChanged e.2)) := rfl

/-- A warm reset brings chains out of OFFLINE (R90). -/
theorem warmState_kept (straps : BitVec 6) (s : State) (h : ∀ c, leaves c) :
    BoardsKept leaves placed s (warmState straps s) := by
  refine ⟨fun c => ?_, claimsDisjoint_of_descriptions fun n => ?_, fun _ hs => ?_, fun _ hs => ?_⟩
  · have hwarm : (warmState straps s).chains[c] = warmChain s.chains[c] := by simp [warmState]
    rw [hwarm]
    exact .of_leaving (.inl (h c)) fits_warmChain
  · rw [show (warmState straps s).slots = warmSlots (warmStatusChanged s) s.slots from rfl, warmSlots_eq,
      tableGet_map (warmSlot (warmStatusChanged s)), Option.map_map]
    rfl
  · rw [show (warmState straps s).slots = warmSlots (warmStatusChanged s) s.slots from rfl, warmSlots_eq]
    exact tableWf_map (warmSlot (warmStatusChanged s)) hs
  · exact tableWf_map (fun r : QuoteRecord => { r with stale := true }) hs

theorem applyWarm_kept (straps : BitVec 6) (body : List Byte) (s : State) (h : ∀ c, leaves c) :
    BoardsKept leaves placed s (applyWarm straps body s) := by
  refine ((warmState_kept straps s h).trans (wakeChains_kept _)).congr_right ?_
  simp only [applyWarm, boardView_raiseAlert, boardView_replyTo, boardView_select]

/-! ## The commands -/

theorem whenRunning_kept {f : State → State} {s t : State} (h : BoardsKept leaves placed s (f s))
    (ht : whenRunning f s = .next t) : BoardsKept leaves placed s t := by
  obtain rfl := Host.Outcome.next.inj ht
  split
  · exact h
  · exact .refl s

theorem ite_kept {p : Prop} [Decidable p] {s t u v : State}
    (ht : Host.Outcome.next (if p then u else v) = (.next t : Answer)) (hu : BoardsKept leaves placed s u)
    (hv : BoardsKept leaves placed s v) : BoardsKept leaves placed s t := by
  obtain rfl := Host.Outcome.next.inj ht
  split
  · exact hu
  · exact hv

/-- A command that carries out the frame at the head of the intake queue. -/
theorem whenRunning_head_kept {step : FrameStep} {apply : List Byte → State → State}
    (h : ∀ body s, BoardsKept leaves placed s (apply body s)) {s t : State}
    (ht : whenRunning (takeHead step apply) s = .next t) : BoardsKept leaves placed s t :=
  whenRunning_kept (takeHead_kept h s) ht

/-- One that applies the items of a frame. -/
theorem whenRunning_items_kept {α : Type} {step : FrameStep} {items : List Byte → Option α} {apply : α → State → State}
    (h : ∀ x s, BoardsKept leaves placed s (apply x s)) {s t : State}
    (ht : whenRunning (takeHead step (applyItems items apply)) s = .next t) : BoardsKept leaves placed s t :=
  whenRunning_head_kept (applyItems_kept h) ht

theorem exec_load_kept (table : LoadTable) (h : table = .chain → ∀ c, leaves c) {s t : State}
    (ht : exec table.command s = .next t) : BoardsKept leaves (LoadPlaced s) s t := by
  rw [exec_load] at ht
  exact whenRunning_kept (takeLoad_kept table h s) ht

end

/-- The commands that may bring a chain out of OFFLINE (R83, R85, R86, R90). -/
def LeavesOffline (i : Instr) (c : ChainId) : Prop :=
  i = .chainSenseChange c true ∨ i = .loadChain ∨ i = .chainReset ∨ ∃ straps, i = .resetWarm straps

/-- Every command keeps the boards sound, and chains in OFFLINE but for those four. -/
theorem exec_kept (i : Instr) {s t : State} (h : exec i s = .next t) :
    BoardsKept (LeavesOffline i) (LoadPlaced s) s t := by
  cases i
  case feedFrameReceived low => exact whenRunning_kept (takeLastByte_kept low s) h
  case feedByteReceived unit => exact whenRunning_kept (feedBits_kept _ s) h
  case silenceTimerExpiry => exact whenRunning_kept (silenceExpire_kept s) h
  case trade => exact whenRunning_items_kept applyTrade_kept h
  case quote => exact whenRunning_items_kept applyQuote_kept h
  case symbolState => exact whenRunning_items_kept applySymbolState_kept h
  case recap => exact whenRunning_items_kept applyRecap_kept h
  case clock => exact whenRunning_items_kept applyClock_kept h
  case session => exact whenRunning_items_kept applySession_kept h
  case bulletinPush => exact whenRunning_items_kept applyPush_kept h
  case bulletinPop => exact whenRunning_items_kept applyPop_kept h
  case bulletinClear => exact whenRunning_items_kept applyClear_kept h
  case loadParam => exact exec_load_kept .param nofun h
  case loadSymbol => exact exec_load_kept .symbol nofun h
  case loadSlot => exact exec_load_kept .slot nofun h
  case loadChain => exact exec_load_kept .chain (fun _ _ => .inr (.inl rfl)) h
  case loadModule => exact exec_load_kept .module nofun h
  case loadTerminal => exact exec_load_kept .terminal nofun h
  case read => exact whenRunning_head_kept (fun body s => .of_view (boardView_applyRead s body)) h
  case report => exact whenRunning_head_kept (fun body s => .of_view (boardView_applyReport s body)) h
  case clearAlerts =>
    refine whenRunning_head_kept (applyControl_kept ?_) h
    rintro p u v ⟨rfl⟩
    exact clearAlertsNamed_kept _ u
  case setMask =>
    refine whenRunning_head_kept (applyControl_kept ?_) h
    rintro p u v ⟨rfl⟩
    exact .of_view (boardView_setMgmt u _)
  case chainReset =>
    refine whenRunning_head_kept (applyControl_kept fun p u v hv => ?_) h
    obtain ⟨c, -, rfl⟩ := Option.map_eq_some_iff.mp hv
    exact chainResetAt_kept u (.inr (.inr (.inl rfl)))
  case terminalReset =>
    refine whenRunning_head_kept (applyControl_kept fun p u v hv => ?_) h
    obtain ⟨x, -, rfl⟩ := Option.map_eq_some_iff.mp hv
    exact .of_view (boardView_terminalResetAt u x)
  case tickerFlush =>
    refine whenRunning_head_kept (applyControl_kept ?_) h
    rintro p u v ⟨rfl⟩
    exact .of_view (boardView_tickerFlushAt u)
  case resetCold => exact whenRunning_head_kept (fun _ s => coldState_kept _ _ _ _ s) h
  case resetWarm straps =>
    exact whenRunning_head_kept
      (fun body s => applyWarm_kept straps body s fun _ => .inr (.inr (.inr ⟨straps, rfl⟩))) h
  case powerOn =>
    obtain rfl := Host.Outcome.next.inj h
    exact coldState_kept _ _ _ _ s
  case resetPinAssert => exact ite_kept h (.refl s) (pinTaken_kept s)
  case resetPinRelease => exact ite_kept h (coldState_kept _ _ _ _ s) (.refl s)
  case initEnd straps sense =>
    refine ite_kept h ((coldState_kept s.mgmt.cause .running straps sense s).congr_right ?_) (.refl s)
    simp only [initEnds, boardView_raiseAlert, boardView_setFlashClock]
  case secondPhaseExpiry => exact whenRunning_kept (secondExpire_kept s) h
  case keepaliveExpiry c => exact whenRunning_kept (keepaliveExpire_kept c s) h
  case shiftCompletion c returned => exact whenRunning_kept (shiftComplete_kept c _ s) h
  case settleCompletion c => exact whenRunning_kept (settleExpire_kept c s) h
  case chainSenseChange c present =>
    refine whenRunning_kept (f := fun s => if s.chains[c].senseLevel = present then s else senseChange c present s) ?_ h
    split
    · exact .refl s
    · exact senseChange_kept c present s fun hp => .inl (by rw [hp])
  case pwmPeriodStart c => exact whenRunning_kept (pwmStart_kept c s) h
  case flashClockHalfPeriod => exact whenRunning_kept (.of_view (boardView_halfPeriodExpire s)) h
  case flashExpiry n => exact whenRunning_kept (flashExpire_kept n s) h
  case bulletinDurationExpiry k place => exact whenRunning_kept (bulletinExpire_kept k place s) h
  case step => exact whenRunning_kept (stepExpire_kept s) h
  case primaryFrameSent => exact whenRunning_kept (.of_view (boardView_frameSent s)) h
  case terminalResponse low => exact whenRunning_kept (takeCharacter_kept low s) h
  case terminalCharacterReceived b => exact whenRunning_kept (takeCharacter_kept b s) h
  case responseTimeout => exact whenRunning_kept (responseExpire_kept s) h
  case probeTimerExpiry x => exact whenRunning_kept (.of_view (boardView_probeExpire s x)) h
  case nightPollGapExpiry => exact whenRunning_kept (.of_view (boardView_gapExpire s)) h
  case returnTransmissionStart => exact whenRunning_kept (.of_view (boardView_returnStart s)) h
  case returnFrameSent => exact whenRunning_kept (.of_view (boardView_returnSent s)) h
  case refusedManagementFrame =>
    exact whenRunning_head_kept (fun body s => .of_view (boardView_replyTo s body [refusalCode body])) h

/-! ## An interval tick (R57, R58) -/

section
variable {leaves : ChainId → Prop} {placed : Prop}

theorem ifDue_kept {due : Bool} {expire : State → State} {s : State} (h : BoardsKept leaves placed s (expire s)) :
    BoardsKept leaves placed s (ifDue due expire s) := by
  simp only [ifDue]
  split
  · exact h
  · exact .refl s

theorem chainDue_kept (c : ChainId) (s : State) : BoardsKept leaves placed s (chainDue c s) :=
  (ifDue_kept (settleExpire_kept c s)).trans (ifDue_kept (keepaliveExpire_kept c _))

theorem takeDue_kept (s : State) : BoardsKept leaves placed s (takeDue s) := by
  refine .trans ?_ (ifDue_kept (.of_view (boardView_gapExpire _)))
  refine .trans ?_ (.foldl (fun v x => ifDue_kept (.of_view (boardView_probeExpire v x))) _ _)
  refine .trans ?_ (ifDue_kept (responseExpire_kept _))
  refine .trans ?_ (ifDue_kept (stepExpire_kept _))
  refine .trans ?_ (.foldl (fun v k => .foldl (fun w _ => ifDue_kept (bulletinExpire_kept k _ w)) _ v) _ _)
  refine .trans ?_ (.foldl (fun v n => ifDue_kept (flashExpire_kept n v)) _ _)
  refine .trans ?_ (ifDue_kept (.of_view (boardView_halfPeriodExpire _)))
  refine .trans ?_ (chainDue_kept 3 _)
  refine .trans ?_ (chainDue_kept 2 _)
  refine .trans ?_ (chainDue_kept 1 _)
  refine .trans ?_ (chainDue_kept 0 _)
  refine .trans ?_ (ifDue_kept (silenceExpire_kept _))
  exact ifDue_kept (secondExpire_kept s)

/-- The timers counted leave every chain's state, and every slot's number and description. -/
theorem countTimers_kept (s : State) : BoardsKept leaves placed s (countTimers s) := by
  have hslots : BoardsKept leaves placed s
      (s.setSlots (s.slots.map (fun e => (e.1, { e.2 with flash := countDown e.2.flash })))) :=
    setSlots_map_kept (f := fun sl => { sl with flash := countDown sl.flash }) (fun _ => rfl) s
  refine hslots.trans (.of_chains (f := tickChain) (fun _ ch => ?_) rfl rfl rfl)
  exact .of_same rfl rfl (Option.isSome_map ..) (Option.isSome_map ..) id id le_rfl

/-- A tick brings no chain out of OFFLINE. -/
theorem intervalTick_kept (s : State) : BoardsKept leaves placed s (intervalTick s) := by
  simp only [intervalTick]
  split
  · exact (countTimers_kept s).trans (takeDue_kept _)
  · exact .refl s

end

/-! ## The step -/

/-- What a step keeps of the boards: no chain leaves OFFLINE but by one of the four commands. -/
theorem step_kept {s t : State} (h : step s = .next t) :
    BoardsKept (fun c => ∃ i, s.pending.head? = some i ∧ LeavesOffline i c) (LoadPlaced s) s t := by
  cases hpending : s.pending with
  | nil =>
    obtain rfl := Host.Outcome.next.inj ((step_of_nil hpending).symm.trans h)
    exact intervalTick_kept s
  | cons i rest =>
    have hexec : exec i { s with pending := rest } = .next t := (step_of_cons hpending).symm.trans h
    have hfront : ({ s with pending := rest } : State).boardView = s.boardView := rfl
    have hkept := BoardsKept.congr_left hfront (exec_kept i hexec)
    refine { hkept with chain := fun c => ⟨(hkept.chain c).fits, fun hstays => (hkept.chain c).offline ?_⟩ }
    exact fun hleaves => hstays ⟨i, rfl, hleaves⟩

/-- Settles O53: every step keeps the claims disjoint, the chains fitting and the tables canonical. -/
theorem boardsStaySound : Obligations.BoardsStaySound := by
  unfold Obligations.BoardsStaySound
  intro s t h
  have hkept := step_kept h
  refine ⟨hkept.claims, fun hs => ?_, fun hplaced ⟨hrecords, hslots⟩ => ?_⟩
  · rw [chainsFit_iff] at hs ⊢
    exact fun c => (hkept.chain c).fits (hs c)
  · exact ⟨hkept.records hplaced hrecords, hkept.slots hplaced hslots⟩

/-- Settles O60: a chain that leaves OFFLINE has one of the four commands for its cause. -/
theorem offlineIsLeftByFourSteps : Obligations.OfflineIsLeftByFourSteps := by
  unfold Obligations.OfflineIsLeftByFourSteps
  intro s t c h hoffline hleft
  by_contra hnone
  exact hleft (((step_kept h).chain c).offline hnone hoffline)

end Sys2Proof.Machine

namespace Sys2Proof.Machine

open Sys2Proof.Safety

/-! ## CONTROL frames that are carried out, and those that name nothing (R171) -/

/-- A CONTROL of its action's length, carried out after the gap-before marking and answered DONE. -/
theorem whenRunning_control_done {s v : State} {e : IntakeEntry} {rest : List IntakeEntry} {step : FrameStep}
    {length : Nat} {act : List Byte → State → Option State} (h : HeadIs s e rest step)
    (hlength : (payload e.body).length = length) (hact : act (payload e.body) (afterGap e s) = some v)
    (hintake : v.intake = (afterGap e s).intake) :
    whenRunning (takeHead step (applyControl length act)) s
      = .next { v with intake := rest, mgmt := replied (seqTag e.body) [0] v.mgmt } := by
  have happly : applyControl length act e.body (afterGap e s)
      = { v with mgmt := replied (seqTag e.body) [0] v.mgmt } := by
    rw [← replyTo_frame, applyControl, if_neg (not_not.mpr hlength), hact]
    rfl
  rw [whenRunning_takeHead h (by rw [happly]; exact hintake), happly]
  rfl

/-- One that names a chain or a terminal that the part does not have. -/
theorem whenRunning_control_unknown {s : State} {e : IntakeEntry} {rest : List IntakeEntry} {step : FrameStep}
    {length : Nat} {act : List Byte → State → Option State} (h : HeadIs s e rest step)
    (hlength : (payload e.body).length = length) (hact : act (payload e.body) (afterGap e s) = none) :
    whenRunning (takeHead step (applyControl length act)) s = .next { afterGap e s with
      intake := rest, mgmt := replied (seqTag e.body) [codeBadCommand] (afterGap e s).mgmt } := by
  refine whenRunning_takeHead_answered h ?_
  rw [applyControl, if_neg (not_not.mpr hlength), hact]

/-! ## Alerts (R81, R173) -/

theorem alertIndex_eq (a : Alert) : alertIndex a = alertNumber a := by
  cases a <;> rfl

/-- An ALERT frame is queued where none waits. -/
theorem queueAlert_eq (m : Management) : queueAlert m
    = if .alert ∉ m.replyQueue then { m with replyQueue := m.replyQueue ++ [.alert] } else m := by
  simp only [queueAlert, alertWaits, List.contains_iff_mem]
  by_cases h : .alert ∈ m.replyQueue
  · rw [if_pos h, if_neg (not_not.mpr h)]
  · rw [if_neg h, if_pos h]

theorem alertSet_eq (a : Alert) (m : Management) :
    let set := { m with alertStatus := m.alertStatus ||| 1#15 <<< alertNumber a }
    alertSet a m = if m.alertStatus.getLsbD (alertNumber a) then m
      else if m.alertMask.getLsbD (alertNumber a) ∧ .alert ∉ m.replyQueue then
        { set with replyQueue := m.replyQueue ++ [.alert] }
      else set := by
  simp only [alertSet, alertIn, alertBit, alertIndex_eq, queueAlert_eq, ← ite_and]

/-- R173: the ALERT frame of a mask that newly includes an alert that is set. -/
theorem setMaskTo_eq (mask : AlertSet) (s : State) : setMaskTo mask s = { s with
    mgmt := if mask &&& ~~~s.mgmt.alertMask &&& s.mgmt.alertStatus ≠ 0 ∧ .alert ∉ s.mgmt.replyQueue then
        { s.mgmt with alertMask := mask, replyQueue := s.mgmt.replyQueue ++ [.alert] }
      else { s.mgmt with alertMask := mask } } := by
  simp only [setMaskTo, State.setMgmt, queueAlert_eq, ite_and]

/-- R81: the latch of a chain goes with its CHAIN SENSE. -/
theorem clearLatch_chains (named : AlertSet) (c d : ChainId) (s : State) : (clearLatch named c s).chains[d]
    = if d = c ∧ alertIn (.chainSense d) named = true then { s.chains[d] with senseLatch := false } else s.chains[d] := by
  by_cases hnamed : alertIn (.chainSense c) named = true
  · rw [clearLatch, if_pos hnamed]
    by_cases hd : d = c
    · subst hd
      rw [if_pos ⟨rfl, hnamed⟩]
      simp
    · have hv : c.val ≠ d.val := fun hv => hd (Fin.ext hv.symm)
      rw [if_neg fun h => hd h.1]
      simp [Vector.getElem_set_ne _ _ hv]
  · rw [clearLatch, if_neg hnamed, if_neg fun ⟨hd, h⟩ => hnamed (hd ▸ h)]

theorem clearLatch_frame (named : AlertSet) (c : ChainId) (s : State) :
    clearLatch named c s = { s with chains := (clearLatch named c s).chains } := by
  simp only [clearLatch]
  split <;> rfl

theorem clearAlertsNamed_frame (named : AlertSet) (s : State) : clearAlertsNamed named s = { s with
    chains := (clearAlertsNamed named s).chains,
    mgmt := { s.mgmt with alertStatus := s.mgmt.alertStatus &&& ~~~named } } := by
  simp only [clearAlertsNamed]
  rw [clearLatch_frame, clearLatch_frame, clearLatch_frame, clearLatch_frame]
  rfl

theorem clearAlertsNamed_chains (named : AlertSet) (s : State) (c : ChainId) : (clearAlertsNamed named s).chains[c]
    = if named.getLsbD (7 + c.val) then { s.chains[c] with senseLatch := false } else s.chains[c] := by
  simp only [clearAlertsNamed, clearLatch_chains, setMgmt_chains]
  have hbit (d : ChainId) : alertIn (.chainSense d) named = named.getLsbD (7 + d.val) := rfl
  match c with
  | 0 | 1 | 2 | 3 => simp [hbit]

/-- Settles O27: the alert set by its bit, and the two CONTROL frames by what they do to the state after the gap. -/
theorem alertsAreControlled : Obligations.AlertsAreControlled := by
  unfold Obligations.AlertsAreControlled
  refine ⟨fun a m => ⟨fun status => by rw [alertIn, alertIndex_eq], alertSet_eq a m⟩, ?_⟩
  intro s e rest u named status hlength
  refine ⟨fun h => ?_, fun h => ?_⟩
  · have hcleared := congrArg some (clearAlertsNamed_frame named u)
    exact ⟨_, whenRunning_control_done h hlength hcleared rfl, rfl, clearAlertsNamed_chains named u, rfl⟩
  · have hset := congrArg some (setMaskTo_eq named u)
    exact whenRunning_control_done (act := fun p v => some (setMaskTo (maskOperand p) v)) h hlength hset rfl

end Sys2Proof.Machine

namespace Sys2Proof.Machine

open Sys2Proof.Safety

/-! ## One chain replaced, and told of the event (R75) -/

theorem setChain_same (c : ChainId) (x : Chain) (s : State) : (s.setChain c x).chains[c] = x := by
  simp

theorem setChain_other {c d : ChainId} (h : d ≠ c) (x : Chain) (s : State) : (s.setChain c x).chains[d] = s.chains[d] := by
  have hv : c.val ≠ d.val := fun hv => h (Fin.ext hv.symm)
  simp [Vector.getElem_set_ne _ _ hv]

/-- R75, R76: a refresh start is the chain's alone. -/
theorem refreshStart_alone (c : ChainId) (s : State) : RefreshAlone c s (refreshStart c s) := by
  rw [refreshStart_frame]
  exact ⟨setChain_same c (startedChain c s) s, tableGet_clearDirty c s.slots⟩

theorem refreshStart_other {c d : ChainId} (h : d ≠ c) (s : State) : (refreshStart c s).chains[d] = s.chains[d] := by
  rw [refreshStart_frame]
  exact setChain_other h (startedChain c s) s

theorem wakeChain_other {c d : ChainId} (h : d ≠ c) (s : State) : (wakeChain c s).chains[d] = s.chains[d] := by
  rw [wakeChain]
  split
  · exact refreshStart_other h s
  · rfl

/-- R75: the start conditions other than the keepalive, of an IDLE chain. -/
theorem wantsRefresh_iff (s : State) (c : ChainId) : wantsRefresh s c = true ↔ (s.chains[c]).state = .idle
    ∧ ((s.chains[c]).resync = true ∨ ∃ e ∈ s.slots, e.2.chain = c ∧ e.2.dirty = true) := by
  simp only [wantsRefresh_eq, Bool.and_eq_true, Bool.or_eq_true, decide_eq_true_eq, List.any_eq_true]

theorem wakeChain_starts {c : ChainId} {s : State} (h : wantsRefresh s c = true) : RefreshAlone c s (wakeChain c s) := by
  rw [wakeChain, if_pos h]
  exact refreshStart_alone c s

theorem wakeChain_rests {c : ChainId} {s : State} (h : ¬ wantsRefresh s c = true) : wakeChain c s = s := by
  rw [wakeChain, if_neg h]

/-- A chain that comes to IDLE with resync pending starts a refresh. -/
theorem wakeChain_resyncs {c : ChainId} {x : Chain} (s : State) (hidle : x.state = .idle) (hresync : x.resync = true) :
    RefreshAlone c (s.setChain c x) (wakeChain c (s.setChain c x)) := by
  refine wakeChain_starts ((wantsRefresh_iff _ c).mpr ?_)
  rw [setChain_same]
  exact ⟨hidle, .inl hresync⟩

/-- One that is not IDLE takes no start. -/
theorem wakeChain_not_idle {c : ChainId} {x : Chain} (s : State) (h : x.state ≠ .idle) :
    wakeChain c (s.setChain c x) = s.setChain c x := by
  refine wakeChain_rests fun hwants => h ?_
  have hidle := ((wantsRefresh_iff _ c).mp hwants).1
  rwa [setChain_same] at hidle

/-- A chain replaced and told changes the chains and the slots alone. -/
theorem wakeChain_setChain_frame (c : ChainId) (x : Chain) (s : State) : wakeChain c (s.setChain c x)
    = { s with chains := (wakeChain c (s.setChain c x)).chains, slots := (wakeChain c (s.setChain c x)).slots } := by
  rw [wakeChain_frame]
  rfl

theorem wakeChain_setChain_other {c d : ChainId} (h : d ≠ c) (x : Chain) (s : State) :
    (wakeChain c (s.setChain c x)).chains[d] = s.chains[d] := (wakeChain_other h _).trans (setChain_other h x s)

theorem wakeChain_setChain_descriptions (c : ChainId) (x : Chain) (s : State) (n : Nat) :
    (tableGet (wakeChain c (s.setChain c x)).slots n).map description = (tableGet s.slots n).map description :=
  (wakeChain_boards c (s.setChain c x)).2 n

/-- The refresh of a chain that enters IDLE. -/
theorem wakeChain_enterIdle (c : ChainId) (ch : Chain) (s : State) :
    RefreshAlone c (withIdle c ch s) (wakeChain c (s.setChain c (enterIdle ch))) := wakeChain_resyncs s rfl rfl

/-- A refresh from a state in which a snapshot reads the same. -/
theorem refreshAlone_of_sameShown {c : ChainId} {v w t : State} (h : SameShown v w) (ht : RefreshAlone c w t) :
    RefreshAlone c v t := by
  obtain ⟨hstarted, hslots⟩ := ht
  refine ⟨hstarted.trans (h.startedChain_eq c), fun n => ?_⟩
  rw [hslots, h.slots]

end Sys2Proof.Machine

namespace Sys2Proof.Machine

open Sys2Proof.Safety

/-! ## A change of the sense level (R81 to R83) -/

/-- A change to absent, of a part in operation. -/
theorem senseChange_absent (c : ChainId) (s : State) : senseChange c false s
    = (raiseAlert (.chainSense c) s).setChain c { s.chains[c] with
        senseLevel := false, senseLatch := true, state := .offline, shadowValid := false, cycle := none, faultCount := 0,
        reload := false, resetPending := false, keepaliveTimer := none, settleTimer := none } := rfl

/-- A change to present that brings the chain to IDLE. -/
theorem senseChange_present_idle {c : ChainId} {s : State}
    (h : (s.chains[c]).entry.enabled = true ∧ (s.chains[c]).faultCount < 3) : senseChange c true s
      = wakeChain c ((raiseAlert (.chainSense c) s).setChain c
          (enterIdle { s.chains[c] with senseLevel := true, senseLatch := true })) := by
  simp only [senseChange, Bool.not_true, Bool.false_eq_true, if_false]
  rw [if_pos (by simpa using h)]

/-- One that leaves it as it is, but for the level and the latch. -/
theorem senseChange_present_stays {c : ChainId} {s : State}
    (h : ¬ ((s.chains[c]).entry.enabled = true ∧ (s.chains[c]).faultCount < 3)) : senseChange c true s
      = (raiseAlert (.chainSense c) s).setChain c { s.chains[c] with senseLevel := true, senseLatch := true } := by
  simp only [senseChange, Bool.not_true, Bool.false_eq_true, if_false]
  rw [if_neg (by simpa using h)]

/-- The command, of a level that is not the one kept. -/
theorem exec_chainSenseChange {c : ChainId} {present : Bool} {s : State} (hphase : s.phase = .running)
    (h : (s.chains[c]).senseLevel ≠ present) :
    exec (.chainSenseChange c present) s = .next (senseChange c present s) := by
  show whenRunning (fun s => if s.chains[c].senseLevel = present then s else senseChange c present s) s = _
  rw [whenRunning, if_pos hphase, if_neg h]

/-- Settles O36: to absent, to present with its refresh or without, and to the level already kept. -/
theorem senseChanges : Obligations.SenseChanges := by
  unfold Obligations.SenseChanges
  intro s c ch hphase
  refine ⟨fun hsense => ?_, fun hsense _ => ?_, ?_⟩
  · refine ⟨_, exec_chainSenseChange hphase (by rw [hsense]; nofun), ?_⟩
    rw [senseChange_absent]
    exact ⟨setChain_same c _ _, fun d hd => setChain_other hd _ _, rfl⟩
  · refine ⟨_, exec_chainSenseChange hphase (by rw [hsense]; nofun), ?_⟩
    by_cases h : ch.entry.enabled = true ∧ ch.faultCount < 3
    · rw [senseChange_present_idle h, if_pos h]
      refine ⟨?_, fun d hd => wakeChain_setChain_other hd _ _, wakeChain_setChain_frame c _ _⟩
      exact refreshAlone_of_sameShown ⟨rfl, rfl, rfl, rfl, rfl, rfl, rfl, rfl⟩ (wakeChain_enterIdle c _ _)
    · rw [senseChange_present_stays h, if_neg h]
      exact ⟨⟨setChain_same c _ _, rfl⟩, fun d hd => setChain_other hd _ _, rfl⟩
  · show whenRunning (fun s => if s.chains[c].senseLevel = ch.senseLevel then s else senseChange c _ s) s = _
    rw [whenRunning, if_pos hphase, if_pos rfl]

end Sys2Proof.Machine

namespace Sys2Proof.Machine

open Sys2Proof.Safety

/-! ## The bits of an image (R178) -/

theorem bitsOf_getElem? (b : Byte) (j : Fin 8) : (bitsOf b)[j.val]? = some (b.getLsbD (7 - j.val)) := by
  match j with
  | 0 | 1 | 2 | 3 | 4 | 5 | 6 | 7 => rfl

/-- Stage i of an image takes the shift clocks from 8i on, most significant bit first. -/
theorem shiftBits_getElem? {stage : Byte} (j : Fin 8) : ∀ {image : List Byte} {i : Nat}, image[i]? = some stage →
    (shiftBits image)[8 * i + j.val]? = some (stage.getLsbD (7 - j.val))
  | [], _, h => by cases h
  | b :: rest, 0, h => by
    obtain rfl := Option.some.inj h
    rw [shiftBits, List.flatMap_cons, Nat.mul_zero, Nat.zero_add, List.getElem?_append_left j.isLt]
    exact bitsOf_getElem? b j
  | b :: rest, i + 1, h => by
    have hlength : (bitsOf b).length = 8 := rfl
    have hplace : 8 * (i + 1) + j.val = (bitsOf b).length + (8 * i + j.val) := by omega
    rw [shiftBits, List.flatMap_cons, hplace, List.getElem?_append_right (Nat.le_add_right _ _), Nat.add_sub_cancel_left]
    exact shiftBits_getElem? j (image := rest) h

/-! ## A refresh started (R75 to R77) -/

/-- The cycle captured, the keepalive timer stopped and resync cleared, whatever the image. -/
theorem startedChain_captures (c : ChainId) (s : State) : (startedChain c s).cycle = some (cycleOf c s)
    ∧ (startedChain c s).keepaliveTimer = none ∧ (startedChain c s).resync = false := by
  simp only [startedChain]
  split <;> exact ⟨rfl, rfl, rfl⟩

/-- An image with stages is shifted, and what the chain shows stands. -/
theorem startedChain_of_image {c : ChainId} {s : State} (h : (cycleOf c s).image ≠ []) :
    startedChain c s = { s.chains[c] with
      cycle := some (cycleOf c s), keepaliveTimer := none, resync := false, state := .shifting } := by
  rw [startedChain, if_neg h]

/-- One with none is settled at once. -/
theorem startedChain_of_no_image {c : ChainId} {s : State} (h : (cycleOf c s).image = []) :
    (startedChain c s).state = .settling ∧ (startedChain c s).settleTimer = some (s.chains[c]).entry.settle := by
  rw [startedChain, if_pos h]
  exact ⟨rfl, rfl⟩

/-- R76: the snapshot cleans the slots of its chain, and no other slot changes. -/
theorem slots_of_refreshAlone {c : ChainId} {s t : State} (h : RefreshAlone c s t) :
    (∀ n sl, tableGet t.slots n = some sl → sl.chain = c → sl.dirty = false)
      ∧ ∀ n sl, tableGet s.slots n = some sl → sl.chain ≠ c → tableGet t.slots n = some sl := by
  refine ⟨fun n sl hsl hc => ?_, fun n sl hsl hc => ?_⟩
  · obtain ⟨old, -, rfl⟩ := Option.map_eq_some_iff.mp ((h.2 n).symm.trans hsl)
    by_cases hold : old.chain = c
    · rw [if_pos hold]
    · rw [if_neg hold] at hc
      exact absurd hc hold
  · rw [h.2 n, hsl, Option.map_some, if_neg hc]

theorem exec_keepaliveExpiry {c : ChainId} {k : Nat} {s : State} (hphase : s.phase = .running)
    (hidle : (s.chains[c]).state = .idle) (htimer : (s.chains[c]).keepaliveTimer = some k) :
    exec (.keepaliveExpiry c) s = .next (refreshStart c s) := by
  have hruns : timerRuns (s.chains[c]).keepaliveTimer = true := by rw [htimer]; rfl
  show whenRunning (keepaliveExpire c) s = _
  rw [whenRunning, if_pos hphase, keepaliveExpire, if_pos ⟨hidle, hruns⟩]

/-- Settles O34: the refresh started, by what its image is, and the bits of the image on the line. -/
theorem keepaliveRefreshes : Obligations.KeepaliveRefreshes := by
  unfold Obligations.KeepaliveRefreshes
  intro s c k ch list image cycle hphase hidle htimer
  have halone := refreshStart_alone c s
  have hchain : (refreshStart c s).chains[c] = startedChain c s := halone.1
  obtain ⟨hcycle, hkeepalive, hresync⟩ := startedChain_captures c s
  obtain ⟨hclean, hothers⟩ := slots_of_refreshAlone halone
  have hrunning : (refreshStart c s).phase = .running := by
    rw [refreshStart_frame]
    exact hphase
  have hshifting (h : image ≠ []) : (startedChain c s).state = .shifting := by rw [startedChain_of_image h]
  refine ⟨_, exec_keepaliveExpiry hphase hidle htimer, halone, ?_, ?_, ?_, fun h => ?_, fun i stage j hstage => ?_,
    fun h => ?_, hclean, hothers, fun d hd => refreshStart_other hd s, ?_⟩
  · rw [hchain]
    exact hcycle
  · rw [hchain]
    exact hkeepalive
  · rw [hchain]
    exact hresync
  · rw [shiftClockRuns, hrunning, hchain, hshifting h, startedChain_of_image h]
    exact ⟨rfl, rfl, rfl, rfl⟩
  · have hne : image ≠ [] := fun h => by rw [h] at hstage; cases hstage
    rw [shiftData, if_neg (not_not.mpr hrunning), hchain, if_pos (hshifting hne), hcycle, Option.bind_some]
    exact shiftBits_getElem? j hstage
  · rw [hchain]
    exact startedChain_of_no_image h
  · rw [refreshStart_frame]

end Sys2Proof.Machine

namespace Sys2Proof.Machine

open Sys2Proof.Safety

/-! ## Brightness and the flash clock (R87, R88) -/

theorem exec_pwmPeriodStart {c : ChainId} {s : State} (hphase : s.phase = .running) :
    exec (.pwmPeriodStart c) s = .next (s.setChain c { s.chains[c] with
      pwmLevel := if s.time.session = .closed then (s.chains[c]).entry.night else (s.chains[c]).entry.day }) := by
  show whenRunning (pwmStart c) s = _
  rw [whenRunning, if_pos hphase]
  rfl

theorem blankingActive_eq_false {c : ChainId} {s : State} (hphase : s.phase = .running) (k : Nat) :
    blankingActive s c k = false ↔ (s.chains[c]).state ≠ .offline ∧ k < (s.chains[c]).pwmLevel.toNat := by
  simp only [blankingActive, hphase, ne_eq, not_true_eq_false, decide_false, Bool.false_or, Bool.or_eq_false_iff,
    beq_eq_false_iff_ne, decide_eq_false_iff_not, Nat.not_le]

theorem flashOutput_of_running {s : State} (hphase : s.phase = .running) : flashOutput s = s.flashClock.level := by
  simp only [flashOutput, hphase, beq_self_eq_true, Bool.true_and]

theorem exec_flashClockHalfPeriod {s : State} {k : Nat} (hphase : s.phase = .running)
    (htimer : s.flashClock.timer = some k) : exec .flashClockHalfPeriod s = .next { s with
      flashClock := { level := !s.flashClock.level, timer := some (param s 6 * 50) } } := by
  have hruns : timerRuns s.flashClock.timer = true := by rw [htimer]; rfl
  show whenRunning halfPeriodExpire s = _
  rw [whenRunning, if_pos hphase, halfPeriodExpire, if_pos hruns]
  rfl

/-- R88, R178: the bits of the lamps that light: UP, DOWN, HALT, STALE and the two of the tick. -/
theorem getLsbD_lamps (i : Nat) : (0x37 : Byte).getLsbD i = decide (i ∈ [0, 1, 2, 4, 5]) := by
  by_cases hi : i < 8
  · revert i
    decide
  · have hnot : i ∉ [0, 1, 2, 4, 5] := by
      simp only [List.mem_cons, List.not_mem_nil, or_false]
      omega
    rw [BitVec.getLsbD_of_ge _ _ (Nat.le_of_not_lt hi), decide_eq_false hnot]

/-- Those among them that do not flash. -/
theorem getLsbD_steadyLamps (i : Nat) : (0x34 : Byte).getLsbD i = decide (i ∈ [2, 4, 5]) := by
  by_cases hi : i < 8
  · revert i
    decide
  · have hnot : i ∉ [2, 4, 5] := by
      simp only [List.mem_cons, List.not_mem_nil, or_false]
      omega
    rw [BitVec.getLsbD_of_ge _ _ (Nat.le_of_not_lt hi), decide_eq_false hnot]

/-- R88: the lamps that do not flash are lit steadily, UP and DOWN where FLASH is off or the clock is high. -/
theorem getLsbD_lampsLit (bits : Byte) (high : Bool) (i : Nat) : (lampsLit bits high).getLsbD i
    = (bits.getLsbD i && (decide (i ∈ [2, 4, 5]) || (decide (i ∈ [0, 1]) && (!bits.getLsbD 3 || high)))) := by
  have hlamps : decide (i ∈ [0, 1, 2, 4, 5]) = (decide (i ∈ [2, 4, 5]) || decide (i ∈ [0, 1])) := by
    rw [← Bool.decide_or]
    refine decide_eq_decide.mpr ?_
    simp only [List.mem_cons, List.not_mem_nil, or_false]
    omega
  have hboth : (0x37 : Byte).getLsbD i = (decide (i ∈ [2, 4, 5]) || decide (i ∈ [0, 1])) := (getLsbD_lamps i).trans hlamps
  rw [lampsLit]
  split
  · next hgated =>
    rw [Bool.and_eq_true, Bool.not_eq_true'] at hgated
    rw [BitVec.getLsbD_and, BitVec.getLsbD_and, hboth, getLsbD_steadyLamps, hgated.1, hgated.2]
    cases decide (i ∈ [2, 4, 5]) <;> simp
  · next hgated =>
    have hlit : (!bits.getLsbD 3 || high) = true := by
      rw [Bool.and_eq_true, Bool.not_eq_true'] at hgated
      cases hflash : bits.getLsbD 3 <;> simp_all
    rw [BitVec.getLsbD_and, hboth, hlit, Bool.and_true]

/-! ## The end of a flash (R99) -/

/-- The chains told of an event, with every slot as it was. -/
theorem boardsMarked_wakeChains (s : State) : BoardsMarked id s (wakeChains s) := by
  have hid : markedBoards id s = wakeChains s := by
    rw [wakeChains_eq, markedBoards]
    simp only [id_eq, Prod.mk.eta, List.map_id']
  rw [← hid]
  exact boardsMarked_markedBoards id s

/-- The state in which the chains are told of the end of slot n's flash. -/
def flashGone (n : Nat) (sl : Slot) (s : State) : State :=
  s.setSlots (tableSet s.slots n { dirtied sl with flash := none })

theorem flashExpire_of_running {n k : Nat} {sl : Slot} {s : State} (hsl : tableGet s.slots n = some sl)
    (hflash : sl.flash = some k) : flashExpire n s = wakeChains (flashGone n sl s) := by
  have hruns : timerRuns sl.flash = true := by rw [hflash]; rfl
  rw [flashExpire, hsl]
  exact if_pos hruns

theorem flashGone_boards {n : Nat} {sl : Slot} {s : State} (hsl : tableGet s.slots n = some sl) :
    BoardsOnlyRefresh s (flashGone n sl s) := by
  refine ⟨fun c => ⟨fun _ => rfl, rfl, rfl, rfl, rfl, rfl⟩, fun m => ?_⟩
  rw [flashGone, setSlots_slots, tableGet_tableSet]
  split
  · next hm =>
    rw [hm, hsl]
    rfl
  · rfl

/-- R99: the slot's flash is gone; it is dirty, and a chain that is IDLE shows it at once. -/
theorem flashGone_told {n : Nat} {sl : Slot} (s : State) :
    let t := wakeChains (flashGone n sl s)
    ∃ sl', tableGet t.slots n = some sl' ∧ description sl' = description sl ∧ sl'.flash = none
      ∧ ((s.chains[sl.chain]).state ≠ .idle → sl'.dirty = true)
      ∧ ((s.chains[sl.chain]).state = .idle → ((t.chains[sl.chain]).cycle).isSome = true ∧ sl'.dirty = false) := by
  intro t
  have hget : tableGet (flashGone n sl s).slots n = some { dirtied sl with flash := none } := tableGet_tableSet_self _ _ _
  obtain ⟨hchains, hslots⟩ := boardsMarked_wakeChains (flashGone n sl s)
  obtain ⟨hwoken, hrests⟩ := (hslots n).1 _ hget
  by_cases hidle : (s.chains[sl.chain]).state = .idle
  · have hdirty : ∃ e ∈ (flashGone n sl s).slots.map (fun e => (e.1, id e.2)), e.2.chain = sl.chain ∧ e.2.dirty = true :=
      ⟨(n, { dirtied sl with flash := none }), List.mem_map.mpr ⟨_, mem_of_tableGet hget, rfl⟩, rfl, rfl⟩
    have hstarted := (hchains sl.chain).1 ⟨hidle, .inr hdirty⟩
    refine ⟨_, hwoken ⟨hidle, .inr hdirty⟩, rfl, rfl, fun hne => absurd hidle hne, fun _ => ⟨?_, rfl⟩⟩
    rw [hstarted]
    exact (startedChain_started _ _).2
  · exact ⟨_, hrests fun hw => hidle hw.1, rfl, rfl, fun _ => rfl, fun hi => absurd hi hidle⟩

/-- Settles O37: the PWM period, the flash clock, the lamps by their bits, and the flash that runs out. -/
theorem brightnessAndFlash : Obligations.BrightnessAndFlash := by
  unfold Obligations.BrightnessAndFlash
  intro s hphase
  have houtput := flashOutput_of_running hphase
  refine ⟨fun c => ⟨_, exec_pwmPeriodStart hphase, setChain_same c _ s, fun k _ => ?_,
    fun d hd => setChain_other hd _ s, rfl⟩, fun k htimer => ?_, houtput, fun bits i => ?_, fun n k sl hsl hflash => ?_⟩
  · rw [blankingActive_eq_false (s := s.setChain c _) hphase, setChain_same]
  · refine ⟨_, exec_flashClockHalfPeriod hphase htimer, rfl, ?_⟩
    rw [houtput]
    exact flashOutput_of_running hphase
  · rw [houtput]
    exact getLsbD_lampsLit bits s.flashClock.level i
  · have hexec : exec (.flashExpiry n) s = .next (wakeChains (flashGone n sl s)) := by
      rw [← flashExpire_of_running hsl hflash]
      show whenRunning (flashExpire n) s = _
      rw [whenRunning, if_pos hphase]
    have hboards := boardsOnlyRefresh_trans (flashGone_boards hsl) (wakeChains_boards _)
    exact ⟨_, hexec, flashGone_told s, hboards, wakeChains_frame _⟩

end Sys2Proof.Machine

namespace Sys2Proof.Machine

open Sys2Proof.Safety

/-! ## CHAIN RESET at the controller (R86) -/

section
variable {c : ChainId} {s : State}

/-- While a cycle is in flight the reset waits. -/
theorem chainResetAt_of_cycle (h : (s.chains[c]).state = .shifting ∨ (s.chains[c]).state = .settling) :
    chainResetAt c s = s.setChain c { s.chains[c] with resetPending := true } := by
  rw [chainResetAt]
  obtain h | h := h
  · rw [h]
  · rw [h]

/-- With none in flight it is carried out. -/
theorem chainResetAt_of_rest (h : (s.chains[c]).state = .idle ∨ (s.chains[c]).state = .offline) :
    chainResetAt c s = chainResetAtRest c s := by
  rw [chainResetAt]
  obtain h | h := h
  · rw [h]
  · rw [h]

theorem chainResetAtRest_enters (h : (s.chains[c]).entry.enabled = true ∧ (s.chains[c]).senseLevel = true) :
    chainResetAtRest c s = wakeChain c (s.setChain c (enterIdle (applyChainReset s.chains[c]))) :=
  if_pos (Bool.and_eq_true_iff.mpr h)

theorem chainResetAtRest_stays (h : ¬ ((s.chains[c]).entry.enabled = true ∧ (s.chains[c]).senseLevel = true)) :
    chainResetAtRest c s = s.setChain c (applyChainReset s.chains[c]) :=
  if_neg fun hc => h (Bool.and_eq_true_iff.mp hc)

end

/-- A CHAIN RESET replaces its chain, which may then be told of it. -/
theorem chainResetAt_cases (c : ChainId) (s : State) : ∃ x, chainResetAt c s = s.setChain c x
    ∨ chainResetAt c s = wakeChain c (s.setChain c x) := by
  have hrest : ∃ x, chainResetAtRest c s = s.setChain c x ∨ chainResetAtRest c s = wakeChain c (s.setChain c x) := by
    by_cases h : (s.chains[c]).entry.enabled = true ∧ (s.chains[c]).senseLevel = true
    · exact ⟨_, .inr (chainResetAtRest_enters h)⟩
    · exact ⟨_, .inl (chainResetAtRest_stays h)⟩
  cases h : (s.chains[c]).state with
  | shifting => exact ⟨_, .inl (chainResetAt_of_cycle (.inl h))⟩
  | settling => exact ⟨_, .inl (chainResetAt_of_cycle (.inr h))⟩
  | idle => rwa [chainResetAt_of_rest (.inl h)]
  | offline => rwa [chainResetAt_of_rest (.inr h)]

/-- What it leaves: the other chains, the slots' descriptions, and all that is not of the boards. -/
theorem chainResetAt_leaves (c : ChainId) (s : State) : (∀ d, d ≠ c → (chainResetAt c s).chains[d] = s.chains[d])
    ∧ (∀ n, (tableGet (chainResetAt c s).slots n).map description = (tableGet s.slots n).map description)
    ∧ chainResetAt c s = { s with chains := (chainResetAt c s).chains, slots := (chainResetAt c s).slots } := by
  obtain ⟨x, h | h⟩ := chainResetAt_cases c s
  · rw [h]
    exact ⟨fun d hd => setChain_other hd x s, fun _ => rfl, rfl⟩
  · rw [h]
    exact ⟨fun d hd => wakeChain_setChain_other hd x s, wakeChain_setChain_descriptions c x s,
      wakeChain_setChain_frame c x s⟩

theorem chainOfCode_val (c : ChainId) : chainOfCode c.val = some c := dif_pos c.isLt

theorem chainOfCode_of_ge {n : Nat} (h : 4 ≤ n) : chainOfCode n = none := dif_neg (Nat.not_lt.mpr h)

/-! ## TERMINAL RESET at the controller (R152) -/

theorem terminalOfNumber_val (x : TermId) : terminalOfNumber (x.val + 1) = some x :=
  dif_pos ⟨Nat.le_add_left 1 x.val, x.isLt⟩

theorem terminalOfNumber_of_unknown {n : Nat} (h : n = 0 ∨ 33 ≤ n) : terminalOfNumber n = none :=
  dif_neg (by omega)

theorem setTerm_same (x : TermId) (term : Terminal) (s : State) : (s.setTerm x term).line.terminals[x] = term := by
  simp

theorem setTerm_other {x y : TermId} (h : x ≠ y) (term : Terminal) (s : State) :
    (s.setTerm y term).line.terminals[x] = s.line.terminals[x] := by
  have hv : y.val ≠ x.val := fun hv => h (Fin.ext hv.symm)
  simp [Vector.getElem_set_ne _ _ hv]

/-- The service of one terminal leaves every other. -/
theorem serve_other {x y : TermId} (h : x ≠ y) (s : State) : (serve y s).line.terminals[x] = s.line.terminals[x] := by
  rw [serve]
  split
  · rfl
  · exact setTerm_other h _ s
  · rfl
  · split
    · exact setTerm_other h _ s
    · rfl
  · rfl

/-- The service of an ABSENT terminal is a probe, which is due no more (Table 8-1). -/
theorem serve_absent {x : TermId} {s : State} (h : (s.line.terminals[x]).state = .absent) :
    (serve x s).line.terminals[x] = { s.line.terminals[x] with probeDue := false } := by
  rw [serve]
  split
  case h_2 => exact setTerm_same x _ s
  all_goals
    rename_i hstate
    rw [h] at hstate
    cases hstate

/-- A selection changes no more of an ABSENT terminal than whether its probe is due (R139). -/
theorem select_absent {x : TermId} {s : State} (h : (s.line.terminals[x]).state = .absent) :
    ∃ due, (select s).line.terminals[x] = { s.line.terminals[x] with probeDue := due } := by
  rw [select]
  split
  · split
    · next y _ =>
      by_cases hx : x = y
      · subst hx
        exact ⟨false, serve_absent h⟩
      · exact ⟨_, serve_other hx s⟩
    · exact ⟨_, rfl⟩
  · exact ⟨_, rfl⟩

theorem terminalResetAt_frame (x : TermId) (s : State) :
    terminalResetAt x s = { s with line := (terminalResetAt x s).line } := by
  rw [terminalResetAt]
  split
  · rfl
  · split
    · rfl
    · rw [select_frame]
      rfl

section
variable {x : TermId} {s : State}

theorem terminalResetAt_disabled (h : (s.line.terminals[x]).state = .disabled) : terminalResetAt x s = s := if_pos h

theorem terminalResetAt_waits (h : (s.line.terminals[x]).state ≠ .disabled) (htx : inTransaction s x = true) :
    terminalResetAt x s = s.setTerm x { s.line.terminals[x] with resetPending := true } := by
  rw [terminalResetAt, if_neg h, if_pos htx]

theorem terminalResetAt_resets (h : (s.line.terminals[x]).state ≠ .disabled) (htx : inTransaction s x = false) :
    terminalResetAt x s = select (s.setTerm x (resetTerm s.line.terminals[x])) := by
  rw [terminalResetAt, if_neg h, if_neg (by rw [htx]; nofun)]

end

/-! ## The two CONTROL frames -/

/-- Settles O28: the named chain and the named terminal reset by their states, and the unknown ones answered. -/
theorem chainAndTerminalAreReset : Obligations.ChainAndTerminalAreReset := by
  unfold Obligations.ChainAndTerminalAreReset
  refine ⟨?_, ?_⟩
  all_goals
    intro s e rest u code h hlength
    refine ⟨?_, fun hcode => whenRunning_control_unknown h hlength ?_⟩
  · intro c hcode
    obtain ⟨hothers, hdescriptions, hframe⟩ := chainResetAt_leaves c u
    have hact : chainResetNamed (payload e.body) u
        = some { u with chains := (chainResetAt c u).chains, slots := (chainResetAt c u).slots } := by
      rw [← hframe, chainResetNamed, show at8 (payload e.body) 1 = c.val from hcode, chainOfCode_val, Option.map_some]
    refine ⟨_, whenRunning_control_done h hlength hact rfl, fun hcycle => ?_, fun hrest => ?_, hothers, hdescriptions,
      ⟨rfl, rfl, rfl, rfl, rfl, rfl⟩, rfl, rfl, rfl, rfl, rfl, rfl, rfl⟩
    · rw [chainResetAt_of_cycle hcycle]
      exact ⟨setChain_same c _ u, rfl⟩
    · rw [chainResetAt_of_rest hrest]
      split
      · next henters =>
        rw [chainResetAtRest_enters henters]
        exact wakeChain_enterIdle c _ u
      · next hstays =>
        rw [chainResetAtRest_stays hstays]
        exact ⟨setChain_same c _ u, rfl⟩
  · rw [chainResetNamed, chainOfCode_of_ge hcode, Option.map_none]
  · intro x hcode
    have hact : terminalResetNamed (payload e.body) u = some { u with line := (terminalResetAt x u).line } := by
      rw [← terminalResetAt_frame, terminalResetNamed, show at8 (payload e.body) 1 = x.val + 1 from hcode,
        terminalOfNumber_val, Option.map_some]
    refine ⟨_, whenRunning_control_done h hlength hact rfl, ⟨fun hdisabled => ?_, fun hstate htx => ?_,
      fun hstate htx => ?_⟩, ⟨rfl, rfl, rfl, rfl, rfl, rfl⟩, rfl, rfl, rfl, rfl, rfl, rfl, rfl, rfl⟩
    · rw [terminalResetAt_disabled hdisabled]
    · rw [terminalResetAt_waits hstate htx]
      rfl
    · rw [terminalResetAt_resets hstate htx]
      have hsame := setTerm_same x (resetTerm u.line.terminals[x]) u
      obtain ⟨due, hterm⟩ := select_absent (x := x) (s := u.setTerm x (resetTerm u.line.terminals[x])) (by rw [hsame]; rfl)
      rw [hsame] at hterm
      rw [hterm]
      refine ⟨rfl, rfl, rfl, rfl, rfl, rfl, rfl, rfl, rfl, rfl, fun i => ?_⟩
      exact Vector.getElem_map ..
  · rw [terminalResetNamed, terminalOfNumber_of_unknown hcode, Option.map_none]

end Sys2Proof.Machine

namespace Sys2Proof.Machine

open Sys2Proof.Safety

/-! ## What a load does to a chain (R84, R85) -/

/-- A chain with a cycle in flight is neither IDLE nor OFFLINE (R74). -/
theorem ne_of_cycle {state : ChainState} (h : state = .shifting ∨ state = .settling) :
    state ≠ .idle ∧ state ≠ .offline := by
  obtain rfl | rfl := h <;> exact ⟨nofun, nofun⟩

theorem ne_idle_of_offline {state : ChainState} (h : state = .offline) : state ≠ .idle := by
  rw [h]
  nofun

section
variable {ch : Chain}

theorem reloaded_of_cycle (h : ch.state = .shifting ∨ ch.state = .settling) :
    reloaded ch = { ch with resync := true, reload := true } := by
  rw [reloaded]
  obtain h | h := h
  · rw [h]
  · rw [h]

theorem reloaded_of_idle (h : ch.state = .idle) : reloaded ch = { ch with shadowValid := false, resync := true } := by
  rw [reloaded, h]

theorem reloaded_of_offline (h : ch.state = .offline) : reloaded ch = { ch with resync := true } := by
  rw [reloaded, h]

/-- R85: an enabled flag that is set brings no chain but an OFFLINE one to IDLE. -/
theorem enableChanged_enabled (henabled : ch.entry.enabled = true)
    (h : ¬ (ch.state = .offline ∧ ch.senseLevel = true ∧ ch.faultCount < 3)) : enableChanged ch = ch := by
  rw [enableChanged, if_pos henabled, if_neg h]

theorem enableChanged_enters (henabled : ch.entry.enabled = true)
    (h : ch.state = .offline ∧ ch.senseLevel = true ∧ ch.faultCount < 3) : enableChanged ch = enterIdle ch := by
  rw [enableChanged, if_pos henabled, if_pos h]

/-- One that is cleared takes no chain but an IDLE one OFFLINE. -/
theorem enableChanged_disabled (henabled : ch.entry.enabled = false) (h : ch.state ≠ .idle) : enableChanged ch = ch := by
  rw [enableChanged, if_neg (by rw [henabled]; nofun), if_neg h]

theorem enableChanged_leaves (henabled : ch.entry.enabled = false) (h : ch.state = .idle) :
    enableChanged ch = goOffline ch := by
  rw [enableChanged, if_neg (by rw [henabled]; nofun), if_pos h]

theorem enableChanged_entry : (enableChanged ch).entry = ch.entry := by
  rw [enableChanged]
  split
  · split <;> rfl
  · split <;> rfl

theorem reloaded_entry : (reloaded ch).entry = ch.entry := by
  rw [reloaded]
  split <;> rfl

end

/-- A chain after a load of its entry, before it is told of it (R84, R85). -/
def entryLoaded (entry : ChainEntry) (ch : Chain) : Chain :=
  let loaded := reloaded { ch with entry := entry }
  if ch.entry.enabled = entry.enabled then loaded else enableChanged loaded

theorem applyChainEntry_eq (c : ChainId) (entry : ChainEntry) (s : State) :
    applyChainEntry c entry s = wakeChain c (s.setChain c (entryLoaded entry s.chains[c])) := rfl

section
variable {ch : Chain} {entry : ChainEntry}

theorem entryLoaded_entry : (entryLoaded entry ch).entry = entry := by
  rw [entryLoaded]
  split
  · exact reloaded_entry
  · exact enableChanged_entry.trans reloaded_entry

/-- A cycle in flight goes on, with resync and reload set. -/
theorem entryLoaded_of_cycle (h : ch.state = .shifting ∨ ch.state = .settling) :
    entryLoaded entry ch = { ch with entry := entry, resync := true, reload := true } := by
  obtain ⟨hidle, hoffline⟩ := ne_of_cycle h
  rw [entryLoaded, reloaded_of_cycle (ch := { ch with entry := entry }) h]
  split
  · rfl
  · cases henabled : entry.enabled with
    | true => exact enableChanged_enabled henabled fun hc => hoffline hc.1
    | false => exact enableChanged_disabled henabled hidle

/-- An IDLE chain that is disabled goes OFFLINE. -/
theorem entryLoaded_of_disabled (h : ch.state = .idle) (hold : ch.entry.enabled = true)
    (hnew : entry.enabled = false) : entryLoaded entry ch
      = goOffline { ch with entry := entry, shadowValid := false, resync := true } := by
  rw [entryLoaded, reloaded_of_idle (ch := { ch with entry := entry }) h, if_neg (by rw [hold, hnew]; nofun)]
  exact enableChanged_leaves hnew h

/-- Any other IDLE chain stays IDLE. -/
theorem entryLoaded_of_idle (h : ch.state = .idle) (hflags : ch.entry.enabled = false ∨ entry.enabled = true) :
    entryLoaded entry ch = { ch with entry := entry, shadowValid := false, resync := true } := by
  rw [entryLoaded, reloaded_of_idle (ch := { ch with entry := entry }) h]
  split
  · rfl
  · next hne =>
    have hnew : entry.enabled = true := by
      obtain hold | hnew := hflags
      · cases henabled : entry.enabled with
        | true => rfl
        | false => exact absurd (hold.trans henabled.symm) hne
      · exact hnew
    exact enableChanged_enabled hnew fun hc => ne_idle_of_offline hc.1 h

/-- An OFFLINE chain that is not enabled by the load stays OFFLINE. -/
theorem entryLoaded_of_offline (h : ch.state = .offline)
    (hflags : ch.entry.enabled = entry.enabled ∨ entry.enabled = false) :
    entryLoaded entry ch = { ch with entry := entry, resync := true } := by
  rw [entryLoaded, reloaded_of_offline (ch := { ch with entry := entry }) h]
  split
  · rfl
  · next hne =>
    exact enableChanged_disabled (hflags.resolve_left hne) (ne_idle_of_offline h)

/-- One that the load enables enters IDLE where it is present and below the fault limit. -/
theorem entryLoaded_of_enabled (h : ch.state = .offline) (hold : ch.entry.enabled = false)
    (hnew : entry.enabled = true) : entryLoaded entry ch
      = if ch.senseLevel = true ∧ ch.faultCount < 3 then enterIdle { ch with entry := entry }
        else { ch with entry := entry, resync := true } := by
  rw [entryLoaded, reloaded_of_offline (ch := { ch with entry := entry }) h, if_neg (by rw [hold, hnew]; nofun)]
  split
  · next hc => exact enableChanged_enters hnew ⟨h, hc⟩
  · next hc => exact enableChanged_enabled hnew fun hall => hc hall.2

end

/-- A chain with the kind of one module replaced (R71). -/
def withModule (k : Fin 64) (m : ModuleKind) (ch : Chain) : Chain := { ch with modules := ch.modules.set k m }

theorem applyModuleEntry_eq (c : ChainId) (k : Fin 64) (m : ModuleKind) (s : State) :
    applyModuleEntry c k m s = wakeChain c (s.setChain c (reloaded (withModule k m s.chains[c]))) := rfl

/-! ## A LOAD of one CHAIN or MODULE entry (R70, R71) -/

/-- The state after a load that replaces chain c by x and tells it, answered DONE. -/
def chainLoaded (c : ChainId) (x : Chain) (rest : List IntakeEntry) (body : List Byte) (u : State) : State :=
  { u with
    chains := (wakeChain c (u.setChain c x)).chains, slots := (wakeChain c (u.setChain c x)).slots, intake := rest,
    mgmt := replied (seqTag body) [0] u.mgmt }

section
variable {c : ChainId} {x : Chain} {rest : List IntakeEntry} {body : List Byte} {u : State}

/-- A chain that is not IDLE after the load takes no refresh. -/
theorem chainLoaded_rests (h : x.state ≠ .idle) :
    (chainLoaded c x rest body u).chains[c] = x ∧ (chainLoaded c x rest body u).slots = u.slots := by
  rw [chainLoaded, wakeChain_not_idle u h]
  exact ⟨setChain_same c x u, rfl⟩

/-- One that is IDLE with resync pending starts one. -/
theorem chainLoaded_starts (hidle : x.state = .idle) (hresync : x.resync = true) :
    RefreshAlone c (u.setChain c x) (chainLoaded c x rest body u) := wakeChain_resyncs u hidle hresync

theorem chainLoaded_entry : ((chainLoaded c x rest body u).chains[c]).entry = x.entry := by
  obtain ⟨-, hentry, -⟩ := (wakeChain_boards c (u.setChain c x)).1 c
  rw [setChain_same] at hentry
  exact hentry

end

theorem exec_loadChain_accepted {s : State} {e : IntakeEntry} {rest : List IntakeEntry} {c : ChainId}
    (h : HeadIs s e rest .loadChain) (hload : s.load = none) (hone : OneEntry e.body 7 c.val) :
    let u := afterGap e s
    exec .loadChain s
      = .next (chainLoaded c (entryLoaded (chainEntry (entryOf e.body)) u.chains[c]) rest e.body u) := by
  intro u
  have happly := congrArg some (wakeChain_setChain_frame c (entryLoaded (chainEntry (entryOf e.body)) u.chains[c]) u)
  rw [← applyChainEntry_eq] at happly
  refine whenRunning_takeLoad_accepted h hload hone c.isLt (Eq.trans ?_ happly) rfl rfl rfl
  rw [applyChainTable, chainOfCode_val]

theorem exec_loadModule_accepted {s : State} {e : IntakeEntry} {rest : List IntakeEntry} {c : ChainId} {k : Fin 64}
    {m : ModuleKind} (h : HeadIs s e rest .loadModule) (hload : s.load = none)
    (hone : OneEntry e.body 1 (c.val * 64 + k.val)) (hm : moduleOfCode (at8 (entryOf e.body) 0) = some m) :
    let u := afterGap e s
    exec .loadModule s = .next (chainLoaded c
      (reloaded (withModule k m u.chains[c])) rest e.body u) := by
  intro u
  have hchain : chainOfCode ((c.val * 64 + k.val) / 64) = some c := by
    rw [show (c.val * 64 + k.val) / 64 = c.val by omega, chainOfCode_val]
  have hplace : Fin.ofNat 64 (c.val * 64 + k.val) = k := Fin.ext (by simp only [Fin.ofNat]; omega)
  have happly := congrArg some (wakeChain_setChain_frame c (reloaded (withModule k m u.chains[c])) u)
  rw [← applyModuleEntry_eq] at happly
  refine whenRunning_takeLoad_accepted (size := 256) h hload hone (by omega) (Eq.trans ?_ happly) rfl rfl rfl
  rw [applyModuleTable, hchain, hm, hplace]

/-- Table 11-7: the kinds of a module by their codes. -/
theorem moduleOfCode_of_mem {code : Nat} {m : ModuleKind}
    (h : (code, m) ∈ [(0, ModuleKind.endOfList), (1, .char8), (2, .lamp), (3, .bypass)]) : moduleOfCode code = some m := by
  simp only [List.mem_cons, Prod.mk.injEq, List.not_mem_nil, or_false] at h
  obtain ⟨rfl, rfl⟩ | ⟨rfl, rfl⟩ | ⟨rfl, rfl⟩ | ⟨rfl, rfl⟩ := h <;> rfl

theorem moduleOfCode_of_gt {code : Nat} (h : 3 < code) : moduleOfCode code = none := by
  match code with
  | n + 4 => rfl

/-- Settles O22: the chain's entry or module replaced, and what a load does to it by its state. -/
theorem loadChainAndModuleStore : Obligations.LoadChainAndModuleStore := by
  unfold Obligations.LoadChainAndModuleStore
  refine ⟨?_, ?_⟩
  · intro s e rest c u x entry h hload hone
    have hexec : exec .loadChain s = .next (chainLoaded c (entryLoaded entry u.chains[c]) rest e.body u) :=
      exec_loadChain_accepted h hload hone
    refine ⟨_, hexec, chainLoaded_entry.trans entryLoaded_entry, fun hcycle => ?_,
      fun hidle hold hnew => ?_, fun hidle hflags => ?_, fun hoffline hflags => ?_, fun hoffline hold hnew => ?_,
      fun d hd => wakeChain_setChain_other hd _ u, wakeChain_setChain_descriptions c _ u, ⟨rfl, rfl, rfl, rfl, rfl, rfl⟩,
      rfl, rfl, rfl, rfl, rfl, rfl, rfl⟩
    · rw [entryLoaded_of_cycle hcycle]
      exact chainLoaded_rests (ne_of_cycle hcycle).1
    · rw [entryLoaded_of_disabled hidle hold hnew]
      exact chainLoaded_rests nofun
    · rw [entryLoaded_of_idle hidle hflags]
      exact chainLoaded_starts hidle rfl
    · rw [entryLoaded_of_offline hoffline hflags]
      exact chainLoaded_rests (ne_idle_of_offline hoffline)
    · rw [entryLoaded_of_enabled hoffline hold hnew]
      split
      · exact chainLoaded_starts rfl rfl
      · exact chainLoaded_rests (ne_idle_of_offline hoffline)
  · intro s e rest c k u code h hload hone
    refine ⟨fun m hm => ?_, fun hcode => ?_⟩
    · have hexec : exec .loadModule s = .next (chainLoaded c
          (reloaded (withModule k m u.chains[c])) rest e.body u) :=
        exec_loadModule_accepted h hload hone (moduleOfCode_of_mem hm)
      refine ⟨_, hexec, ⟨fun hcycle => ?_, fun hoffline => ?_,
        fun hidle => ?_⟩, fun d hd => wakeChain_setChain_other hd _ u, wakeChain_setChain_descriptions c _ u,
        ⟨rfl, rfl, rfl, rfl, rfl, rfl⟩, rfl, rfl, rfl, rfl, rfl, rfl, rfl⟩
      · rw [reloaded_of_cycle (ch := withModule k m u.chains[c]) hcycle]
        exact chainLoaded_rests (ne_of_cycle hcycle).1
      · rw [reloaded_of_offline (ch := withModule k m u.chains[c]) hoffline]
        exact chainLoaded_rests (ne_idle_of_offline hoffline)
      · rw [reloaded_of_idle (ch := withModule k m u.chains[c]) hidle]
        exact chainLoaded_starts hidle rfl
    · refine whenRunning_takeLoad_refused (size := 256) h hload hone (by omega) ?_
      rw [applyModuleTable, moduleOfCode_of_gt hcode]
      split
      · next hnone => cases hnone
      · rfl

end Sys2Proof.Machine

namespace Sys2Proof.Machine

open Sys2Proof.Safety

/-! ## The returned bits, and the echo check (R78, R178) -/

theorem length_shiftBits (image : List Byte) : (shiftBits image).length = 8 * image.length := by
  induction image with
  | nil => rfl
  | cons b rest ih =>
    have hbits : (bitsOf b).length = 8 := rfl
    rw [shiftBits, List.flatMap_cons, List.length_append, hbits, ← shiftBits, ih, List.length_cons]
    omega

/-- Bits that come eight to a stage, most significant first, spell those stages. -/
theorem stagesOf_eq {stages : List Byte} {returned : List Bool} (hlength : returned.length = 8 * stages.length)
    (hbits : ∀ i, (_ : i < stages.length) → ∀ j : Fin 8, returned[8 * i + j.val]? = some ((stages[i]).getLsbD (7 - j.val))) :
    stagesOf returned = stages := by
  have hreturned : returned = shiftBits stages := by
    refine List.ext_getElem? fun n => ?_
    by_cases hn : n < 8 * stages.length
    · have hi : n / 8 < stages.length := by omega
      have hplace : 8 * (n / 8) + n % 8 = n := by omega
      have hbit := hbits (n / 8) hi ⟨n % 8, by omega⟩
      have hstage := shiftBits_getElem? ⟨n % 8, by omega⟩ (List.getElem?_eq_getElem hi)
      simp only [hplace] at hbit hstage
      rw [hbit, hstage]
    · rw [List.getElem?_eq_none (by omega), List.getElem?_eq_none (by rw [length_shiftBits]; omega)]
  rw [hreturned, stagesOf_shiftBits]

/-- Stage i differs, as one of module m: it did not come, or it is not what is expected there. -/
def StageDiffers (layout : List (Nat × StageSource)) (shadow returned : List Byte) (i m : Nat) : Prop :=
  ∃ source, layout[i]? = some (m, source)
    ∧ (returned[i]? = none ∨ returned[i]? ≠ if source = .filler then some 0x20 else shadow[i]?)

theorem stageDiffers_zero {k m : Nat} {source : StageSource} {rest : List (Nat × StageSource)}
    {shadow returned : List Byte} : StageDiffers ((k, source) :: rest) shadow returned 0 m ↔ m = k
      ∧ ¬ (returned.head? = (if source = .filler then some chBlank else shadow.head?) ∧ returned ≠ []) := by
  have hblank : chBlank = 0x20 := rfl
  simp only [StageDiffers, ← List.head?_eq_getElem?, hblank]
  cases returned with
  | nil => simp [eq_comm]
  | cons b tail => simp [eq_comm]

theorem stageDiffers_succ {x : Nat × StageSource} {i m : Nat} {rest : List (Nat × StageSource)}
    {shadow returned : List Byte} : StageDiffers (x :: rest) shadow returned (i + 1) m
      ↔ StageDiffers rest shadow.tail returned.tail i m := by
  simp only [StageDiffers, List.getElem?_cons_succ, List.getElem?_tail]

/-- The modules that the echo check finds are those of the stages that differ. -/
theorem mem_differingModules {m : Nat} : ∀ {layout : List (Nat × StageSource)} {shadow returned : List Byte},
    m ∈ differingModules layout shadow returned ↔ ∃ i, StageDiffers layout shadow returned i m
  | [], _, _ => by simp [differingModules, StageDiffers]
  | (k, source) :: rest, shadow, returned => by
    have htail : m ∈ differingModules rest shadow.tail returned.tail
        ↔ ∃ i, StageDiffers ((k, source) :: rest) shadow returned (i + 1) m := by
      simp only [mem_differingModules, stageDiffers_succ]
    have hsplit : (∃ i, StageDiffers ((k, source) :: rest) shadow returned i m)
        ↔ StageDiffers ((k, source) :: rest) shadow returned 0 m
          ∨ ∃ i, StageDiffers ((k, source) :: rest) shadow returned (i + 1) m := Nat.or_exists_add_one.symm
    rw [hsplit, ← htail, stageDiffers_zero, differingModules]
    by_cases h : returned.head? = (if source = .filler then some chBlank else shadow.head?) ∧ returned ≠ []
    · rw [if_pos h]
      exact ⟨.inr, fun hm => hm.resolve_left fun hd => hd.2 h⟩
    · rw [if_neg h, List.mem_cons, and_iff_left h]

/-- R78: the lowest of the modules. -/
theorem lowestOf_eq_some {l : List Nat} {m : Nat} (hm : m ∈ l) (hle : ∀ n ∈ l, m ≤ n) : lowestOf l = some m := by
  have hmin : lowestOf l = l.min? := by cases l <;> rfl
  rw [hmin, List.min?_eq_some_iff]
  exact ⟨hm, hle⟩

/-! ## Shift completion (R78) -/

/-- The modules that a shift completion finds to differ. -/
def differingOf (c : ChainId) (cy : Cycle) (returned : List Byte) (s : State) : List Nat :=
  differingModules (stageLayout cy.list 0 0 0) (s.chains[c]).shadow returned

theorem shiftComplete_eq {c : ChainId} {cy : Cycle} {s : State} (returned : List Byte)
    (hstate : (s.chains[c]).state = .shifting) (hcycle : (s.chains[c]).cycle = some cy) :
    let differing := differingOf c cy returned s
    shiftComplete c returned s = { s.setChain c (latchAndSettle (echoChecked s.chains[c] cy differing) cy returned) with
      mgmt := if cy.verified = true ∧ differing ≠ [] then alertSet (.chainFault c) s.mgmt else s.mgmt } := by
  intro differing
  rw [shiftComplete, hstate, hcycle]
  show (if cy.verified = true ∧ differing ≠ [] then _ else _) = _
  split
  · rfl
  · rfl

section
variable {ch : Chain} {cy : Cycle} {differing : List Nat}

theorem echoChecked_unverified (h : cy.verified = false) : echoChecked ch cy differing = ch := by
  rw [echoChecked, h]
  rfl

theorem echoChecked_match (h : cy.verified = true) : echoChecked ch cy [] = { ch with faultCount := 0 } := by
  rw [echoChecked, h]
  rfl

theorem echoChecked_mismatch {m : Nat} (h : cy.verified = true) (hm : lowestOf differing = some m) :
    echoChecked ch cy differing = { ch with faultCount := min 3 (ch.faultCount + 1), firstMismatch := some m } := by
  rw [echoChecked, h, hm]
  rfl

end

/-! ## Settle completion (R79, R86) -/

/-- The chain once a pending reload and a pending reset are carried out. -/
theorem applyPendingReset_applyReload (ch : Chain) : applyPendingReset (applyReload ch) = { ch with
    reload := false, resetPending := false, faultCount := if ch.resetPending then 0 else ch.faultCount,
    firstMismatch := if ch.resetPending then none else ch.firstMismatch, resync := ch.resync || ch.resetPending,
    shadowValid := ch.shadowValid && !ch.reload && !ch.resetPending } := by
  obtain ⟨_, _, _, _, _, _, _, _, _, _, _, reload, resetPending, _, _, _, _⟩ := ch
  cases reload <;> cases resetPending <;> simp [applyPendingReset, applyReload, applyChainReset]

/-- The chain as it ends its cycle: the reload and the reset carried out, no cycle, and its settle timer stopped. -/
def cycleEnded (ch : Chain) : Chain := { ch with
  reload := false, resetPending := false, faultCount := if ch.resetPending then 0 else ch.faultCount,
  firstMismatch := if ch.resetPending then none else ch.firstMismatch, resync := ch.resync || ch.resetPending,
  shadowValid := ch.shadowValid && !ch.reload && !ch.resetPending, cycle := none, settleTimer := none }

theorem goOffline_ended (ch : Chain) : goOffline (applyPendingReset (applyReload ch))
    = { cycleEnded ch with state := .offline, shadowValid := false, keepaliveTimer := none } := by
  rw [applyPendingReset_applyReload]
  rfl

/-- The chain as it comes back to IDLE, with its keepalive timer started. -/
def idleAgain (ch : Chain) : Chain :=
  { cycleEnded ch with state := .idle, keepaliveTimer := some (ch.entry.keepalive * 1000) }

theorem backToIdle_ended (ch : Chain) : backToIdle (applyPendingReset (applyReload ch)) = idleAgain ch := by
  rw [applyPendingReset_applyReload]
  rfl

/-- R75, R79: what starts a refresh at once. -/
theorem wantsRefresh_idleAgain (c : ChainId) (ch : Chain) (s : State) :
    wantsRefresh (s.setChain c (idleAgain ch)) c = true
      ↔ ch.resync = true ∨ ch.resetPending = true ∨ ∃ e ∈ s.slots, e.2.chain = c ∧ e.2.dirty = true := by
  rw [wantsRefresh_iff, setChain_same]
  simp only [idleAgain, cycleEnded, true_and, Bool.or_eq_true, or_assoc, setChain_slots]

section
variable {c : ChainId} {s : State}

theorem settleComplete_disabled (h : (s.chains[c]).entry.enabled = false) : settleComplete c s
    = s.setChain c (goOffline (applyPendingReset (applyReload s.chains[c]))) := by
  refine if_pos ?_
  rw [applyPendingReset_applyReload]
  rw [h]
  rfl

theorem settleComplete_faulty (h : (s.chains[c]).entry.enabled = true)
    (hcount : 3 ≤ (cycleEnded s.chains[c]).faultCount) : settleComplete c s
      = raiseAlert (.chainFault c) (s.setChain c (goOffline (applyPendingReset (applyReload s.chains[c])))) := by
  refine (if_neg ?_).trans (if_pos ?_)
  · rw [applyPendingReset_applyReload]
    rw [h]
    nofun
  · rw [applyPendingReset_applyReload]
    exact hcount

theorem settleComplete_returns (h : (s.chains[c]).entry.enabled = true)
    (hcount : (cycleEnded s.chains[c]).faultCount < 3) : settleComplete c s
      = wakeChain c (s.setChain c (backToIdle (applyPendingReset (applyReload s.chains[c])))) := by
  refine (if_neg ?_).trans (if_neg ?_)
  · rw [applyPendingReset_applyReload]
    rw [h]
    nofun
  · rw [applyPendingReset_applyReload]
    exact Nat.not_le.mpr hcount

theorem exec_settleCompletion {k : Nat} (hphase : s.phase = .running) (hstate : (s.chains[c]).state = .settling)
    (htimer : (s.chains[c]).settleTimer = some k) : exec (.settleCompletion c) s = .next (settleComplete c s) := by
  have hruns : timerRuns (s.chains[c]).settleTimer = true := by rw [htimer]; rfl
  show whenRunning (settleExpire c) s = _
  rw [whenRunning, if_pos hphase, settleExpire, if_pos ⟨hstate, hruns⟩]

end

/-- Settles O35: the echo check by what the stages are, and the end of the cycle by the enabled flag and the count. -/
theorem shiftAndSettleComplete : Obligations.ShiftAndSettleComplete := by
  unfold Obligations.ShiftAndSettleComplete
  refine ⟨?_, ?_⟩
  · intro s c cy stages returned ch layout differs hlength hbits hphase hstate hcycle
    have hmem (m : Nat) : m ∈ differingOf c cy stages s ↔ ∃ i, differs i m := mem_differingModules
    have hexec : exec (.shiftCompletion c returned) s = .next (shiftComplete c stages s) := by
      show whenRunning (shiftComplete c (stagesOf returned)) s = _
      rw [whenRunning, if_pos hphase, stagesOf_eq hlength hbits]
    refine ⟨_, hexec, ?_⟩
    rw [shiftComplete_eq stages hstate hcycle]
    have hchain := setChain_same c (latchAndSettle (echoChecked s.chains[c] cy (differingOf c cy stages s)) cy stages) s
    refine ⟨⟨fun hv => ?_, fun hv hnone => ?_, fun m hv hsome hlow => ?_⟩, fun d hd => setChain_other hd _ s, rfl⟩
    · refine ⟨hchain.trans ?_, if_neg fun h => ?_⟩
      · rw [echoChecked_unverified hv]
        rfl
      · rw [hv] at h
        cases h.1
    · have hempty : differingOf c cy stages s = [] :=
        List.eq_nil_iff_forall_not_mem.mpr fun m hm => ((hmem m).mp hm).elim fun i => hnone i m
      refine ⟨hchain.trans ?_, if_neg fun h => h.2 hempty⟩
      rw [hempty, echoChecked_match hv]
      rfl
    · have hin := (hmem m).mpr hsome
      have hlowest := lowestOf_eq_some hin fun n hn => ((hmem n).mp hn).elim fun i => hlow i n
      refine ⟨hchain.trans ?_, if_pos ⟨hv, List.ne_nil_of_mem hin⟩⟩
      rw [echoChecked_mismatch hv hlowest]
      rfl
  · intro s c k ch count hphase hstate htimer
    refine ⟨_, exec_settleCompletion hphase hstate htimer, ?_⟩
    cases henabled : ch.entry.enabled with
    | false =>
      rw [settleComplete_disabled henabled, goOffline_ended]
      exact ⟨⟨fun _ => ⟨setChain_same c _ s, rfl, rfl⟩, nofun⟩, fun d hd => setChain_other hd _ s, rfl⟩
    | true =>
      by_cases hcount : 3 ≤ count
      · rw [settleComplete_faulty henabled hcount, goOffline_ended]
        exact ⟨⟨fun _ => ⟨setChain_same c _ s, rfl, rfl⟩, fun _ hlow => absurd hcount (Nat.not_le.mpr hlow)⟩,
          fun d hd => setChain_other hd _ s, rfl⟩
      · rw [settleComplete_returns henabled (Nat.lt_of_not_le hcount), backToIdle_ended]
        refine ⟨⟨fun h => absurd h (by simp [hcount]), fun _ _ => ⟨?_, ?_⟩⟩, fun d hd => wakeChain_setChain_other hd _ s, ?_⟩
        · rw [wakeChain_setChain_frame]
        · have hwants := wantsRefresh_idleAgain c ch s
          split
          · next h => exact wakeChain_starts (hwants.mpr h)
          · next h =>
            rw [wakeChain_rests fun hw => h (hwants.mp hw)]
            exact ⟨setChain_same c _ s, rfl⟩
        · rw [wakeChain_setChain_frame]

end Sys2Proof.Machine

namespace Sys2Proof.Machine

open Sys2Proof.Safety

/-! ## A ticker step that composes nothing (R112, R114, R128, R129) -/

section
variable {s : State}

theorem exec_step_of_running {k : Nat} (hphase : s.phase = .running) (hstate : s.ticker.state ≠ .stopped)
    (htimer : s.ticker.stepTimer = some k) : exec .step s = .next (restartStep (emitStep s)) := by
  have hruns : timerRuns s.ticker.stepTimer = true := by rw [htimer]; rfl
  have hexpire : stepExpire s = restartStep (emitStep s) := if_pos ⟨hruns, hstate⟩
  show Host.Outcome.next (if s.phase = .running then stepExpire s else s) = _
  rw [if_pos hphase, hexpire]

/-- R128: a step within a text. -/
theorem emitStep_of_text {x : Byte} (h : s.ticker.text[s.ticker.cursor]? = some x) :
    emitStep s = { s with ticker := { s.ticker with
      out := some x, cursor := s.ticker.cursor + 1,
      separator := if s.ticker.cursor + 1 = s.ticker.text.length then 2 else s.ticker.separator } } := by
  have hlt : s.ticker.cursor < s.ticker.text.length := (List.getElem?_eq_some_iff.mp h).1
  rw [emitStep, if_pos hlt, h]
  rfl

/-- R128: a separator step. -/
theorem emitStep_of_separator (htext : s.ticker.text.length ≤ s.ticker.cursor) (hseparator : 0 < s.ticker.separator) :
    emitStep s = { s with ticker := { s.ticker with
      out := some 0x20, separator := s.ticker.separator - 1 } } := by
  rw [emitStep, if_neg (Nat.not_lt.mpr htext), if_pos hseparator]
  rfl

/-- R114, R120: a composition step that finds the queue empty. -/
theorem compositionStep_of_empty (h : s.ticker.queue = []) :
    compositionStep s = if s.ticker.state = .draining then stopTicker (emitBlank s) else emitBlank s := by
  have hcompose : compose (s.ticker.queue.length + 1) s = (false, s) := by simp only [compose, h]
  simp only [compositionStep, hcompose]

/-- The ticker as it enters STOPPED: its text, its separator and its level gone (R114). -/
def stoppedTicker (t : Ticker) : Ticker :=
  { t with
    state := .stopped, stepTimer := none, text := [], cursor := 0, separator := 0, level := 0, lateMinutes := 0 }

theorem stopTicker_eq (s : State) : stopTicker s
    = if s.ticker.level = 0 then { s with ticker := stoppedTicker s.ticker }
      else { markedBoards statusMark { s with ticker := stoppedTicker s.ticker } with line := lineWithStatus s.line } := by
  simp only [stopTicker, handLevel, markStatus_eq]
  rfl

/-- A step that has stopped the ticker leaves its timer stopped (R129). -/
theorem restartStep_stopTicker (s : State) : restartStep (stopTicker s) = stopTicker s := by
  refine if_pos ?_
  rw [stopTicker_eq]
  split <;> rfl

/-- R114, R122 step 4: what the stop of the ticker brings about. -/
theorem stopTicker_told (s : State) :
    let t := stopTicker s
    t.ticker = stoppedTicker s.ticker
      ∧ t = { s with ticker := t.ticker, line := t.line, chains := t.chains, slots := t.slots }
      ∧ (s.ticker.level = 0 → t.chains = s.chains ∧ t.slots = s.slots ∧ t.line = s.line)
      ∧ (s.ticker.level ≠ 0 → BoardsMarked statusMark { s with ticker := t.ticker } t ∧ t.line = lineWithStatus s.line) := by
  intro t
  by_cases hlevel : s.ticker.level = 0
  · have ht : t = { s with ticker := stoppedTicker s.ticker } := (stopTicker_eq s).trans (if_pos hlevel)
    rw [ht]
    exact ⟨rfl, rfl, fun _ => ⟨rfl, rfl, rfl⟩, fun hne => absurd hlevel hne⟩
  · have ht : t = { markedBoards statusMark { s with ticker := stoppedTicker s.ticker } with
        line := lineWithStatus s.line } := (stopTicker_eq s).trans (if_neg hlevel)
    rw [ht]
    exact ⟨rfl, rfl, fun h => absurd h hlevel, fun _ => ⟨boardsMarked_markedBoards _ _, rfl⟩⟩

/-- R128, R129: a step that emits and leaves the ticker running restarts the step timer. -/
theorem exec_step_emits {k : Nat} {tk : Ticker} (hphase : s.phase = .running) (hstate : s.ticker.state ≠ .stopped)
    (htimer : s.ticker.stepTimer = some k) (hemit : emitStep s = { s with ticker := tk })
    (hkept : tk.state = s.ticker.state ∧ tk.level = s.ticker.level) :
    exec .step s = .next { s with ticker := { tk with
      stepTimer := some (if s.ticker.level ≤ 2 then param s 7 else param s 8) } } := by
  have hruns : tk.state ≠ .stopped := hkept.1 ▸ hstate
  rw [exec_step_of_running hphase hstate htimer, hemit,
    restartStep_of_running (s := { s with ticker := tk }) hruns, apply_ite some, ← hkept.2]
  rfl

/-! ## The emitted character on the ticker output (R112, R178) -/

/-- An asynchronous character: its start bit, its bits from the lowest up, and marking after them. -/
theorem characterBits_getD (x : Byte) : (characterBits x).getD 0 marking = false
    ∧ (∀ j : Fin 8, (characterBits x).getD (1 + j.val) marking = x.getLsbD j.val)
    ∧ ∀ k, 9 ≤ k → (characterBits x).getD k marking = true := by
  refine ⟨rfl, fun j => ?_, fun k hk => ?_⟩
  · match j with
    | 0 | 1 | 2 | 3 | 4 | 5 | 6 | 7 => rfl
  · obtain rfl | hlt := hk.eq_or_lt
    · rfl
    · exact List.getD_eq_default _ _ hlt

theorem tickerLine_of_out {x : Byte} (hphase : s.phase = .running) (hout : s.ticker.out = some x) (k : Nat) :
    tickerLine s k = (characterBits x).getD k marking := by
  rw [tickerLine, if_pos hphase, hout]
  rfl

theorem tickerPresents_of_out {x : Byte} (hphase : s.phase = .running) (hout : s.ticker.out = some x) :
    tickerPresents s = if s.ticker.state ≠ .stopped then x else 0x20 := by
  simp only [tickerPresents, hphase, hout, true_and, Option.getD_some]

end

/-- Settles O38: by what the step finds — a character of the text, a separator step due, or an empty queue — and the
ticker line bit by bit. -/
theorem tickerStepEmits : Obligations.TickerStepEmits := by
  unfold Obligations.TickerStepEmits
  refine ⟨?_, ?_⟩
  · intro s k tk interval hphase hstate htimer
    have hdone (htext : tk.text.length ≤ tk.cursor) (hseparator : tk.separator = 0) : emitStep s = compositionStep s := by
      rw [emitStep, if_neg (Nat.not_lt.mpr htext), if_neg (by rw [hseparator]; exact Nat.lt_irrefl 0)]
    refine ⟨fun x hx => ?_, fun htext hseparator => ?_, fun htext hseparator hqueue hrunning => ?_,
      fun htext hseparator hqueue hdraining => ?_⟩
    · exact exec_step_emits hphase hstate htimer (emitStep_of_text hx) ⟨rfl, rfl⟩
    · exact exec_step_emits hphase hstate htimer (emitStep_of_separator htext hseparator) ⟨rfl, rfl⟩
    · have hblank : emitStep s = emitBlank s := by
        rw [hdone htext hseparator, compositionStep_of_empty hqueue, if_neg (by rw [hrunning]; nofun)]
      exact exec_step_emits hphase hstate htimer hblank ⟨rfl, rfl⟩
    · have hstops : restartStep (emitStep s) = stopTicker (emitBlank s) := by
        rw [hdone htext hseparator, compositionStep_of_empty hqueue, if_pos hdraining, restartStep_stopTicker]
      obtain ⟨hticker, hframe, hlevel⟩ := stopTicker_told (emitBlank s)
      refine ⟨_, (exec_step_of_running hphase hstate htimer).trans (congrArg _ hstops), ?_, hframe, hlevel⟩
      rw [hticker]
      rfl
  · intro s x hphase hout
    obtain ⟨hstart, hbits, hrest⟩ := characterBits_getD x
    have hpresents := tickerPresents_of_out hphase hout
    simp only [tickerLine_of_out hphase hout]
    exact ⟨fun h => hpresents.trans (if_pos h), fun h => hpresents.trans (if_neg (not_not.mpr h)), hstart, hbits, hrest⟩

end Sys2Proof.Machine

namespace Sys2Proof.Machine

open Sys2Proof.Safety

/-! ## A bulletin stack changed at its top (R106 to R109) -/

theorem markMessages_eq (k : StackId) (s : State) : markMessages k s = markedBoards (messageMark k) s := by
  rw [markMessages, markSlots_eq]
  congr 1
  funext sl
  obtain ⟨chain, start, kind, dirty, flash⟩ := sl
  cases kind <;> simp [messageMark, dirtied]

theorem marks_messageMark (k : StackId) : Marks (messageMark k) := by
  refine ⟨fun sl => ?_, fun a b _ hflash => ?_⟩
  · simp only [messageMark]
    repeat' split
    all_goals rfl
  · have hkept (sl : Slot) : (messageMark k sl).flash = sl.flash := by
      simp only [messageMark]
      repeat' split
      all_goals rfl
    rw [hkept, hkept, hflash]

/-- The offer of the text that a change of the top uncovers is an offer, or none (R106). -/
theorem offers_offerUncovered (stack : List BulletinEntry) : Offers (offerUncovered stack) := by
  cases stack with
  | nil => exact offers_none
  | cons top rest => exact (offers_offerText false top.text).ite offers_none (top.tapeFlag = true)

/-- What a new content of stack k leaves as it is, whatever it does to the boards, the ticker and the responder. -/
def StackFrame (intake : List IntakeEntry) (u t : State) : Prop :=
  KeepsFeedAndTime u t ∧ BoardsOnlyRefresh u t ∧ t.intake = intake ∧ t.records = u.records
    ∧ t.directory = u.directory ∧ t.line = u.line

/-- Stack k with a new content and a new top: its MESSAGE slots marked, and then an offer made. -/
def topChanged (k : StackId) (stack : List BulletinEntry) (offered : State → State) (u : State) : State :=
  offered (markMessages k (u.setStack k stack))

/-- What a change of the top of stack k brings about, told of the state u before it and a state t after it. -/
structure TopChanged (k : StackId) (stack : List BulletinEntry) (offered : State → State) (u t : State) : Prop where
  stack : t.bulletins[k] = stack
  others : ∀ j : StackId, j ≠ k → t.bulletins[j] = u.bulletins[j]
  offer : t.ticker = (offered u).ticker ∧ t.mgmt = (offered u).mgmt
  boards : BoardsMarked (messageMark k) { u with bulletins := t.bulletins } t

/-- The intake queue is no part of it. -/
theorem TopChanged.setIntake {k : StackId} {stack : List BulletinEntry} {offered : State → State} {u t : State}
    (h : TopChanged k stack offered u t) (rest : List IntakeEntry) : TopChanged k stack offered u (t.setIntake rest) :=
  ⟨h.stack, h.others, h.offer, h.boards⟩

theorem StackFrame.setIntake {intake : List IntakeEntry} {u t : State} (h : StackFrame intake u t)
    (rest : List IntakeEntry) : StackFrame rest u (t.setIntake rest) := by
  obtain ⟨hkeeps, hboards, -, hothers⟩ := h
  exact ⟨hkeeps, hboards, rfl, hothers⟩

theorem stackFrame_refl (u : State) : StackFrame u.intake u u :=
  ⟨⟨rfl, rfl, rfl, rfl, rfl, rfl⟩, boardsOnlyRefresh_refl u, rfl, rfl, rfl, rfl⟩

theorem stackFrame_setStack (k : StackId) (stack : List BulletinEntry) (u : State) :
    StackFrame u.intake u (u.setStack k stack) :=
  ⟨⟨rfl, rfl, rfl, rfl, rfl, rfl⟩, boardsOnlyRefresh_of_eq rfl rfl, rfl, rfl, rfl, rfl⟩

theorem setStack_same (k : StackId) (stack : List BulletinEntry) (u : State) : (u.setStack k stack).bulletins[k] = stack := by
  simp

theorem setStack_other {k j : StackId} (h : j ≠ k) (stack : List BulletinEntry) (u : State) :
    (u.setStack k stack).bulletins[j] = u.bulletins[j] := by
  have hv : k.val ≠ j.val := fun hv => h (Fin.ext hv.symm)
  simp [Vector.getElem_set_ne _ _ hv]

section
variable {k : StackId} {stack : List BulletinEntry} {offered : State → State} {u : State}

/-- A change of the top, told whole: the stack, the boards that the mark leaves, and the offer made from before it. -/
theorem topChanged_eq (h : Offers offered) : topChanged k stack offered u
    = { markedBoards (messageMark k) (u.setStack k stack) with
        ticker := (offered u).ticker, mgmt := (offered u).mgmt } := by
  obtain ⟨hticker, hmgmt⟩ := h.same u (markedBoards (messageMark k) (u.setStack k stack)) ⟨rfl, rfl⟩
  rw [topChanged, markMessages_eq, h.frame, hticker, hmgmt]

theorem topChanged_told (h : Offers offered) : TopChanged k stack offered u (topChanged k stack offered u) := by
  rw [topChanged_eq h]
  exact ⟨setStack_same k stack u, fun j hj => setStack_other hj stack u, ⟨rfl, rfl⟩,
    boardsMarked_markedBoards (messageMark k) (u.setStack k stack)⟩

theorem stackFrame_topChanged (h : Offers offered) : StackFrame u.intake u (topChanged k stack offered u) := by
  have hboards : BoardsOnlyRefresh u (markedBoards (messageMark k) (u.setStack k stack)) :=
    markedBoards_boards (marks_messageMark k) (u.setStack k stack)
  rw [topChanged_eq h]
  exact ⟨⟨rfl, rfl, rfl, rfl, rfl, rfl⟩, hboards, rfl, rfl, rfl, rfl⟩

end

/-! ## BULLETIN frames (R107, R108) -/

section
variable {s : State} {e : IntakeEntry} {rest : List IntakeEntry} {step : FrameStep} {b : BulletinItems}
  {apply : BulletinItems → State → State}

/-- A BULLETIN frame that changes the top of its stack: what the step answers. -/
theorem exists_topChanged {stack : List BulletinEntry} {offered : State → State} (hhead : HeadIs s e rest step)
    (hb : bulletinItems (payload e.body) = some b) (hoffer : Offers offered)
    (happly : apply b (afterGap e s) = topChanged b.stack stack offered (afterGap e s)) :
    ∃ t, whenRunning (takeHead step (applyItems bulletinItems apply)) s = .next t
      ∧ TopChanged b.stack stack offered (afterGap e s) t ∧ StackFrame rest (afterGap e s) t := by
  have hbody : applyItems bulletinItems apply e.body (afterGap e s) = topChanged b.stack stack offered (afterGap e s) :=
    (applyItems_of_some hb _).trans happly
  have hframe : StackFrame _ _ (topChanged b.stack stack offered (afterGap e s)) := stackFrame_topChanged hoffer
  obtain ⟨-, -, hintake, -⟩ := hframe
  refine ⟨_, whenRunning_takeHead hhead (by rw [hbody, hintake]), ?_⟩
  rw [hbody]
  exact ⟨(topChanged_told hoffer).setIntake rest, (stackFrame_topChanged hoffer).setIntake rest⟩

/-- A BULLETIN frame that finds nothing to change. -/
theorem whenRunning_bulletin_unchanged (hhead : HeadIs s e rest step) (hb : bulletinItems (payload e.body) = some b)
    (happly : apply b (afterGap e s) = afterGap e s) :
    whenRunning (takeHead step (applyItems bulletinItems apply)) s = .next ((afterGap e s).setIntake rest) := by
  have hbody : applyItems bulletinItems apply e.body (afterGap e s) = afterGap e s :=
    (applyItems_of_some hb _).trans happly
  rw [whenRunning_takeHead hhead (by rw [hbody]), hbody]

end

section
variable {b : BulletinItems} {u : State}

/-- R107: a PUSH, and the offer of its own text. -/
def pushOffer (b : BulletinItems) (v : State) : State := if b.tapeFlag = true then offerText false b.text v else v

theorem offers_pushOffer (b : BulletinItems) : Offers (pushOffer b) :=
  (offers_offerText false b.text).ite offers_none (b.tapeFlag = true)

theorem applyPush_eq (b : BulletinItems) (u : State) :
    applyPush b u = topChanged b.stack (pushedEntry b :: (u.bulletins[b.stack]).take 3) (pushOffer b) u := rfl

theorem applyPop_of_nil (h : u.bulletins[b.stack] = []) : applyPop b u = u := by
  simp only [applyPop, h]

theorem applyPop_of_cons {top : BulletinEntry} {below : List BulletinEntry} (h : u.bulletins[b.stack] = top :: below) :
    applyPop b u = topChanged b.stack below (offerUncovered below) u := by
  simp only [applyPop, h]
  rfl

theorem applyClear_of_nil (h : u.bulletins[b.stack] = []) : applyClear b u = u := by
  simp only [applyClear, h]

theorem applyClear_of_cons {top : BulletinEntry} {below : List BulletinEntry} (h : u.bulletins[b.stack] = top :: below) :
    applyClear b u = topChanged b.stack [] (fun v => v) u := by
  simp only [applyClear, h]
  rfl

end

/-! ## The expiry of a duration (R109) -/

section
variable {s : State} {k : StackId} {b : BulletinEntry} {above below : List BulletinEntry}

/-- The entry on top expires: the one below it comes to the top, if there is one. -/
theorem bulletinExpire_top (hstack : s.bulletins[k] = b :: below) (htimer : b.timer.isSome = true) :
    bulletinExpire k 0 s = topChanged k below (offerUncovered below) s := by
  simp only [bulletinExpire, hstack, List.getElem?_cons_zero, timerRuns, htimer, if_true, List.eraseIdx_cons_zero]
  rfl

/-- An entry below the top expires. -/
theorem bulletinExpire_below (hstack : s.bulletins[k] = above ++ b :: below) (htimer : b.timer.isSome = true)
    (habove : above ≠ []) : bulletinExpire k above.length s = s.setStack k (above ++ below) := by
  have hentry : (above ++ b :: below)[above.length]? = some b := by simp
  have hrest : (above ++ b :: below).eraseIdx above.length = above ++ below := by
    rw [List.eraseIdx_append_of_length_le le_rfl, Nat.sub_self, List.eraseIdx_cons_zero]
  have hplace : above.length ≠ 0 := fun h => habove (List.eq_nil_of_length_eq_zero h)
  simp only [bulletinExpire, hstack, hentry, timerRuns, htimer, if_true, hrest, hplace, if_false]

end

theorem exec_bulletinDurationExpiry {s : State} (hphase : s.phase = .running) (k : StackId) (position : Nat) :
    exec (.bulletinDurationExpiry k position) s = .next (bulletinExpire k position s) := by
  show whenRunning (bulletinExpire k position) s = _
  rw [whenRunning, if_pos hphase]

/-- Settles O18: PUSH, POP and CLEAR by the stack they find, and an expiry by whether it takes the top. -/
theorem bulletinStacksChange : Obligations.BulletinStacksChange := by
  unfold Obligations.BulletinStacksChange
  refine ⟨?_, ?_⟩
  · intro s e rest b u pushed topGone hb
    have hstands : StackFrame rest u (u.setIntake rest) := (stackFrame_refl u).setIntake rest
    have hgone {t : State} {top : BulletinEntry} {below : List BulletinEntry} (hstack : u.bulletins[b.stack] = top :: below)
        (h : BoardsMarked (messageMark b.stack) { u with bulletins := t.bulletins } t) : topGone t :=
      (if_neg (by rw [hstack]; nofun)).mpr h
    refine ⟨fun h => ?_, fun h => ?_, fun h => ?_⟩
    · obtain ⟨t, hexec, htop, hframe⟩ := exists_topChanged h hb (offers_pushOffer b) (applyPush_eq b u)
      have hoffered := htop.offer
      exact ⟨t, hexec, htop.stack, htop.others, hoffered, htop.boards, hframe⟩
    · cases hstack : u.bulletins[b.stack] with
      | nil =>
        exact ⟨_, whenRunning_bulletin_unchanged h hb (applyPop_of_nil hstack), hstack, fun _ _ => rfl, ⟨rfl, rfl⟩,
          (if_pos hstack).mpr ⟨rfl, rfl⟩, hstands⟩
      | cons top below =>
        obtain ⟨t, hexec, htop, hframe⟩ := exists_topChanged h hb (offers_offerUncovered below) (applyPop_of_cons hstack)
        refine ⟨t, hexec, htop.stack, htop.others, ?_, hgone hstack htop.boards, hframe⟩
        cases below <;> exact htop.offer
    · cases hstack : u.bulletins[b.stack] with
      | nil =>
        exact ⟨_, whenRunning_bulletin_unchanged h hb (applyClear_of_nil hstack), hstack, fun _ _ => rfl, rfl, rfl,
          (if_pos hstack).mpr ⟨rfl, rfl⟩, hstands⟩
      | cons top below =>
        obtain ⟨t, hexec, ⟨hempty, hothers, ⟨hticker, hmgmt⟩, hboards⟩, hframe⟩ :=
          exists_topChanged h hb offers_none (applyClear_of_cons hstack)
        exact ⟨t, hexec, hempty, hothers, hticker, hmgmt, hgone hstack hboards, hframe⟩
  · intro s k above below b hphase hstack htimer
    cases above with
    | nil =>
      have hoffer := offers_offerUncovered below
      obtain ⟨hrest, hothers, hoffered, hboards⟩ := topChanged_told (k := k) (stack := below) (u := s) hoffer
      have hexec := (exec_bulletinDurationExpiry hphase k 0).trans (congrArg _ (bulletinExpire_top hstack htimer))
      refine ⟨_, hexec, hrest, hothers, fun h => absurd rfl h, fun _ => ⟨hboards, ?_⟩, stackFrame_topChanged hoffer⟩
      cases below <;> exact hoffered
    | cons top rest =>
      have hexpire := bulletinExpire_below hstack htimer (List.cons_ne_nil top rest)
      exact ⟨_, (exec_bulletinDurationExpiry hphase k _).trans (congrArg _ hexpire), setStack_same k _ s,
        fun j hj => setStack_other hj _ s, fun _ => ⟨rfl, rfl, rfl, rfl⟩, nofun, stackFrame_setStack k _ s⟩

end Sys2Proof.Machine

namespace Sys2Proof.Machine

open Sys2Proof.Safety

/-! ## A SLOT entry read (R92, R93, R177, Table 11-7) -/

section
variable {x : List Byte}

/-- Table 11-7: the eight field codes, their names and their widths. -/
theorem boardFieldOfCode_of_good : ∀ b : Byte, b ≠ 0 → ¬ 8 < b.toNat → boardFieldOfCode b.toNat = some (fieldOf b)
    ∧ boardFieldCode (fieldOf b) = b ∧ fieldWidth (fieldOf b) = if b = 6 then 6 else 5 := by decide +kernel

theorem boardFieldOfCode_of_gt {k : Nat} (h : 8 < k) : boardFieldOfCode k = none := by
  match k with
  | j + 9 => rfl

theorem mem_slotCodes_ne_zero {b : Byte} (h : b ∈ slotCodes x) : b ≠ 0 := by
  simpa using List.mem_takeWhile_imp h

/-- Codes that are all field codes name their fields. -/
theorem mapM_boardField : ∀ {codes : List Byte}, (∀ b ∈ codes, b ≠ 0) →
    codes.mapM (fun b => boardFieldOfCode b.toNat) = if ∃ b ∈ codes, 8 < b.toNat then none else some (codes.map fieldOf)
  | [], _ => by simp
  | b :: codes, h => by
    have ih := mapM_boardField fun a ha => h a (List.mem_cons_of_mem b ha)
    by_cases hb : 8 < b.toNat
    · simp [boardFieldOfCode_of_gt hb, hb]
    · obtain ⟨hfield, -⟩ := boardFieldOfCode_of_good b (h b List.mem_cons_self) hb
      rw [List.mapM_cons, hfield, ih]
      by_cases hcodes : ∃ a ∈ codes, 8 < a.toNat
      · rw [if_pos hcodes, if_pos (hcodes.imp fun a ha => ⟨List.mem_cons_of_mem b ha.1, ha.2⟩)]
        rfl
      · rw [if_neg hcodes, if_neg (by simpa [hb] using hcodes)]
        rfl

theorem fieldListAt_eq (x : List Byte) : fieldListAt x
    = if ∃ b ∈ slotCodes x, 8 < b.toNat then none else some ((slotCodes x).map fieldOf) :=
  mapM_boardField fun _ => mem_slotCodes_ne_zero

/-- Field codes are distinct where their fields are. -/
theorem nodup_map_fieldOf {codes : List Byte} (hzero : ∀ b ∈ codes, b ≠ 0) (hgood : ∀ b ∈ codes, ¬ 8 < b.toNat) :
    (codes.map fieldOf).Nodup ↔ codes.Nodup := by
  refine ⟨List.Nodup.of_map _, fun h => h.map_on fun a ha b hb hab => ?_⟩
  obtain ⟨-, hacode, -⟩ := boardFieldOfCode_of_good a (hzero a ha) (hgood a ha)
  obtain ⟨-, hbcode, -⟩ := boardFieldOfCode_of_good b (hzero b hb) (hgood b hb)
  rw [← hacode, hab, hbcode]

theorem lampItem_eq (k : Nat) : lampItem k
    = if 63 < k ∧ k ≠ 0xFF then none else some (if k = 0xFF then none else some k) := by
  rw [lampItem]
  by_cases hff : k = 0xFF
  · simp [hff]
  · by_cases hk : 63 < k
    · rw [if_neg hff, if_neg (by omega), if_pos ⟨hk, hff⟩]
    · rw [if_neg hff, if_pos (by omega), if_neg (fun h => hk h.1), if_neg hff]

/-- The items for which a QUOTE entry is refused, its place apart (R93). -/
def QuoteFails (x : List Byte) : Prop :=
  511 < at16 x 4 ∨ slotCodes x = [] ∨ (∃ b ∈ slotCodes x, 8 < b.toNat) ∨ ¬ (slotCodes x).Nodup
    ∨ 3 < at8 x 12 ∨ (63 < at8 x 13 ∧ at8 x 13 ≠ 0xFF) ∨ 1 < at8 x 14

/-- The same of a MESSAGE entry. -/
def MessageFails (x : List Byte) : Prop := at8 x 4 = 0 ∨ 32 < at8 x 4 ∨ 7 < at8 x 5

/-- The values of the place for which a SLOT entry is refused. -/
def PlaceFails (x : List Byte) : Prop := 3 < at8 x 1 ∨ 511 < at16 x 2 ∨ 512 < at16 x 2 + slotSpan x

theorem quoteKind_eq (h : at8 x 0 = 1) : (slotOf x).kind = .quote (at16 x 4) ((slotCodes x).map fieldOf) (at8 x 12)
    (if at8 x 13 = 0xFF then none else some (at8 x 13)) (at8 x 14 == 1) := if_pos h

theorem slotKindAt_of_quoteFails (h : at8 x 0 = 1) (hfails : QuoteFails x) : slotKindAt x = none := by
  simp only [slotKindAt, h, fieldListAt_eq, lampItem_eq]
  by_cases hcode : ∃ b ∈ slotCodes x, 8 < b.toNat
  · rw [if_pos hcode]
  · by_cases hlamp : 63 < at8 x 13 ∧ at8 x 13 ≠ 0xFF
    · rw [if_neg hcode, if_pos hlamp]
    · rw [if_neg hcode, if_neg hlamp]
      refine if_neg fun ⟨hrecord, hsome, _, hnodup, hgap, hflash⟩ => ?_
      rw [nodup_map_fieldOf (fun b => mem_slotCodes_ne_zero) fun b hb hgt => hcode ⟨b, hb, hgt⟩] at hnodup
      obtain hrecord' | hnil | hcode' | hdouble | hgap' | hlamp' | hflash' := hfails
      · exact absurd hrecord (Nat.not_le.mpr hrecord')
      · simp [hnil] at hsome
      · exact hcode hcode'
      · exact hdouble hnodup
      · exact absurd hgap (Nat.not_le.mpr hgap')
      · exact hlamp hlamp'
      · exact absurd hflash (Nat.not_le.mpr hflash')

theorem slotKindAt_of_quote (h : at8 x 0 = 1) (hgood : ¬ QuoteFails x) : slotKindAt x = some (slotOf x).kind := by
  simp only [QuoteFails, not_or] at hgood
  obtain ⟨hrecord, hsome, hcode, hnodup, hgap, hlamp, hflash⟩ := hgood
  have hdistinct := (nodup_map_fieldOf (fun b => mem_slotCodes_ne_zero) fun b hb hgt => hcode ⟨b, hb, hgt⟩).mpr
    (not_not.mp hnodup)
  have hlen : (slotCodes x).length ≤ 6 := (List.takeWhile_sublist _).length_le.trans (List.length_take_le _ _)
  simp only [slotKindAt, h, fieldListAt_eq, lampItem_eq, if_neg hcode, if_neg hlamp, quoteKind_eq h]
  rw [List.length_map]
  exact if_pos ⟨Nat.not_lt.mp hrecord, List.length_pos_iff.mpr hsome, hlen, hdistinct, Nat.not_lt.mp hgap,
    Nat.not_lt.mp hflash⟩

theorem spanWidth_of_quote (h : at8 x 0 = 1) (hgood : ¬ QuoteFails x) : spanWidth (slotOf x).kind = slotSpan x := by
  have hcode : ¬ ∃ b ∈ slotCodes x, 8 < b.toNat := fun hc => hgood (.inr (.inr (.inl hc)))
  have hwidth : (slotCodes x).map (fieldWidth ∘ fieldOf) = (slotCodes x).map (fun b => if b = 6 then 6 else 5) := by
    refine List.map_congr_left fun b hb => ?_
    obtain ⟨-, -, hwidth⟩ := boardFieldOfCode_of_good b (mem_slotCodes_ne_zero hb) fun hgt => hcode ⟨b, hb, hgt⟩
    exact hwidth
  rw [quoteKind_eq h, spanWidth, quoteWidth, List.map_map, hwidth, List.length_map]
  exact (if_pos h).symm

/-- The values that R93 asks of the kind items. -/
def KindFails (x : List Byte) : Prop :=
  4 < at8 x 0 ∨ (at8 x 0 = 1 ∧ QuoteFails x) ∨ (at8 x 0 = 2 ∧ MessageFails x)

theorem slotValuesFail_iff : SlotValuesFail x ↔ KindFails x ∨ (at8 x 0 ≠ 0 ∧ PlaceFails x) := by
  have hvalues : SlotValuesFail x ↔ 4 < at8 x 0 ∨ (at8 x 0 ≠ 0 ∧ PlaceFails x)
      ∨ ((at8 x 0 = 1 ∧ QuoteFails x) ∨ (at8 x 0 = 2 ∧ MessageFails x)) := Iff.rfl
  rw [hvalues, KindFails, or_assoc]
  exact or_congr_right or_comm

theorem slotKindAt_of_fails (h : KindFails x) : slotKindAt x = none := by
  obtain hkind | ⟨hkind, hquote⟩ | ⟨hkind, hmessage⟩ := h
  · obtain ⟨k, hk⟩ : ∃ k, at8 x 0 = k + 5 := ⟨at8 x 0 - 5, by omega⟩
    simp only [slotKindAt, hk]
  · exact slotKindAt_of_quoteFails hkind hquote
  · simp only [slotKindAt, hkind]
    obtain hw | hw | hk := hmessage
    · split
      · exact if_neg (by omega)
      · rfl
    · split
      · exact if_neg (by omega)
      · rfl
    · exact dif_neg (by omega)

theorem slotKindAt_of_good (hkind : at8 x 0 ≠ 0) (hgood : ¬ KindFails x) :
    slotKindAt x = some (slotOf x).kind ∧ spanWidth (slotOf x).kind = slotSpan x := by
  simp only [KindFails, not_or, not_and] at hgood
  obtain ⟨hcode, hquote, hmessage⟩ := hgood
  obtain h | h | h | h : at8 x 0 = 1 ∨ at8 x 0 = 2 ∨ at8 x 0 = 3 ∨ at8 x 0 = 4 := by omega
  · exact ⟨slotKindAt_of_quote h (hquote h), spanWidth_of_quote h (hquote h)⟩
  · have hmessage := hmessage h
    simp only [MessageFails, not_or] at hmessage
    obtain ⟨hnone, hwide, hstack⟩ := hmessage
    have hmod : Fin.ofNat 8 (at8 x 5) = ⟨at8 x 5, by omega⟩ := Fin.ext (Nat.mod_eq_of_lt (by omega))
    have hk : (slotOf x).kind = .message (at8 x 4) ⟨at8 x 5, by omega⟩ := by
      simp [slotOf, h, ← hmod]
    refine ⟨?_, ?_⟩
    · simp only [slotKindAt, h, hk]
      rw [dif_pos (by omega)]
      exact if_pos (by omega)
    · rw [hk, slotSpan, h]
      rfl
  · simp [slotKindAt, slotOf, slotSpan, spanWidth, h]
  · simp [slotKindAt, slotOf, slotSpan, spanWidth, h]

theorem slotEntry_of_empty (h : at8 x 0 = 0) : slotEntry x = .empty := if_pos h

theorem not_slotValuesFail_of_empty (h : at8 x 0 = 0) : ¬ SlotValuesFail x := by
  rw [slotValuesFail_iff, KindFails]
  omega

theorem slotEntry_of_good (hkind : at8 x 0 ≠ 0) (hgood : ¬ SlotValuesFail x) : slotEntry x = .slot (slotOf x) := by
  rw [slotValuesFail_iff, not_or] at hgood
  obtain ⟨hkindGood, hplaceGood⟩ := hgood
  obtain ⟨hread, hspan⟩ := slotKindAt_of_good hkind hkindGood
  simp only [PlaceFails, not_and, not_or, not_lt] at hplaceGood
  obtain ⟨hchain, hstart, hend⟩ := hplaceGood hkind
  have hcode : chainOfCode (at8 x 1) = some (slotOf x).chain := by
    rw [chainOfCode, dif_pos (by omega)]
    exact congrArg some (Fin.ext (Nat.mod_eq_of_lt (by omega)).symm)
  simp only [slotEntry, if_neg hkind, hread, hcode]
  exact if_pos ⟨hstart, by rwa [hspan]⟩

theorem slotEntry_of_fails (h : SlotValuesFail x) : slotEntry x = .refused := by
  have hkind : at8 x 0 ≠ 0 := fun h0 => not_slotValuesFail_of_empty h0 h
  by_cases hbad : KindFails x
  · simp only [slotEntry, if_neg hkind, slotKindAt_of_fails hbad]
  · obtain ⟨-, hplace⟩ := (slotValuesFail_iff.mp h).resolve_left hbad
    obtain ⟨hread, hspan⟩ := slotKindAt_of_good hkind hbad
    simp only [slotEntry, if_neg hkind, hread]
    cases hcode : chainOfCode (at8 x 1) with
    | none => rfl
    | some c =>
      refine if_neg fun ⟨hstart, hend⟩ => ?_
      rw [hspan] at hend
      obtain hchain | hstart' | hend' := hplace
      · rw [chainOfCode_of_ge hchain] at hcode
        cases hcode
      · exact absurd hstart (Nat.not_le.mpr hstart')
      · exact absurd hend (Nat.not_le.mpr hend')

end

end Sys2Proof.Machine

namespace Sys2Proof.Machine

open Sys2Proof.Safety

/-! ## Some chains replaced, and their slots cleaned (R76) -/

section
variable (taken : ChainId → Bool) (chain : ChainId → Chain) (w : State)

/-- The chains that `taken` picks replaced, and the slots on them cleaned by their snapshots. -/
def boardsTaken : State :=
  { w with
    chains := Vector.ofFn (fun c => if taken c then chain c else w.chains[c]),
    slots := w.slots.map (fun e => (e.1, cleanedIf (taken e.2.chain = true) e.2)) }

theorem boardsTaken_chain (c : ChainId) :
    (boardsTaken taken chain w).chains[c] = if taken c then chain c else w.chains[c] := by
  simp [boardsTaken]

theorem boardsTaken_slot (m : Nat) : tableGet (boardsTaken taken chain w).slots m
    = (tableGet w.slots m).map (fun sl => cleanedIf (taken sl.chain = true) sl) :=
  tableGet_map (fun sl : Slot => cleanedIf (taken sl.chain = true) sl) w.slots m

/-- A snapshot reads nothing of what that changes. -/
theorem composeImage_boardsTaken (d : ChainId) (list : List ModuleKind) :
    composeImage (boardsTaken taken chain w) d list = composeImage w d list :=
  composeImage_map d w _ w.line (clean := fun sl => cleanedIf (taken sl.chain = true) sl) (fun sl => by simp) list

variable {taken chain}

/-- One more chain taken. -/
theorem boardsTaken_add {d : ChainId} (h : taken d = false) :
    { boardsTaken taken chain w with
      chains := (boardsTaken taken chain w).chains.set d (chain d),
      slots := clearDirty d (boardsTaken taken chain w).slots }
      = boardsTaken (fun c => c == d || taken c) chain w := by
  rw [clearDirty_eq_map]
  simp only [boardsTaken, List.map_map]
  congr 1
  · ext1 i hi
    by_cases hd : i = d.val
    · subst hd
      simp
    · have hne : ¬ (⟨i, hi⟩ : ChainId) = d := fun e => hd (congrArg Fin.val e)
      simp [Vector.getElem_set_ne _ _ (fun e => hd e.symm), hne]
  · refine List.map_congr_left fun e _ => ?_
    by_cases he : e.2.chain = d
    · simp [he, h, cleanedIf]
    · simp [he]

end

/-- A refresh that starts from states in which the chain and its image are the same. -/
theorem startedChain_congr {c : ChainId} {v w : State} (hchain : v.chains[c] = w.chains[c])
    (himage : ∀ list, composeImage v c list = composeImage w c list) : startedChain c v = startedChain c w := by
  have hcycle : cycleOf c v = cycleOf c w := by simp only [cycleOf, hchain, himage]
  simp only [startedChain, hcycle, hchain]

/-! ## The slot table replaced, and what follows at the boards (R75, R94, log entry 32) -/

/-- Whether slot n named chain c (R94 step 1). -/
def namedFormerly (n : Nat) (u : State) (c : ChainId) : Bool := (tableGet u.slots n).any (fun old => old.chain == c)

/-- Chain c with resync pending where slot n named it. -/
def askedChain (n : Nat) (u : State) (c : ChainId) : Chain :=
  { u.chains[c] with resync := (u.chains[c]).resync || namedFormerly n u c }

/-- The slot table replaced by a load of slot n, before any chain is told. -/
def slotPlaced (n : Nat) (slots : Table Slot) (u : State) : State :=
  { u with chains := Vector.ofFn (askedChain n u), slots := slots }

theorem slotPlaced_chain (n : Nat) (slots : Table Slot) (u : State) (c : ChainId) :
    (slotPlaced n slots u).chains[c] = askedChain n u c := by
  simp [slotPlaced]

theorem resyncFormer_chain (n : Nat) (u : State) (c : ChainId) : (resyncFormer n u).chains[c] = askedChain n u c := by
  cases hold : tableGet u.slots n with
  | none => simp only [resyncFormer, askedChain, namedFormerly, hold, Option.any_none, Bool.or_false]
  | some old =>
    simp only [resyncFormer, askedChain, namedFormerly, hold, Option.any_some]
    by_cases hc : c = old.chain
    · subst hc
      rw [setChain_same, beq_self_eq_true, Bool.or_true]
    · rw [setChain_other hc, beq_false_of_ne (Ne.symm hc), Bool.or_false]

theorem resyncFormer_eq (n : Nat) (slots : Table Slot) (u : State) :
    (resyncFormer n u).setSlots slots = slotPlaced n slots u := by
  have hchains : (resyncFormer n u).chains = Vector.ofFn (askedChain n u) := by
    ext1 i hi
    exact (resyncFormer_chain n u ⟨i, hi⟩).trans (by simp)
  have hframe : resyncFormer n u = { u with chains := (resyncFormer n u).chains } := by
    simp only [resyncFormer]
    split <;> rfl
  rw [hframe, hchains]
  rfl

/-- Chain c with the image of its cycle as a snapshot taken in the state w composes it. -/
def resnapped (c : ChainId) (w : State) : Chain :=
  { w.chains[c] with cycle := (w.chains[c]).cycle.map (fun cy => { cy with image := composeImage w c cy.list }) }

section
variable (s u w : State)

/-- Whether chain c takes a snapshot after the load: of a refresh that the gap-before marking began, or of one that
the load starts. -/
def snapsAfter (c : ChainId) : Bool := begunBetween s u c || wantsRefresh w c

/-- The chain as that snapshot leaves it. -/
def snappedChain (c : ChainId) : Chain := if begunBetween s u c then resnapped c w else startedChain c w

variable {s u w}

theorem chainsTold_eq_boardsTaken (h : ∀ c, begunBetween s u c = true → wantsRefresh w c = false) :
    chainsTold w = boardsTaken (wantsRefresh w) (snappedChain s u w) w := by
  simp only [chainsTold, boardsTaken, ← wantsRefresh_eq]
  congr 1
  ext1 i hi
  simp only [Vector.getElem_ofFn]
  split
  · next hwants =>
    have hbegun : ¬ begunBetween s u ⟨i, hi⟩ = true := fun hb => by rw [h _ hb] at hwants; cases hwants
    exact (if_neg hbegun).symm
  · rfl

/-- The snapshots of the chains of `done` taken. -/
theorem snapshotAfterLoad_boardsTaken {taken : ChainId → Bool} {d : ChainId} (h : begunBetween s u d = true → taken d = false) :
    snapshotAfterLoad s u d (boardsTaken taken (snappedChain s u w) w)
      = boardsTaken (fun c => (c == d && begunBetween s u d) || taken c) (snappedChain s u w) w := by
  by_cases hb : begunBetween s u d = true
  · have hchain : (boardsTaken taken (snappedChain s u w) w).chains[d] = w.chains[d] := by
      rw [boardsTaken_chain, h hb, if_neg Bool.false_ne_true]
    have hsnapped : snappedChain s u w d = resnapped d w := if_pos hb
    rw [snapshotAfterLoad, if_pos hb, snapshotNow_frame, hchain]
    simp only [composeImage_boardsTaken]
    simp only [hb, Bool.and_true]
    rw [← boardsTaken_add w (h hb), hsnapped]
    rfl
  · rw [snapshotAfterLoad, if_neg hb]
    simp only [hb, Bool.and_false, Bool.false_or]

/-- The snapshots that come together with a slot load, told whole. -/
theorem snapshotsAfterLoad_eq (h : ∀ c, begunBetween s u c = true → wantsRefresh w c = false) :
    snapshotAfterLoad s u 3 (snapshotAfterLoad s u 2 (snapshotAfterLoad s u 1 (snapshotAfterLoad s u 0 (wakeChains w))))
      = boardsTaken (snapsAfter s u w) (snappedChain s u w) w := by
  rw [wakeChains_eq, chainsTold_eq_boardsTaken h]
  rw [snapshotAfterLoad_boardsTaken (h 0), snapshotAfterLoad_boardsTaken (by simpa using h 1),
    snapshotAfterLoad_boardsTaken (by simpa using h 2), snapshotAfterLoad_boardsTaken (by simpa using h 3)]
  congr 1
  funext c
  match c with
  | 0 | 1 | 2 | 3 => simp [snapsAfter]

end

end Sys2Proof.Machine

namespace Sys2Proof.Machine

open Sys2Proof.Safety

/-! ## A SLOT entry applied (R93, R94) -/

theorem mem_tableSet {α : Type} {t : Table α} {n : Nat} {a : α} {e : Nat × α} (h : e ∈ tableSet t n a) :
    e = (n, a) ∨ e ∈ t := by
  induction t with
  | nil => exact .inl (List.mem_singleton.mp h)
  | cons first rest ih =>
    simp only [tableSet] at h
    split at h
    · exact List.mem_cons.mp h
    · split at h
      · exact (List.mem_cons.mp h).imp_right (List.mem_cons_of_mem first)
      · obtain rfl | hrest := List.mem_cons.mp h
        · exact .inr List.mem_cons_self
        · exact (ih hrest).imp_right (List.mem_cons_of_mem first)

theorem begunBetween_iff (s u : State) (c : ChainId) :
    begunBetween s u c = true ↔ (s.chains[c]).state = .idle ∧ (u.chains[c]).state ≠ .idle := by
  simp [begunBetween]

section
variable {s u : State} {n : Nat} {slots : Table Slot}

/-- The state after the slot table is replaced, the chains told, and the snapshots taken that come together with the
load. -/
def slotLoaded (s u : State) (n : Nat) (slots : Table Slot) : State :=
  boardsTaken (snapsAfter s u (slotPlaced n slots u)) (snappedChain s u (slotPlaced n slots u)) (slotPlaced n slots u)

theorem wantsRefresh_slotPlaced (c : ChainId) : wantsRefresh (slotPlaced n slots u) c = true
    ↔ (u.chains[c]).state = .idle ∧ (((u.chains[c]).resync = true ∨ namedFormerly n u c = true)
      ∨ ∃ e ∈ slots, e.2.chain = c ∧ e.2.dirty = true) := by
  rw [wantsRefresh_iff, slotPlaced_chain, ← Bool.or_eq_true]
  rfl

/-- A chain that has begun a refresh is not IDLE. -/
theorem wantsRefresh_of_begun {c : ChainId} (h : begunBetween s u c = true) : wantsRefresh (slotPlaced n slots u) c = false := by
  obtain ⟨-, hbusy⟩ := (begunBetween_iff s u c).mp h
  exact Bool.eq_false_iff.mpr fun hwants => hbusy ((wantsRefresh_slotPlaced c).mp hwants).1

theorem applySlotTable_of_placed {x : List Byte} (h : applySlotEntry n x u = some (wakeChains (slotPlaced n slots u))) :
    applySlotTable s n x u = some (slotLoaded s u n slots) := by
  rw [applySlotTable, h, Option.map_some, snapshotsAfterLoad_eq fun c => wantsRefresh_of_begun]
  rfl

theorem applySlotEntry_of_empty {x : List Byte} (h : at8 x 0 = 0) :
    applySlotEntry n x u = some (wakeChains (slotPlaced n (tableErase u.slots n) u)) := by
  simp only [applySlotEntry, slotEntry_of_empty h, resyncFormer_eq]

theorem applySlotEntry_of_good {x : List Byte} (hkind : at8 x 0 ≠ 0) (hgood : ¬ SlotValuesFail x)
    (hfree : ¬ CellTaken u.slots n (slotOf x)) :
    applySlotEntry n x u = some (wakeChains (slotPlaced n (tableSet u.slots n (slotOf x)) u)) := by
  simp only [applySlotEntry, slotEntry_of_good hkind hgood, resyncFormer_eq, claimTaken_iff, hfree, if_false]

theorem applySlotEntry_of_refused {x : List Byte}
    (h : SlotValuesFail x ∨ (at8 x 0 ≠ 0 ∧ CellTaken u.slots n (slotOf x))) : applySlotEntry n x u = none := by
  by_cases hfails : SlotValuesFail x
  · simp only [applySlotEntry, slotEntry_of_fails hfails]
  · obtain ⟨hkind, htaken⟩ := h.resolve_left hfails
    simp only [applySlotEntry, slotEntry_of_good hkind hfails, claimTaken_iff, htaken, if_true]

/-! ### The boards after it -/

theorem begunBetween_of_idle {c : ChainId} (h : (u.chains[c]).state = .idle) : begunBetween s u c = false :=
  Bool.eq_false_iff.mpr fun hbegun => ((begunBetween_iff s u c).mp hbegun).2 h

theorem snapsAfter_of_idle {c : ChainId} (h : (u.chains[c]).state = .idle) :
    snapsAfter s u (slotPlaced n slots u) c = wantsRefresh (slotPlaced n slots u) c := by
  rw [snapsAfter, begunBetween_of_idle h, Bool.false_or]

theorem snapsAfter_of_begun {c : ChainId} (h : begunBetween s u c = true) :
    snapsAfter s u (slotPlaced n slots u) c = true := by
  rw [snapsAfter, h, Bool.true_or]

theorem snapsAfter_of_busy {c : ChainId} (hu : (u.chains[c]).state ≠ .idle) (hs : (s.chains[c]).state ≠ .idle) :
    snapsAfter s u (slotPlaced n slots u) c = false := by
  have hbegun : begunBetween s u c = false := Bool.eq_false_iff.mpr fun hbegun => hs ((begunBetween_iff s u c).mp hbegun).1
  have hwants : wantsRefresh (slotPlaced n slots u) c = false :=
    Bool.eq_false_iff.mpr fun hwants => hu ((wantsRefresh_slotPlaced c).mp hwants).1
  rw [snapsAfter, hbegun, hwants, Bool.false_or]

/-- A chain that takes no snapshot is asked for a resync where slot n named it, and no more. -/
theorem slotLoaded_chain_rests {c : ChainId} (h : snapsAfter s u (slotPlaced n slots u) c = false) :
    (slotLoaded s u n slots).chains[c] = askedChain n u c := by
  rw [slotLoaded, boardsTaken_chain, h, if_neg Bool.false_ne_true, slotPlaced_chain]

/-- R94: a chain whose refresh the gap-before marking began takes its snapshot after the load. -/
theorem slotLoaded_chain_begun {c : ChainId} (h : begunBetween s u c = true) : (slotLoaded s u n slots).chains[c]
    = { askedChain n u c with cycle := (u.chains[c]).cycle.map (fun cy =>
        { cy with image := composeImage (slotPlaced n slots u) c cy.list }) } := by
  rw [slotLoaded, boardsTaken_chain, if_pos (snapsAfter_of_begun h), snappedChain, if_pos h, resnapped, slotPlaced_chain]
  rfl

/-- R75: an IDLE chain that the load tells of a resync or of a dirty slot starts a refresh. -/
theorem slotLoaded_chain_starts {c : ChainId} (hidle : (u.chains[c]).state = .idle)
    (hwants : wantsRefresh (slotPlaced n slots u) c = true) :
    (slotLoaded s u n slots).chains[c] = startedChain c (slotPlaced n slots u) := by
  rw [slotLoaded, boardsTaken_chain, if_pos ((snapsAfter_of_idle hidle).trans hwants), snappedChain,
    begunBetween_of_idle hidle, if_neg Bool.false_ne_true]

theorem slotLoaded_slot (m : Nat) : tableGet (slotLoaded s u n slots).slots m
    = (tableGet slots m).map (fun sl => cleanedIf (snapsAfter s u (slotPlaced n slots u) sl.chain = true) sl) :=
  boardsTaken_slot _ _ _ m

/-- R76: the slots of a chain that takes a snapshot are clean after it. -/
theorem slotLoaded_slot_clean {c : ChainId} (h : snapsAfter s u (slotPlaced n slots u) c = true) {m : Nat} {sl : Slot}
    (hsl : tableGet (slotLoaded s u n slots).slots m = some sl) (hc : sl.chain = c) : sl.dirty = false := by
  rw [slotLoaded_slot, Option.map_eq_some_iff] at hsl
  obtain ⟨before, -, rfl⟩ := hsl
  rw [cleanedIf_chain] at hc
  rw [hc, cleanedIf, if_pos h]

theorem slotLoaded_description (m : Nat) :
    (tableGet (slotLoaded s u n slots).slots m).map description = (tableGet slots m).map description := by
  rw [slotLoaded_slot, Option.map_map]
  congr 1
  funext sl
  simp [description]

/-- A snapshot of the state after the load, whatever its chains, its intake queue and its responder hold. -/
theorem composeImage_slotLoaded (chains : Vector Chain 4) (intake : List IntakeEntry) (mgmt : Management) (c : ChainId)
    (list : List ModuleKind) :
    composeImage { slotLoaded s u n slots with chains := chains, intake := intake, mgmt := mgmt } c list
      = composeImage (slotPlaced n slots u) c list := by
  have hshown : SameShown { slotLoaded s u n slots with chains := chains }
      { slotLoaded s u n slots with chains := chains, intake := intake, mgmt := mgmt } :=
    ⟨rfl, rfl, rfl, rfl, rfl, rfl, rfl, rfl⟩
  exact (hshown.composeImage_eq c list).trans (composeImage_map c (slotPlaced n slots u) chains u.line
    (clean := fun sl => cleanedIf (snapsAfter s u (slotPlaced n slots u) sl.chain = true) sl) (fun sl => by simp) list)

end

/-! ## A LOAD of one SLOT entry (R93, R94, R167) -/

/-- The slot table as a load of slot n leaves it: the other slots as they were, a dirty slot on each chain that is
`marked`, and on no other chain a slot that was not there. -/
structure SlotReplaced (n : Nat) (marked : ChainId → Bool) (u : State) (slots : Table Slot) : Prop where
  others : ∀ m, m ≠ n → tableGet slots m = tableGet u.slots m
  dirty : ∀ c, marked c = true → ∃ e ∈ slots, e.2.chain = c ∧ e.2.dirty = true
  former : ∀ c, marked c = false → ∀ e ∈ slots, e.2.chain = c → e ∈ u.slots

theorem slotReplaced_tableSet (n : Nat) {sl : Slot} (u : State) (hdirty : sl.dirty = true) :
    SlotReplaced n (fun c => sl.chain == c) u (tableSet u.slots n sl) where
  others m hm := tableGet_tableSet_of_ne u.slots sl hm
  dirty c hc := ⟨(n, sl), mem_of_tableGet (tableGet_tableSet_self u.slots n sl), by simpa using hc, hdirty⟩
  former c hc e he hchain := (mem_tableSet he).resolve_left fun h => by
    rw [← hchain, h] at hc
    simp at hc

theorem slotReplaced_tableErase (n : Nat) (u : State) :
    SlotReplaced n (fun _ => false) u (tableErase u.slots n) where
  others m hm := by rw [tableGet_tableErase, if_neg hm]
  dirty _ h := by cases h
  former _ _ _ he _ := List.mem_of_mem_filter he

/-- The state that a LOAD of one SLOT entry answers, where it is accepted. -/
def slotAnswered (s u : State) (n : Nat) (slots : Table Slot) (rest : List IntakeEntry) (body : List Byte) : State :=
  { slotLoaded s u n slots with intake := rest, mgmt := replied (seqTag body) [0] u.mgmt }

section
variable {s u : State} {n : Nat} {slots : Table Slot} {rest : List IntakeEntry} {body : List Byte}

theorem slotAnswered_chain (c : ChainId) :
    (slotAnswered s u n slots rest body).chains[c] = (slotLoaded s u n slots).chains[c] := by
  simp only [slotAnswered]

theorem slotAnswered_slots : (slotAnswered s u n slots rest body).slots = (slotLoaded s u n slots).slots := by
  simp only [slotAnswered]

theorem composeImage_slotAnswered (c : ChainId) (list : List ModuleKind) :
    composeImage (slotAnswered s u n slots rest body) c list = composeImage (slotPlaced n slots u) c list :=
  composeImage_slotLoaded (slotLoaded s u n slots).chains rest _ c list

end

theorem exec_loadSlot_accepted {s : State} {e : IntakeEntry} {rest : List IntakeEntry} {n : Nat} {slots : Table Slot}
    (h : HeadIs s e rest .loadSlot) (hload : s.load = none) (hone : OneEntry e.body 15 n) (hn : n ≤ 255)
    (happly : applySlotEntry n (entryOf e.body) (afterGap e s) = some (wakeChains (slotPlaced n slots (afterGap e s)))) :
    exec .loadSlot s = .next (slotAnswered s (afterGap e s) n slots rest e.body) :=
  whenRunning_takeLoad_accepted h hload hone (Nat.lt_succ_of_le hn) (applySlotTable_of_placed happly) rfl rfl rfl

theorem exec_loadSlot_refused {s : State} {e : IntakeEntry} {rest : List IntakeEntry} {n : Nat}
    (h : HeadIs s e rest .loadSlot) (hload : s.load = none) (hone : OneEntry e.body 15 n) (hn : n ≤ 255)
    (happly : applySlotEntry n (entryOf e.body) (afterGap e s) = none) :
    exec .loadSlot s = .next { afterGap e s with
      intake := rest, mgmt := replied (seqTag e.body) [4, 0, 0] (afterGap e s).mgmt } :=
  whenRunning_takeLoad_refused h hload hone (Nat.lt_succ_of_le hn) (by rw [applySlotTable, happly, Option.map_none])

/-- R75: a chain of which the load has nothing to tell, and that had nothing to refresh for, starts none. -/
theorem SlotReplaced.not_wantsRefresh {n : Nat} {marked : ChainId → Bool} {u : State} {slots : Table Slot} {c : ChainId}
    (h : SlotReplaced n marked u slots) (hformer : namedFormerly n u c = false) (hmarked : marked c = false)
    (hresync : (u.chains[c]).resync = false) (hclean : ∀ e ∈ u.slots, e.2.chain = c → e.2.dirty = false) :
    wantsRefresh (slotPlaced n slots u) c = false := by
  refine Bool.eq_false_iff.mpr fun hwants => ?_
  obtain ⟨-, (hsync | hnamed) | ⟨e, he, hc, hdirty⟩⟩ := (wantsRefresh_slotPlaced c).mp hwants
  · rw [hresync] at hsync
    cases hsync
  · rw [hformer] at hnamed
    cases hnamed
  · rw [hclean e (h.former c hmarked e he hc) hc] at hdirty
    cases hdirty

/-- R94: the slot as a load has placed it; clean where its chain takes a snapshot after the load, and else dirty. -/
theorem slotLoaded_placed {s u : State} {n : Nat} {sl : Slot} (hdirty : sl.dirty = true) :
    ∃ sl', tableGet (slotLoaded s u n (tableSet u.slots n sl)).slots n = some sl' ∧ description sl' = description sl
      ∧ sl'.flash = sl.flash
      ∧ ((s.chains[sl.chain]).state ≠ .idle → (u.chains[sl.chain]).state ≠ .idle → sl'.dirty = true)
      ∧ ((u.chains[sl.chain]).state = .idle ∨ begunBetween s u sl.chain = true → sl'.dirty = false) := by
  have hget := slotLoaded_slot (s := s) (u := u) (n := n) (slots := tableSet u.slots n sl) n
  rw [tableGet_tableSet_self, Option.map_some] at hget
  refine ⟨_, hget, by simp [description], cleanedIf_flash _ sl, fun hs hu => ?_, fun hsnap => ?_⟩
  · rw [snapsAfter_of_busy hu hs, cleanedIf, if_neg Bool.false_ne_true]
    exact hdirty
  · refine slotLoaded_slot_clean (c := sl.chain) ?_ hget (cleanedIf_chain _ sl)
    obtain hidle | hbegun := hsnap
    · rw [snapsAfter_of_idle hidle, wantsRefresh_slotPlaced]
      exact ⟨hidle, .inr ((slotReplaced_tableSet n u hdirty).dirty sl.chain (beq_self_eq_true _))⟩
    · exact snapsAfter_of_begun hbegun

/-- Settles O21: the slot table replaced or the entry refused; and each chain by its state before the command and
before the load. -/
theorem loadSlotReplaces : Obligations.LoadSlotReplaces := by
  unfold Obligations.LoadSlotReplaces
  intro s e rest n u x sl former asked begun frame
  have hframe {slots : Table Slot} {marked : ChainId → Bool} (hslots : SlotReplaced n marked u slots) :
      frame marked (slotAnswered s u n slots rest e.body) := by
    clear_value u
    refine ⟨fun c => ⟨fun hu hs => ?_, fun hbegun => ?_, fun hidle hasked => ?_, fun hidle hformer hmarked hresync hclean => ?_⟩,
      fun m hm => ?_, ⟨rfl, rfl, rfl, rfl, rfl, rfl⟩, rfl, rfl, rfl, rfl, rfl, rfl, rfl⟩
    · exact (slotAnswered_chain c).trans (slotLoaded_chain_rests (snapsAfter_of_busy hu hs))
    · have hbetween := (begunBetween_iff s u c).mpr hbegun
      refine ⟨((slotAnswered_chain c).trans (slotLoaded_chain_begun hbetween)).trans ?_, fun m sl' hsl' hc => ?_⟩
      · simp only [composeImage_slotAnswered]
        rfl
      · rw [slotAnswered_slots] at hsl'
        exact slotLoaded_slot_clean (snapsAfter_of_begun hbetween) hsl' hc
    · have hwants : wantsRefresh (slotPlaced n slots u) c = true :=
        (wantsRefresh_slotPlaced c).mpr ⟨hidle, hasked.imp .inr (hslots.dirty c)⟩
      refine ((slotAnswered_chain c).trans (slotLoaded_chain_starts hidle hwants)).trans (startedChain_congr ?_ fun list => ?_)
      · rw [slotPlaced_chain]
        exact (setChain_same c (asked c) u).symm
      · exact (composeImage_slotLoaded _ _ _ c list).symm
    · have hrests := hslots.not_wantsRefresh hformer hmarked hresync hclean
      refine ((slotAnswered_chain c).trans (slotLoaded_chain_rests ((snapsAfter_of_idle hidle).trans hrests))).trans ?_
      rw [askedChain, show namedFormerly n u c = false from hformer, Bool.or_false]
    · rw [slotAnswered_slots]
      exact (slotLoaded_description m).trans (congrArg _ (hslots.others m hm))
  intro h hload hone hn
  refine ⟨fun hkind hgood hfree => ?_, fun hkind => ?_, fun hrefused => ?_⟩
  · obtain ⟨sl', hsl', hdescription, hflash, hdirty, hclean⟩ := slotLoaded_placed (s := s) (u := u) (n := n) (sl := sl) rfl
    refine ⟨_, exec_loadSlot_accepted h hload hone hn (applySlotEntry_of_good hkind hgood hfree),
      hframe (slotReplaced_tableSet n u rfl), sl', ?_, hdescription, hflash, hdirty, fun hsnap => hclean ?_⟩
    · rw [slotAnswered_slots, hsl']
    · exact hsnap.imp_right (begunBetween_iff s u sl.chain).mpr
  · refine ⟨_, exec_loadSlot_accepted h hload hone hn (applySlotEntry_of_empty hkind),
      hframe (slotReplaced_tableErase n u), ?_⟩
    rw [slotAnswered_slots, slotLoaded_slot, tableGet_tableErase, if_pos rfl, Option.map_none]
  · exact exec_loadSlot_refused h hload hone hn (applySlotEntry_of_refused hrefused)

end Sys2Proof.Machine

namespace Sys2Proof.Machine

open Sys2Proof.Safety

/-! ## The queue at a merge and at a displacement (R117, R118) -/

theorem changeFirst_of_split {pick : TickerEntry → Bool} (f : TickerEntry → TickerEntry) {before : List TickerEntry}
    {x : TickerEntry} (after : List TickerEntry) (hbefore : ∀ e ∈ before, pick e = false) (hx : pick x = true) :
    changeFirst pick f (before ++ x :: after) = before ++ f x :: after := by
  induction before with
  | nil => exact if_pos hx
  | cons e rest ih =>
    obtain ⟨he, hrest⟩ := List.forall_mem_cons.mp hbefore
    rw [List.cons_append, changeFirst, if_neg (by simp [he]), ih hrest, List.cons_append]

/-- R117: the youngest of a print's like is the one that has none after it. -/
theorem mergeYoungest_of_split {p y : Print} {before after : List TickerEntry} (hy : takesUp p (.print y) = true)
    (hafter : ∀ x ∈ after, takesUp p x = false) : mergeYoungest p (before ++ .print y :: after)
      = before ++ .print { y with volume := min 99999999 (y.volume + p.volume) } :: after := by
  have hreversed : (before ++ .print y :: after).reverse = after.reverse ++ .print y :: before.reverse := by simp
  have hnone (e : TickerEntry) (he : e ∈ after.reverse) : mergesWith p e = false :=
    (mergesWith_eq_takesUp p e).trans (hafter e (List.mem_reverse.mp he))
  rw [mergeYoungest, hreversed, changeFirst_of_split _ _ hnone ((mergesWith_eq_takesUp p _).trans hy)]
  simp [absorbInto, absorb, mergedVolumeCap]

/-- R117: the oldest class B print is the one that has none before it. -/
theorem dropOldestB_of_split {y : Print} {before : List TickerEntry} (after : List TickerEntry)
    (hy : y.tapeClass = .b) (hbefore : ∀ x ∈ before, inClassB x = false) :
    dropOldestB (before ++ .print y :: after) = before ++ after := by
  have hnone (e : TickerEntry) (he : e ∈ before) : ¬ isClassB e = true := by
    rw [isClassB_eq_inClassB, hbefore e he]
    exact Bool.false_ne_true
  rw [dropOldestB, List.eraseP_append_right _ hnone, List.eraseP_cons_of_pos (by simp [isClassB, hy])]

theorem any_isClassB_eq_false_iff {queue : List TickerEntry} :
    queue.any isClassB = false ↔ ∀ x ∈ queue, inClassB x = false := by
  simp [List.any_eq_false, isClassB_eq_inClassB]

theorem any_isClassB_of_split {y : Print} (before after : List TickerEntry) (hy : y.tapeClass = .b) :
    (before ++ .print y :: after).any isClassB = true :=
  List.any_eq_true.mpr ⟨.print y, by simp, by simp [isClassB, hy]⟩

/-! ## A print offered, case by case (R116, R117) -/

/-- The state after a print is admitted, by what its queue, its counters and the responder come to. -/
def printAdmitted (queue : List TickerEntry) (merged omitted : BitVec 24) (mgmt : Management) (s : State) : State :=
  { s with
    ticker := { s.ticker with
      queue := queue, admitted := s.ticker.admitted + 1, merged := merged, omitted := omitted },
    mgmt := mgmt }

/-- A full queue takes up a print as the volume of another. -/
abbrev TakenUp (p : Print) (queue : List TickerEntry) : Prop :=
  p.condition = .regular ∧ queue.any (mergesWith p) = true

section
variable {p : Print} {s : State}

theorem offerPrint_refused (h : s.ticker.state = .stopped ∨ p.tapeClass = .none) : offerPrint p s = s := if_pos h

theorem offerPrint_queued (hstate : s.ticker.state ≠ .stopped) (hclass : p.tapeClass ≠ .none)
    (hroom : s.ticker.queue.length < 256) :
    offerPrint p s = printAdmitted (s.ticker.queue ++ [.print p]) s.ticker.merged s.ticker.omitted s.mgmt s := by
  rw [offerPrint, if_neg (not_or.mpr ⟨hstate, hclass⟩)]
  exact if_pos hroom

theorem offerPrint_full (hstate : s.ticker.state ≠ .stopped) (hclass : p.tapeClass ≠ .none)
    (hfull : 256 ≤ s.ticker.queue.length) :
    offerPrint p s = admitToFull p (onTicker (fun t => { t with admitted := t.admitted + 1 }) s) := by
  rw [offerPrint, if_neg (not_or.mpr ⟨hstate, hclass⟩)]
  exact if_neg (Nat.not_lt.mpr hfull)

theorem offerPrint_merged (hstate : s.ticker.state ≠ .stopped) (hclass : p.tapeClass ≠ .none)
    (hfull : 256 ≤ s.ticker.queue.length) (htaken : TakenUp p s.ticker.queue) :
    offerPrint p s = printAdmitted (mergeYoungest p s.ticker.queue) (s.ticker.merged + 1) s.ticker.omitted s.mgmt s := by
  rw [offerPrint_full hstate hclass hfull, admitToFull]
  exact if_pos htaken

theorem offerPrint_omitted (hstate : s.ticker.state ≠ .stopped) (hclass : p.tapeClass ≠ .none)
    (hfull : 256 ≤ s.ticker.queue.length) (hkept : ¬ TakenUp p s.ticker.queue)
    (hnone : p.tapeClass = .b ∨ s.ticker.queue.any isClassB = false) :
    offerPrint p s = printAdmitted s.ticker.queue s.ticker.merged (s.ticker.omitted + 1)
        (alertSet .tapeOmit s.mgmt) s := by
  rw [offerPrint_full hstate hclass hfull, admitToFull]
  refine (if_neg hkept).trans ?_
  by_cases hb : p.tapeClass = .b
  · exact if_pos hb
  · have hqueue : ¬ s.ticker.queue.any isClassB = true := by simp [hnone.resolve_left hb]
    exact (if_neg hb).trans (if_neg hqueue)

theorem offerPrint_displaces (hstate : s.ticker.state ≠ .stopped) (hclass : p.tapeClass = .a)
    (hfull : 256 ≤ s.ticker.queue.length) (hkept : ¬ TakenUp p s.ticker.queue)
    (hsome : s.ticker.queue.any isClassB = true) :
    offerPrint p s
      = printAdmitted (dropOldestB s.ticker.queue ++ [.print p]) s.ticker.merged (s.ticker.omitted + 1)
        (alertSet .tapeOmit s.mgmt) s := by
  rw [offerPrint_full hstate (by simp [hclass]) hfull, admitToFull]
  refine (if_neg hkept).trans ?_
  have hb : ¬ p.tapeClass = .b := by simp [hclass]
  exact (if_neg hb).trans (if_pos hsome)

theorem tapeClass_of_taken (hclass : p.tapeClass ≠ .none) (hb : p.tapeClass ≠ .b) : p.tapeClass = .a := by
  cases h : p.tapeClass with
  | a => rfl
  | b => exact absurd h hb
  | none => exact absurd h hclass

/-- What the offer of a print to a ticker that takes it can come to. -/
inductive PrintOffered (p : Print) (s : State) : State → Prop
  | queued (hroom : s.ticker.queue.length < 256) :
    PrintOffered p s (printAdmitted (s.ticker.queue ++ [.print p]) s.ticker.merged s.ticker.omitted s.mgmt s)
  | merged (hfull : 256 ≤ s.ticker.queue.length) (htaken : TakenUp p s.ticker.queue) :
    PrintOffered p s (printAdmitted (mergeYoungest p s.ticker.queue) (s.ticker.merged + 1) s.ticker.omitted s.mgmt s)
  | omitted (hfull : 256 ≤ s.ticker.queue.length) :
    PrintOffered p s (printAdmitted s.ticker.queue s.ticker.merged (s.ticker.omitted + 1)
        (alertSet .tapeOmit s.mgmt) s)
  | displaces (hfull : 256 ≤ s.ticker.queue.length) (hsome : s.ticker.queue.any isClassB = true) :
    PrintOffered p s
      (printAdmitted (dropOldestB s.ticker.queue ++ [.print p]) s.ticker.merged (s.ticker.omitted + 1)
        (alertSet .tapeOmit s.mgmt) s)

theorem printOffered_offerPrint (hstate : s.ticker.state ≠ .stopped) (hclass : p.tapeClass ≠ .none) :
    PrintOffered p s (offerPrint p s) := by
  by_cases hroom : s.ticker.queue.length < 256
  · rw [offerPrint_queued hstate hclass hroom]
    exact .queued hroom
  have hfull : 256 ≤ s.ticker.queue.length := Nat.not_lt.mp hroom
  by_cases htaken : TakenUp p s.ticker.queue
  · rw [offerPrint_merged hstate hclass hfull htaken]
    exact .merged hfull htaken
  by_cases hnone : p.tapeClass = .b ∨ s.ticker.queue.any isClassB = false
  · rw [offerPrint_omitted hstate hclass hfull htaken hnone]
    exact .omitted hfull
  · obtain ⟨hb, hsome⟩ := not_or.mp hnone
    have ha : p.tapeClass = .a := tapeClass_of_taken hclass hb
    have hsome := Bool.eq_true_of_not_eq_false hsome
    rw [offerPrint_displaces hstate ha hfull htaken hsome]
    exact .displaces hfull hsome

end

/-! ## An announcement offered, case by case (R119) -/

section
variable {atHead : Bool} {text : List Byte} {s : State}

theorem offerText_refused (h : s.ticker.state = .stopped ∨ text = []) : offerText atHead text s = s := if_pos h

theorem offerText_queued (hstate : s.ticker.state ≠ .stopped) (htext : text ≠ [])
    (hroom : s.ticker.queue.length < 256) : offerText atHead text s
      = { s with ticker := { s.ticker with queue := placeText atHead text s.ticker.queue } } := by
  rw [offerText, if_neg (not_or.mpr ⟨hstate, htext⟩)]
  exact if_pos hroom

theorem offerText_discarded (hfull : 256 ≤ s.ticker.queue.length) (hnone : s.ticker.queue.any isClassB = false) :
    offerText atHead text s = s := by
  simp only [offerText]
  split
  · rfl
  · exact (if_neg (Nat.not_lt.mpr hfull)).trans (if_neg (by simp [hnone]))

theorem offerText_displaces (hstate : s.ticker.state ≠ .stopped) (htext : text ≠ [])
    (hfull : 256 ≤ s.ticker.queue.length) (hsome : s.ticker.queue.any isClassB = true) : offerText atHead text s
      = { s with
          ticker := { s.ticker with
            queue := placeText atHead text (dropOldestB s.ticker.queue), omitted := s.ticker.omitted + 1 },
          mgmt := alertSet .tapeOmit s.mgmt } := by
  rw [offerText, if_neg (not_or.mpr ⟨hstate, htext⟩)]
  exact (if_neg (Nat.not_lt.mpr hfull)).trans (if_pos hsome)

end

/-- Settles O11: each case of R117 and R119 by its equation, with the queue split at the entry that it turns on. -/
theorem tickerAdmitsOffers : Obligations.TickerAdmitsOffers := by
  unfold Obligations.TickerAdmitsOffers
  refine ⟨fun s p => ⟨offerPrint_refused, fun hstate hclass => ⟨?_, fun hroom => ?_, ?_, ?_⟩⟩,
    fun s atHead text => ⟨offerText_refused, fun hstate htext =>
      ⟨offerText_queued hstate htext, fun hfull hnone => ?_, ?_⟩⟩⟩
  · generalize offerPrint p s = t, printOffered_offerPrint hstate hclass = h
    cases h <;> rfl
  · rw [offerPrint_queued hstate hclass hroom]
    exact ⟨rfl, rfl, rfl, rfl⟩
  · intro hfull hregular before after y hq hy hsame hafter
    have htakes : takesUp p (.print y) = true := decide_eq_true ⟨hy, hsame⟩
    have htaken : TakenUp p s.ticker.queue :=
      ⟨hregular, List.any_eq_true.mpr ⟨.print y, by simp [hq], (mergesWith_eq_takesUp p _).trans htakes⟩⟩
    rw [offerPrint_merged hstate hclass hfull htaken, hq, mergeYoungest_of_split htakes hafter]
    exact ⟨rfl, rfl, rfl, rfl⟩
  · intro hfull hkept
    have hkept : ¬ TakenUp p s.ticker.queue := by
      rintro ⟨hregular, hany⟩
      obtain ⟨x, hx, htakes⟩ := List.any_eq_true.mp hany
      have hnone := hkept.resolve_left (not_not.mpr hregular) x hx
      exact Bool.false_ne_true (hnone.symm.trans ((mergesWith_eq_takesUp p x).symm.trans htakes))
    by_cases hnone : p.tapeClass = .b ∨ s.ticker.queue.any isClassB = false
    · rw [offerPrint_omitted hstate hclass hfull hkept hnone]
      refine ⟨rfl, rfl, rfl, fun _ => rfl, fun before after y ha hq hy _ => ?_⟩
      have hsome : s.ticker.queue.any isClassB = true := hq ▸ any_isClassB_of_split before after hy
      exact absurd hnone (by simp [ha, hsome])
    · obtain ⟨hb, hsome⟩ := not_or.mp hnone
      have ha : p.tapeClass = .a := tapeClass_of_taken hclass hb
      rw [offerPrint_displaces hstate ha hfull hkept (Bool.eq_true_of_not_eq_false hsome)]
      refine ⟨rfl, rfl, rfl, fun hnone' => ?_, fun before after y _ hq hy hbefore => ?_⟩
      · exact absurd (hnone'.imp_right any_isClassB_eq_false_iff.mpr) hnone
      · show dropOldestB s.ticker.queue ++ [.print p] = _
        rw [hq, dropOldestB_of_split after hy hbefore]
  · exact offerText_discarded hfull (any_isClassB_eq_false_iff.mpr hnone)
  · intro hfull before after y hq hy hbefore
    have hsome : s.ticker.queue.any isClassB = true := hq ▸ any_isClassB_of_split before after hy
    rw [offerText_displaces hstate htext hfull hsome, hq, dropOldestB_of_split after hy hbefore]
    rfl

end Sys2Proof.Machine

namespace Sys2Proof.Machine

open Sys2Proof.Safety

/-! ## The flush of the queue (R130) -/

theorem countOmitted_eq (n : Nat) (s : State) : countOmitted n s = { s with
    ticker := { s.ticker with omitted := s.ticker.omitted + BitVec.ofNat 24 n },
    mgmt := if n = 0 then s.mgmt else alertSet .tapeOmit s.mgmt } := by
  by_cases h : n = 0
  · simp only [countOmitted, if_pos h]
    rfl
  · simp only [countOmitted, if_neg h]
    rfl

/-- Settles O29: the flush carried out after the gap-before marking, and answered DONE. -/
theorem tickerIsFlushed : Obligations.TickerIsFlushed := by
  unfold Obligations.TickerIsFlushed
  intro s e rest u prints h hlength
  have hflushed := congrArg some (countOmitted_eq prints (setQueue [] u))
  exact whenRunning_control_done (act := fun _ v => some (tickerFlushAt v)) h hlength hflushed rfl

end Sys2Proof.Machine

namespace Sys2Proof.Machine

open Sys2Proof.Safety

/-! ## The level called for, and the level after (R122) -/

section
variable {s : State} {late k : Nat}

theorem threshold_calledLevel (h : 0 < calledLevel s late) : threshold s (calledLevel s late) ≤ late := by
  by_cases h4 : threshold s 4 ≤ late
  · rwa [calledLevel, if_pos h4]
  by_cases h3 : threshold s 3 ≤ late
  · rwa [calledLevel, if_neg h4, if_pos h3]
  by_cases h2 : threshold s 2 ≤ late
  · rwa [calledLevel, if_neg h4, if_neg h3, if_pos h2]
  by_cases h1 : threshold s 1 ≤ late
  · rwa [calledLevel, if_neg h4, if_neg h3, if_neg h2, if_pos h1]
  · rw [calledLevel, if_neg h4, if_neg h3, if_neg h2, if_neg h1] at h
    exact absurd h (Nat.lt_irrefl 0)

theorem le_calledLevel (hk : k ≤ 4) (hreached : threshold s k ≤ late) : k ≤ calledLevel s late := by
  unfold calledLevel
  match k with
  | 0 => exact Nat.zero_le _
  | 1 | 2 | 3 | 4 =>
    simp only [hreached, if_true]
    repeat' split
    all_goals omega

theorem calledLevel_le_of_unreached (h : ∀ j, k < j → j ≤ 4 → late < threshold s j) : calledLevel s late ≤ k := by
  by_contra hk
  have hcalled := threshold_calledLevel (s := s) (late := late) (by omega)
  exact absurd (h _ (Nat.lt_of_not_le hk) (calledLevel_le s late)) (Nat.not_lt.mpr hcalled)

theorem nextLevel_rises (hrise : s.ticker.level < k) (hk : k ≤ 4) (hreached : threshold s k ≤ late)
    (h : ∀ j, k < j → j ≤ 4 → late < threshold s j) : nextLevel s late = k := by
  have hcalled : calledLevel s late = k := Nat.le_antisymm (calledLevel_le_of_unreached h) (le_calledLevel hk hreached)
  rw [nextLevel, if_pos (hcalled ▸ hrise), hcalled]

theorem nextLevel_falls (h : ∀ j, s.ticker.level < j → j ≤ 4 → late < threshold s j) (hlevel : 0 < s.ticker.level)
    (hlate : late + param s 13 < threshold s s.ticker.level) : nextLevel s late = s.ticker.level - 1 := by
  have hcalled := calledLevel_le_of_unreached h
  rw [nextLevel, if_neg (Nat.not_lt.mpr hcalled), if_pos ⟨hlevel, by omega⟩]

theorem nextLevel_stays (h : ∀ j, s.ticker.level < j → j ≤ 4 → late < threshold s j)
    (hlate : s.ticker.level = 0 ∨ threshold s s.ticker.level ≤ late + param s 13) :
    nextLevel s late = s.ticker.level := by
  have hcalled := calledLevel_le_of_unreached h
  rw [nextLevel, if_neg (Nat.not_lt.mpr hcalled), if_neg (by omega)]

end

/-! ## A level change told whole (R104, R122, R150) -/

/-- The ticker with its level changed (R122). -/
def tickerAtLevel (level lateMinutes : Nat) (epoch : BitVec 16) (k : Ticker) : Ticker :=
  { k with level := level, lateMinutes := lateMinutes, epoch := epoch }

/-- An announcement is placed alike at every level, and hangs on no other field of the ticker but the queue, the state
and the counter. -/
theorem offerText_atLevel (atHead : Bool) (text : List Byte) {level lateMinutes : Nat} {epoch : BitVec 16} {s v : State}
    {mgmt : Management}
    (h : SameOffers { s with ticker := tickerAtLevel level lateMinutes epoch s.ticker, mgmt := mgmt } v) :
    (offerText atHead text v).ticker = tickerAtLevel level lateMinutes epoch (offerText atHead text s).ticker
      ∧ (offerText atHead text v).mgmt = (offerText atHead text { s with mgmt := mgmt }).mgmt := by
  have hoffer := h.offerText atHead text
  rw [hoffer.ticker, hoffer.mgmt]
  by_cases hrefused : s.ticker.state = .stopped ∨ text = []
  · simp only [offerText_refused, tickerAtLevel, hrefused, and_self]
  obtain ⟨hstate, htext⟩ := not_or.mp hrefused
  by_cases hroom : s.ticker.queue.length < 256
  · simp only [offerText_queued, tickerAtLevel, hstate, htext, hroom, ne_eq, not_false_eq_true, and_self]
  have hfull : 256 ≤ s.ticker.queue.length := Nat.not_lt.mp hroom
  cases hany : s.ticker.queue.any isClassB with
  | false =>
    simp only [offerText_discarded, tickerAtLevel, hfull, hany, and_self]
  | true =>
    simp only [offerText_displaces, tickerAtLevel, hstate, htext, hfull, hany, ne_eq, not_false_eq_true, and_self]

theorem handLevel_eq (s : State) :
    handLevel s = { markedBoards statusMark s with line := lineWithStatus s.line } := by
  simp only [handLevel, markStatus_eq]
  rfl

/-- The epoch after a change of the level (R126). -/
def epochAt (level : Nat) (k : Ticker) : BitVec 16 := if k.level ≤ 1 ∧ 2 ≤ level then k.epoch + 1 else k.epoch

/-- The ticker after a change of the level, with its announcement (R122). -/
def announcedTicker (late : Nat) (s : State) : Ticker :=
  tickerAtLevel (nextLevel s late) (late / 60) (epochAt (nextLevel s late) s.ticker)
    (offerText true (levelText s.ticker.level (nextLevel s late) (late / 60)) s).ticker

theorem updateLevel_told {late : Nat} {s : State} (h : nextLevel s late ≠ s.ticker.level) :
    updateLevel late s = { markedBoards statusMark (levelSet late s) with
      line := lineWithStatus s.line,
      ticker := announcedTicker late s,
      mgmt := (offerText true (levelText s.ticker.level (nextLevel s late) (late / 60))
        { s with mgmt := alertSet .tapeLevel s.mgmt }).mgmt } := by
  have hsame : SameOffers { s with
      ticker := tickerAtLevel (nextLevel s late) (late / 60) (epochAt (nextLevel s late) s.ticker) s.ticker,
      mgmt := alertSet .tapeLevel s.mgmt } (handLevel (levelSet late s)) := by
    rw [handLevel_frame]
    exact ⟨rfl, rfl⟩
  have hoffer := offerText_atLevel true (levelText s.ticker.level (nextLevel s late) (late / 60)) hsame
  rw [updateLevel_of_change h, offerText_frame, hoffer.1, hoffer.2, handLevel_eq]
  rfl

/-- What a change of the level brings about at the STATUS slots (R104). -/
theorem boardsMarked_updateLevel {late : Nat} {s : State} (h : nextLevel s late ≠ s.ticker.level) :
    BoardsMarked statusMark { s with ticker := (updateLevel late s).ticker } (updateLevel late s) := by
  rw [updateLevel_told h]
  refine boardsMarked_of_sameShown (w := levelSet late s) ⟨rfl, rfl, rfl, rfl, rfl, rfl, rfl, rfl⟩ ?_
  exact boardsMarked_markedBoards statusMark (levelSet late s)

theorem boardsOnlyRefresh_updateLevel (late : Nat) (s : State) : BoardsOnlyRefresh s (updateLevel late s) := by
  by_cases h : nextLevel s late = s.ticker.level
  · rw [updateLevel_of_stay h]
    exact boardsOnlyRefresh_refl s
  · have hmarked : BoardsOnlyRefresh (levelSet late s) (markStatus (levelSet late s)) :=
      markSlots_boards (fun sl => sl.kind == .status) (f := dirtied) (fun _ => rfl) _
    rw [markStatus_eq] at hmarked
    rw [updateLevel_told h]
    exact hmarked

/-- The announcement of a rise, and of a fall (R122 step 5). -/
theorem levelText_rise {old new : Nat} (h : old < new) (minutes : Nat) : levelText old new minutes
    = if minutes = 0 then textTapeLate else textTapeLate ++ [0x20] ++ digits minutes ++ textMin := if_pos h

theorem levelText_fall {old new : Nat} (h : new < old) (minutes : Nat) :
    levelText old new minutes = if new = 0 then textTapeCurrent else [] := if_neg (Nat.lt_asymm h)

theorem updateLevel_level (late : Nat) (s : State) : (updateLevel late s).ticker.level = nextLevel s late := by
  by_cases h : nextLevel s late = s.ticker.level
  · rw [updateLevel_of_stay h, h]
  · rw [updateLevel_told h]
    rfl

/-- Settles O41: the level by the thresholds, and a change by the equation that tells it whole. -/
theorem levelFollowsLateness : Obligations.LevelFollowsLateness := by
  unfold Obligations.LevelFollowsLateness
  intro s late u old t
  have hlevel : t.ticker.level = nextLevel s late := updateLevel_level late s
  have hupdated : LevelUpdated s t := levelUpdated_updateLevel late s
  refine ⟨fun k hrise hk hreached h => ?_, fun h hpos hlate => ?_, fun h hlate => ?_, fun hchange => ?_, ?_⟩
  · exact hlevel.trans (nextLevel_rises hrise hk hreached h)
  · exact hlevel.trans (nextLevel_falls h hpos hlate)
  · exact updateLevel_of_stay (nextLevel_stays h hlate)
  · have hnext : nextLevel s late ≠ s.ticker.level := hlevel ▸ hchange
    have ht : t = _ := updateLevel_told hnext
    have hboards : BoardsMarked statusMark { s with ticker := t.ticker } t := boardsMarked_updateLevel hnext
    have hticker : t.ticker = announcedTicker late s := congrArg State.ticker ht
    have hmgmt : t.mgmt = _ := congrArg State.mgmt ht
    have hset : alertIn .tapeLevel (alertSet .tapeLevel s.mgmt).alertStatus = true := by
      rw [alertIn_alertSet, decide_eq_true rfl, Bool.true_or]
    refine ⟨congrArg Ticker.lateMinutes hticker, ?_, ⟨_, ?_, fun h => ?_, fun h => ?_, hmgmt⟩, ?_,
      congrArg State.line ht, hboards⟩
    · rw [hlevel]
      exact congrArg Ticker.epoch hticker
    · rw [hticker]
      rfl
    · exact levelText_rise (hlevel ▸ h) _
    · rw [hlevel] at h ⊢
      exact levelText_fall h _
    · rw [hmgmt]
      exact alertIn_offerText true _ hset
  · have hframe := hupdated.frame
    have hboards : BoardsOnlyRefresh s t := boardsOnlyRefresh_updateLevel late s
    clear_value t
    rw [hframe]
    refine ⟨rfl, rfl, rfl, rfl, ⟨rfl, rfl, rfl, rfl, rfl, rfl⟩, ?_, rfl⟩
    exact hboards

end Sys2Proof.Machine

namespace Sys2Proof.Machine

open Sys2Proof.Safety

/-! ## The account of the prints (R132) -/

/-- The prints admitted that no counter and no entry of the queue accounts for, modulo 2^24. -/
def unaccounted (k : Ticker) : BitVec 24 :=
  k.admitted - (k.printed + k.merged + k.omitted + BitVec.ofNat 24 (k.queue.countP isPrint))

theorem countersBalance_iff (s : State) : CountersBalance s ↔ unaccounted s.ticker = 0 := sub_eq_zero.symm

/-- The count of the prints with one more. -/
theorem ofNat_succ (n : Nat) : BitVec.ofNat 24 (n + 1) = BitVec.ofNat 24 n + 1 := BitVec.ofNat_add n 1

section
variable (k : Ticker) {queue : List TickerEntry}

/-- The account hangs on the queue by its prints alone. -/
theorem unaccounted_queue (h : queue.countP isPrint = k.queue.countP isPrint) :
    unaccounted { k with queue := queue } = unaccounted k := by
  simp only [unaccounted, h]

/-- A print taken from the queue is to be accounted for. -/
theorem unaccounted_taken (h : queue.countP isPrint + 1 = k.queue.countP isPrint) :
    unaccounted { k with queue := queue } = unaccounted k + 1 := by
  simp only [unaccounted, ← h, ofNat_succ]
  ring

theorem unaccounted_omitted : unaccounted { k with omitted := k.omitted + 1 } = unaccounted k - 1 := by
  simp only [unaccounted]
  ring

theorem unaccounted_printed : unaccounted { k with printed := k.printed + 1 } = unaccounted k - 1 := by
  simp only [unaccounted]
  ring

theorem unaccounted_merged (n : Nat) (h : queue.countP isPrint + n = k.queue.countP isPrint) :
    unaccounted { k with queue := queue, merged := k.merged + BitVec.ofNat 24 n } = unaccounted k := by
  simp only [unaccounted, ← h, BitVec.ofNat_add]
  ring

/-- R130: the prints of the queue are omitted with it. -/
theorem unaccounted_flushed : unaccounted
    { k with queue := [], omitted := k.omitted + BitVec.ofNat 24 (k.queue.countP isPrint) } = unaccounted k := by
  have hnone : BitVec.ofNat 24 (List.countP isPrint []) = 0 := rfl
  simp only [unaccounted, hnone]
  ring

end

/-! ### The prints in a queue -/

theorem countP_dropOldestB {queue : List TickerEntry} (h : queue.any isClassB = true) :
    (dropOldestB queue).countP isPrint + 1 = queue.countP isPrint := by
  obtain ⟨e, he, hb⟩ := List.any_eq_true.mp h
  obtain ⟨x, before, after, -, hx, hqueue, herased⟩ := List.exists_of_eraseP he hb
  have hprint : isPrint x = true := by
    cases x with
    | print p => rfl
    | announce text => exact absurd hx Bool.false_ne_true
  rw [dropOldestB, herased, hqueue, List.countP_append, List.countP_append, List.countP_cons_of_pos hprint,
    Nat.add_assoc]

theorem countP_changeFirst (pick : TickerEntry → Bool) {f : TickerEntry → TickerEntry}
    (hf : ∀ e, isPrint (f e) = isPrint e) (queue : List TickerEntry) :
    (changeFirst pick f queue).countP isPrint = queue.countP isPrint := by
  induction queue with
  | nil => rfl
  | cons e rest ih =>
    simp only [changeFirst]
    split
    · rw [List.countP_cons, List.countP_cons, hf]
    · rw [List.countP_cons, List.countP_cons, ih]

theorem countP_mergeYoungest (p : Print) (queue : List TickerEntry) :
    (mergeYoungest p queue).countP isPrint = queue.countP isPrint := by
  have habsorb (e : TickerEntry) : isPrint (absorbInto p.volume e) = isPrint e := by cases e <;> rfl
  rw [mergeYoungest, List.countP_reverse, countP_changeFirst _ habsorb, List.countP_reverse]

/-- A print absorbs prints alone. -/
theorem isPrint_of_absorbs {level : Nat} {p : Print} {e : TickerEntry} (h : absorbs level p e = true) :
    isPrint e = true := by
  cases e with
  | print q => rfl
  | announce text => simp [absorbs, takesUp] at h

theorem countP_condensed (level : Nat) (p : Print) (queue : List TickerEntry) :
    (queue.filter (fun e => !absorbs level p e)).countP isPrint + (queue.filter (absorbs level p)).length
      = queue.countP isPrint := by
  induction queue with
  | nil => rfl
  | cons e rest ih =>
    cases h : absorbs level p e with
    | true =>
      rw [List.filter_cons_of_neg (by simp [h]), List.filter_cons_of_pos h, List.length_cons,
        List.countP_cons_of_pos (isPrint_of_absorbs h), ← ih, Nat.add_assoc]
    | false =>
      rw [List.filter_cons_of_pos (by simp [h]), List.filter_cons_of_neg (by simp [h]), List.countP_cons,
        List.countP_cons, ← ih]
      omega

/-! ## What an operation keeps of the ticker's account and rest -/

/-- The ticker goes on in its state, its step timer as it was, and every print it holds is accounted for as before. -/
structure TickerGoesOn (k k' : Ticker) : Prop where
  balance : unaccounted k' = unaccounted k
  state : k'.state = k.state
  timer : k'.stepTimer = k.stepTimer

theorem TickerGoesOn.refl (k : Ticker) : TickerGoesOn k k := ⟨rfl, rfl, rfl⟩

theorem goesOn_offerText (atHead : Bool) (text : List Byte) (s : State) :
    TickerGoesOn s.ticker (offerText atHead text s).ticker := by
  by_cases hrefused : s.ticker.state = .stopped ∨ text = []
  · rw [offerText_refused hrefused]
    exact .refl s.ticker
  obtain ⟨hstate, htext⟩ := not_or.mp hrefused
  by_cases hroom : s.ticker.queue.length < 256
  · rw [offerText_queued hstate htext hroom]
    exact ⟨unaccounted_queue s.ticker (countP_placeText atHead text s.ticker.queue), rfl, rfl⟩
  have hfull : 256 ≤ s.ticker.queue.length := Nat.not_lt.mp hroom
  cases hany : s.ticker.queue.any isClassB with
  | false =>
    rw [offerText_discarded hfull hany]
    exact .refl s.ticker
  | true =>
    rw [offerText_displaces hstate htext hfull hany]
    refine ⟨?_, rfl, rfl⟩
    have hprints : (placeText atHead text (dropOldestB s.ticker.queue)).countP isPrint + 1
        = s.ticker.queue.countP isPrint := by rw [countP_placeText, countP_dropOldestB hany]
    calc unaccounted _ = unaccounted { s.ticker with queue := placeText atHead text (dropOldestB s.ticker.queue) } - 1 :=
          unaccounted_omitted { s.ticker with queue := placeText atHead text (dropOldestB s.ticker.queue) }
      _ = unaccounted s.ticker := by rw [unaccounted_taken s.ticker hprints, add_sub_cancel_right]

theorem goesOn_offerPrint (p : Print) (s : State) : TickerGoesOn s.ticker (offerPrint p s).ticker := by
  by_cases hrefused : s.ticker.state = .stopped ∨ p.tapeClass = .none
  · rw [offerPrint_refused hrefused]
    exact .refl s.ticker
  obtain ⟨hstate, hclass⟩ := not_or.mp hrefused
  generalize offerPrint p s = t, printOffered_offerPrint hstate hclass = h
  refine ⟨?_, by cases h <;> rfl, by cases h <;> rfl⟩
  cases h with
  | queued =>
    simp only [printAdmitted, unaccounted, List.countP_append, List.countP_singleton, isPrint, if_true, ofNat_succ]
    ring
  | merged =>
    simp only [printAdmitted, unaccounted, countP_mergeYoungest]
    ring
  | omitted =>
    simp only [printAdmitted, unaccounted]
    ring
  | displaces _ hsome =>
    simp only [printAdmitted, unaccounted, List.countP_append, List.countP_singleton, isPrint, if_true,
      countP_dropOldestB hsome]
    ring

theorem goesOn_updateLevel (late : Nat) (s : State) : TickerGoesOn s.ticker (updateLevel late s).ticker := by
  by_cases h : nextLevel s late = s.ticker.level
  · rw [updateLevel_of_stay h]
    exact .refl s.ticker
  · rw [updateLevel_of_change h]
    have hticker : (handLevel (levelSet late s)).ticker = (levelSet late s).ticker := by rw [handLevel_frame]
    obtain ⟨hbalance, hstate, htimer⟩ := goesOn_offerText true
      (levelText s.ticker.level (nextLevel s late) (late / 60)) (handLevel (levelSet late s))
    rw [hticker] at hbalance hstate htimer
    exact ⟨hbalance, hstate, htimer⟩

/-! ## A composition (R114, R120, R123) -/

/-- A ticker that is STOPPED and at rest (R112). -/
def AtRest (k : Ticker) : Prop :=
  k.state = .stopped ∧ k.queue = [] ∧ k.text = [] ∧ k.separator = 0 ∧ k.stepTimer = none

/-- A step of the ticker that leaves the account as it is: the ticker goes on, or comes to rest. -/
structure TickerTurns (k k' : Ticker) : Prop where
  balance : unaccounted k' = unaccounted k
  ends : (k'.state = k.state ∧ k'.stepTimer = k.stepTimer) ∨ AtRest k'

/-- A print composed is one printed, and those that it absorbs are merged (R124, R132). -/
theorem unaccounted_printComposed (p : Print) (s : State) :
    unaccounted (printComposed p s).ticker = unaccounted s.ticker - 1 := by
  rw [printComposed_eq]
  have hcondensed : unaccounted (condensedTicker p s.ticker) = unaccounted s.ticker :=
    unaccounted_merged s.ticker _ (countP_condensed s.ticker.level p s.ticker.queue)
  rw [← hcondensed]
  exact unaccounted_printed (condensedTicker p s.ticker)

/-- The composition step of an empty queue: a blank, and the stop of a DRAINING ticker (R114). -/
theorem turns_compositionStep_of_empty {s : State} (h : s.ticker.queue = []) :
    TickerTurns s.ticker (compositionStep s).ticker := by
  rw [compositionStep_of_empty h]
  split
  · obtain ⟨hstopped, -⟩ := stopTicker_told (emitBlank s)
    rw [hstopped]
    exact ⟨rfl, .inr ⟨rfl, h, rfl, rfl, rfl⟩⟩
  · exact ⟨rfl, .inl ⟨rfl, rfl⟩⟩

/-- By the prints in the queue: each round takes one from it, and prints or omits it. -/
theorem turns_compositionStep (s : State) : TickerTurns s.ticker (compositionStep s).ticker := by
  induction hn : s.ticker.queue.countP isPrint using Nat.strong_induction_on generalizing s with
  | _ n ih =>
    cases hq : s.ticker.queue with
    | nil => exact turns_compositionStep_of_empty hq
    | cons e rest =>
      cases e with
      | announce text =>
        rw [compositionStep_of_announce hq]
        have hprints : rest.countP isPrint = s.ticker.queue.countP isPrint := by
          rw [hq, List.countP_cons_of_neg Bool.false_ne_true]
        exact ⟨unaccounted_queue s.ticker hprints, .inl ⟨rfl, rfl⟩⟩
      | print p =>
        have hround := compositionStep_of_print hq
        have hlevel := goesOn_updateLevel (latenessOf s.time p.time) (setQueue rest s)
        have hfewer := (levelUpdated_updateLevel (latenessOf s.time p.time) (setQueue rest s)).prints
        generalize updateLevel (latenessOf s.time p.time) (setQueue rest s) = v at hround hlevel hfewer
        have hprints : rest.countP isPrint + 1 = s.ticker.queue.countP isPrint := by
          rw [hq, List.countP_cons_of_pos rfl]
        have howed : unaccounted v.ticker - 1 = unaccounted s.ticker := by
          rw [hlevel.balance]
          exact sub_eq_of_eq_add (unaccounted_taken s.ticker hprints)
        rw [hround]
        split
        · have hless : v.ticker.queue.countP isPrint < n := by
            have hrest : v.ticker.queue.countP isPrint ≤ rest.countP isPrint := hfewer
            omega
          obtain ⟨hbalance, hends⟩ := ih _ hless (countOmitted 1 v) rfl
          refine ⟨hbalance.trans ((unaccounted_omitted v.ticker).trans howed), ?_⟩
          refine hends.imp_left fun ⟨hstate, htimer⟩ => ?_
          exact ⟨hstate.trans hlevel.state, htimer.trans hlevel.timer⟩
        · refine ⟨(unaccounted_printComposed p v).trans howed, .inl ?_⟩
          rw [printComposed_eq]
          exact ⟨hlevel.state, hlevel.timer⟩

/-- What a step of the ticker emits leaves the account as it is (R128). -/
theorem turns_emitStep (s : State) : TickerTurns s.ticker (emitStep s).ticker := by
  simp only [emitStep]
  split
  · exact ⟨rfl, .inl ⟨rfl, rfl⟩⟩
  · split
    · exact ⟨rfl, .inl ⟨rfl, rfl⟩⟩
    · exact turns_compositionStep s

/-! ## The two laws, kept from one state to another (R112, R132) -/

/-- The counters stay in balance, and a STOPPED ticker at rest. -/
structure KeepsTicker (s t : State) : Prop where
  balance : CountersBalance s → CountersBalance t
  rests : TickerStoppedRests s → TickerStoppedRests t

namespace KeepsTicker

variable {s t u : State}

theorem of_ticker (h : t.ticker = s.ticker) : KeepsTicker s t := by
  refine ⟨?_, ?_⟩
  · simp only [CountersBalance, h, imp_self]
  · simp only [TickerStoppedRests, h, imp_self]

theorem refl (s : State) : KeepsTicker s s := of_ticker rfl

theorem trans (h : KeepsTicker s t) (h' : KeepsTicker t u) : KeepsTicker s u :=
  ⟨h'.balance ∘ h.balance, h'.rests ∘ h.rests⟩

/-- Operations that leave the ticker as it is, and then another. -/
theorem congr_left (he : t.ticker = s.ticker) (h : KeepsTicker t u) : KeepsTicker s u := (of_ticker he).trans h

/-- An operation, and then some that leave the ticker as it is. -/
theorem congr_right (h : KeepsTicker s t) (he : u.ticker = t.ticker) : KeepsTicker s u := h.trans (of_ticker he)

/-- Operations of states taken one after the other from a list. -/
theorem foldl {α : Type} {f : State → α → State} (h : ∀ s x, KeepsTicker s (f s x)) :
    ∀ (l : List α) (s : State), KeepsTicker s (l.foldl f s)
  | [], s => refl s
  | x :: rest, s => (h s x).trans (foldl h rest (f s x))

theorem balance_of_eq (h : unaccounted t.ticker = unaccounted s.ticker) : CountersBalance s → CountersBalance t := by
  rw [countersBalance_iff, countersBalance_iff, h]
  exact id

/-- A ticker that goes on, and stands as it is where it is STOPPED. -/
theorem of_goesOn (h : TickerGoesOn s.ticker t.ticker) (hstopped : s.ticker.state = .stopped → t.ticker = s.ticker) :
    KeepsTicker s t := by
  refine ⟨balance_of_eq h.balance, fun hrests => ?_⟩
  by_cases hstate : s.ticker.state = .stopped
  · exact (of_ticker (hstopped hstate)).rests hrests
  · exact ⟨fun hs => absurd (h.state.symm.trans hs) hstate, fun _ => by rw [h.timer]; exact hrests.2 hstate⟩

/-- A ticker whose counters are cleared with its queue, in whatever state it is then. -/
theorem of_cleared (hcounts : t.ticker.admitted = 0 ∧ t.ticker.printed = 0 ∧ t.ticker.merged = 0
      ∧ t.ticker.omitted = 0 ∧ t.ticker.queue = [])
    (hrests : TickerStoppedRests s → TickerStoppedRests t) : KeepsTicker s t := by
  obtain ⟨hadmitted, hprinted, hmerged, homitted, hqueue⟩ := hcounts
  refine ⟨fun _ => ?_, hrests⟩
  rw [CountersBalance, hadmitted, hprinted, hmerged, homitted, hqueue]
  rfl

end KeepsTicker

/-! ### The ticker (chapter 7) -/

theorem offerText_keepsTicker (atHead : Bool) (text : List Byte) (s : State) :
    KeepsTicker s (offerText atHead text s) :=
  .of_goesOn (goesOn_offerText atHead text s) fun h => by rw [offerText_refused (.inl h)]

theorem offerPrint_keepsTicker (p : Print) (s : State) : KeepsTicker s (offerPrint p s) :=
  .of_goesOn (goesOn_offerPrint p s) fun h => by rw [offerPrint_refused (.inl h)]

/-- A step that ends with the ticker running restarts its timer; one that has stopped it leaves it at rest (R129). -/
theorem stepExpire_keepsTicker (s : State) : KeepsTicker s (stepExpire s) := by
  simp only [stepExpire]
  split
  · rename_i h
    obtain ⟨hbalance, hends⟩ := turns_emitStep s
    generalize emitStep s = v at hbalance hends
    by_cases hstate : v.ticker.state = .stopped
    · rw [restartStep, if_pos hstate]
      refine ⟨KeepsTicker.balance_of_eq hbalance, fun _ => ⟨fun _ => ?_, fun hruns => absurd hstate hruns⟩⟩
      have hrest : AtRest v.ticker := hends.resolve_left fun hgoes => h.2 (hgoes.1.symm.trans hstate)
      exact hrest.2
    · rw [restartStep_of_running hstate]
      refine ⟨KeepsTicker.balance_of_eq hbalance, fun _ => ⟨fun hstopped => absurd hstopped hstate, fun _ => ?_⟩⟩
      show (intervalAt v v.ticker.level).isSome = true
      rw [intervalAt]
      split <;> rfl
  · exact .refl s

theorem tickerSession_keepsTicker (old new : SessionState) (s : State) : KeepsTicker s (tickerSession old new s) := by
  simp only [tickerSession]
  split
  · split
    · exact ⟨id, fun _ => ⟨nofun, fun _ => rfl⟩⟩
    · rename_i hstate
      exact ⟨id, fun h => ⟨nofun, fun _ => h.2 hstate⟩⟩
  · split
    · rename_i hnew
      exact ⟨id, fun h => ⟨nofun, fun _ => h.2 (by rw [hnew.2]; nofun)⟩⟩
    · exact .refl s

theorem tickerFlushAt_keepsTicker (s : State) : KeepsTicker s (tickerFlushAt s) := by
  rw [tickerFlushAt, countOmitted_eq]
  exact ⟨KeepsTicker.balance_of_eq (unaccounted_flushed s.ticker),
    fun h => ⟨fun hstate => ⟨rfl, (h.1 hstate).2⟩, h.2⟩⟩

theorem tickerDayReset_keepsTicker (s : State) : KeepsTicker s (tickerDayReset s) := by
  obtain ⟨hframe, -, -⟩ := tickerReset_tickerDayReset s
  have hticker : (tickerDayReset s).ticker = tickerOfDay s.ticker := congrArg State.ticker hframe
  refine .of_cleared (by rw [hticker]; exact ⟨rfl, rfl, rfl, rfl, rfl⟩) fun h => ?_
  rw [TickerStoppedRests, hticker]
  exact ⟨fun hstate => ⟨rfl, (h.1 hstate).2⟩, h.2⟩

end Sys2Proof.Machine

namespace Sys2Proof.Machine

open Sys2Proof.Safety

/-! ## Operations that leave the ticker as it is -/

/-- States of one view have the same ticker. -/
theorem ticker_of_view {s t : State} (h : t.boundsView = s.boundsView) : t.ticker = s.ticker :=
  congrArg BoundsView.ticker h

section
variable (s : State)

/-! ### Alerts, replies and the return line (chapter 10) -/

@[simp] theorem raiseAlert_ticker (a : Alert) : (raiseAlert a s).ticker = s.ticker := rfl

@[simp] theorem replyTo_ticker (body answer : List Byte) : (replyTo body answer s).ticker = s.ticker := by
  rw [replyTo_frame]

@[simp] theorem loadEnds_ticker (body answer : List Byte) : (loadEnds body answer s).ticker = s.ticker := by
  rw [loadEnds_frame]

@[simp] theorem takeReturnHead_ticker : (takeReturnHead s).ticker = s.ticker := by
  simp only [takeReturnHead]
  split <;> rfl

theorem returnStart_ticker : (returnStart s).ticker = s.ticker := by
  simp only [returnStart]
  split
  · exact takeReturnHead_ticker s
  · rfl

theorem returnSent_ticker : (returnSent s).ticker = s.ticker := by
  simp only [returnSent]
  split
  · exact takeReturnHead_ticker _
  · rfl

theorem applyRead_ticker (body : List Byte) : (applyRead body s).ticker = s.ticker := by
  simp only [applyRead]
  repeat' split
  all_goals simp

theorem applyReport_ticker (body : List Byte) : (applyReport body s).ticker = s.ticker := by
  simp only [applyReport]
  split <;> simp

/-! ### The boards (chapter 5) -/

theorem shiftComplete_ticker (c : ChainId) (returned : List Byte) : (shiftComplete c returned s).ticker = s.ticker := by
  rw [shiftComplete_frame]

@[simp] theorem wakeChain_ticker (c : ChainId) : (wakeChain c s).ticker = s.ticker := by
  rw [wakeChain_frame]

theorem settleExpire_ticker (c : ChainId) : (settleExpire c s).ticker = s.ticker := by
  simp only [settleExpire, settleComplete]
  repeat' split
  all_goals simp

theorem senseChange_ticker (c : ChainId) (present : Bool) : (senseChange c present s).ticker = s.ticker := by
  simp only [senseChange]
  repeat' split
  all_goals simp

/-! ### Market data, and the clock (chapters 1 and 4) -/

@[simp] theorem afterGap_ticker (e : IntakeEntry) : (afterGap e s).ticker = s.ticker :=
  ticker_of_view (boundsView_afterGap s e)

@[simp] theorem minuteChange_ticker : (minuteChange s).ticker = s.ticker := ticker_of_view (boundsView_minuteChange s)

theorem applyQuote_ticker (q : QuoteItems) : (applyQuote q s).ticker = s.ticker := by
  simp only [applyQuote]
  repeat' split
  all_goals simp

theorem applyRecap_ticker (q : RecapItems) : (applyRecap q s).ticker = s.ticker := by
  simp only [applyRecap]
  repeat' split
  all_goals simp

theorem applyClock_ticker (q : TimeOfDay) : (applyClock q s).ticker = s.ticker := by
  simp only [applyClock]
  split <;> simp

theorem secondExpire_ticker : (secondExpire s).ticker = s.ticker := by
  simp only [secondExpire]
  split <;> simp

/-! ### The terminal line (chapters 8 and 9) -/

@[simp] theorem applyRequest_ticker (x : TermId) (request : Option Request) :
    (applyRequest x request s).ticker = s.ticker := ticker_of_view (boundsView_applyRequest s x request)

@[simp] theorem miss_ticker (x : TermId) (after : TermState) : (miss x after s).ticker = s.ticker := by
  simp only [miss]
  split <;> rfl

theorem applyOutcome_ticker (kind : PrimaryKind) (x : TermId) (o : LineOutcome) :
    (applyOutcome kind x o s).ticker = s.ticker := by
  cases kind with
  | activate =>
    simp only [applyOutcome, activateOutcome]
    split <;> rfl
  | screenInit =>
    simp only [applyOutcome, screenInitOutcome]
    repeat' split
    all_goals simp
  | poll =>
    simp only [applyOutcome, pollOutcome]
    split <;> simp
  | update =>
    simp only [applyOutcome, updateOutcome]
    repeat' split
    all_goals simp
  | enquiry =>
    simp only [applyOutcome, enquiryOutcome]
    repeat' split
    all_goals simp

theorem endTransaction_ticker (o : LineOutcome) : (endTransaction o s).ticker = s.ticker := by
  simp only [endTransaction]
  split
  · rfl
  · rename_i tx _
    exact (ticker_of_view (by simp)).trans (applyOutcome_ticker s tx.kind tx.terminal o)

theorem takeCharacter_ticker (b : Byte) : (takeCharacter b s).ticker = s.ticker := by
  simp only [takeCharacter]
  repeat' split
  all_goals simp [endTransaction_ticker]

theorem responseExpire_ticker : (responseExpire s).ticker = s.ticker := by
  simp only [responseExpire]
  repeat' split
  all_goals simp [endTransaction_ticker]

end

/-! ### Table entries (R167) -/

theorem applyParamEntry_ticker {i : Nat} {x : List Byte} {s t : State} (h : applyParamEntry i x s = some t) :
    t.ticker = s.ticker := by
  simp only [applyParamEntry] at h
  split at h
  · cases h
  · obtain rfl := Option.some.inj h
    split
    · exact (ticker_of_view (boundsView_windowLoaded _)).trans rfl
    · rfl

theorem applySymbolEntry_ticker {n : Nat} {x : List Byte} {s t : State} (h : applySymbolEntry n x s = some t) :
    t.ticker = s.ticker := by
  refine ticker_of_view ?_
  rcases applySymbolEntry_cases h with ht | ⟨q, -, -, ⟨-, -, ht⟩ | ⟨r, -, ⟨-, ht⟩ | ht | ⟨-, -, ht⟩⟩⟩
  · rw [ht]
  · simp [ht, defineRecord]
  · simp [ht, deleteRecord]
  · simp [ht]
  · simp [ht, renameRecord]

theorem applySlotTable_ticker {s₀ : State} {n : Nat} {x : List Byte} {s t : State}
    (h : applySlotTable s₀ n x s = some t) : t.ticker = s.ticker := by
  refine ticker_of_view ?_
  obtain ⟨v, hv, rfl⟩ := Option.map_eq_some_iff.mp h
  simp only [boundsView_snapshotAfterLoad]
  simp only [applySlotEntry] at hv
  split at hv
  · cases hv
  · obtain rfl := Option.some.inj hv
    simp
  · split at hv
    · cases hv
    · obtain rfl := Option.some.inj hv
      simp

theorem foldl_ticker {α : Type} {f : State → α → State} (h : ∀ s x, (f s x).ticker = s.ticker) :
    ∀ (l : List α) (s : State), (l.foldl f s).ticker = s.ticker
  | [], _ => rfl
  | x :: rest, s => (foldl_ticker h rest (f s x)).trans (h s x)

theorem applyTerminalEntry_ticker {x : TermId} {e : List Byte} {s t : State} (h : applyTerminalEntry x e s = some t) :
    t.ticker = s.ticker := by
  have hrow (item : Fin 16 × Option Nat) (v : State) : (applyTerminalEntry.loadRow x item v).ticker = v.ticker := by
    simp only [applyTerminalEntry.loadRow]
    split
    · rfl
    · exact ticker_of_view (boundsView_changeRow v x item.1 item.2)
  simp only [applyTerminalEntry] at h
  split at h
  · cases h
  · split at h
    · obtain rfl := Option.some.inj h
      refine (ticker_of_view (boundsView_setEnabled _ x _)).trans ?_
      exact (foldl_ticker (fun v item => hrow item v) _ _).trans (setTerm_ticker s x _)
    · cases h

/-- Whatever the owner of a loadable table does with an entry. -/
theorem loadTable_ticker (table : LoadTable) {s₀ : State} {n : Nat} {x : List Byte} {s t : State}
    (h : table.apply s₀ n x s = some t) : t.ticker = s.ticker := by
  cases table with
  | param => exact applyParamEntry_ticker h
  | symbol => exact applySymbolEntry_ticker h
  | slot => exact applySlotTable_ticker h
  | chain =>
    simp only [LoadTable.apply, applyChainTable] at h
    split at h
    · obtain rfl := Option.some.inj h
      exact ticker_of_view (boundsView_applyChainEntry s _ _)
    · cases h
  | module =>
    simp only [LoadTable.apply, applyModuleTable] at h
    split at h
    · obtain rfl := Option.some.inj h
      exact ticker_of_view (boundsView_applyModuleEntry s _ _ _)
    · cases h
  | terminal =>
    simp only [LoadTable.apply, applyTerminalTable] at h
    split at h
    · exact applyTerminalEntry_ticker h
    · cases h

end Sys2Proof.Machine

namespace Sys2Proof.Machine

open Sys2Proof.Safety

/-! ## The two laws and the operations of the blocks -/

/-! ### Market data, session and bulletin stacks (chapters 1, 4 and 6) -/

theorem applyTrade_keepsTicker (q : TradeItems) (s : State) : KeepsTicker s (applyTrade q s) := by
  simp only [applyTrade]
  split
  · exact .refl s
  · split
    · exact .refl s
    · split
      · exact .congr_left (updateRecord_ticker _ _ _ s) (offerPrint_keepsTicker _ _)
      · exact .of_ticker (updateRecord_ticker _ _ _ s)

theorem applySymbolState_keepsTicker (q : SymbolStateItems) (s : State) : KeepsTicker s (applySymbolState q s) := by
  simp only [applySymbolState]
  split
  · exact .refl s
  · split
    · exact .refl s
    · split
      · exact .refl s
      · split
        · exact .of_ticker (updateRecord_ticker _ _ _ s)
        · exact .congr_left (updateRecord_ticker _ _ _ s) (offerText_keepsTicker _ _ _)

theorem handSession_keepsTicker (old new : SessionState) (s : State) : KeepsTicker s (handSession old new s) := by
  simp only [handSession]
  refine KeepsTicker.congr_right ?_ (ticker_of_view (boundsView_lineSession _ old))
  exact .congr_left (ticker_of_view (boundsView_markStatus s)) (tickerSession_keepsTicker old new _)

theorem dayReset_keepsTicker (s : State) : KeepsTicker s (dayReset s) := by
  simp only [dayReset]
  refine KeepsTicker.congr_right ?_ (ticker_of_view (boundsView_markAllSlots _))
  exact .congr_left (ticker_of_view (boundsView_recordsDayReset s)) (tickerDayReset_keepsTicker _)

theorem applySession_keepsTicker (code : SessionCode) (s : State) : KeepsTicker s (applySession code s) := by
  simp only [applySession]
  split
  · exact .refl s
  · rename_i new _
    split
    · exact .refl s
    · have hhanded : KeepsTicker s (handSession s.time.session new (s.setTime { s.time with session := new })) :=
        .congr_left (setTime_ticker s _) (handSession_keepsTicker s.time.session new _)
      split
      · exact hhanded.trans (dayReset_keepsTicker _)
      · exact hhanded

theorem offerUncovered_keepsTicker (stack : List BulletinEntry) (s : State) :
    KeepsTicker s (offerUncovered stack s) := by
  simp only [offerUncovered]
  split
  · exact .refl s
  · split
    · exact offerText_keepsTicker _ _ s
    · exact .refl s

/-- A stack replaced, and its MESSAGE slots marked. -/
theorem markedStack_ticker (k : StackId) (stack : List BulletinEntry) (s : State) :
    (markMessages k (s.setStack k stack)).ticker = s.ticker :=
  (ticker_of_view (boundsView_markMessages _ k)).trans rfl

theorem applyPush_keepsTicker (b : BulletinItems) (s : State) : KeepsTicker s (applyPush b s) := by
  simp only [applyPush]
  split
  · exact .congr_left (markedStack_ticker b.stack _ s) (offerText_keepsTicker _ _ _)
  · exact .of_ticker (markedStack_ticker b.stack _ s)

theorem applyPop_keepsTicker (b : BulletinItems) (s : State) : KeepsTicker s (applyPop b s) := by
  simp only [applyPop]
  split
  · exact .refl s
  · exact .congr_left (markedStack_ticker b.stack _ s) (offerUncovered_keepsTicker _ _)

theorem applyClear_keepsTicker (b : BulletinItems) (s : State) : KeepsTicker s (applyClear b s) := by
  simp only [applyClear]
  split
  · exact .refl s
  · exact .of_ticker (markedStack_ticker b.stack _ s)

theorem bulletinExpire_keepsTicker (k : StackId) (place : Nat) (s : State) :
    KeepsTicker s (bulletinExpire k place s) := by
  simp only [bulletinExpire]
  split
  · exact .refl s
  · split
    · split
      · exact .congr_left (markedStack_ticker k _ s) (offerUncovered_keepsTicker _ _)
      · exact .of_ticker rfl
    · exact .refl s

/-! ### The feed line (chapter 3) -/

theorem handFeedState_keepsTicker (new : FeedState) (s : State) : KeepsTicker s (handFeedState new s) := by
  simp only [handFeedState]
  split
  · exact .congr_left (ticker_of_view (by simp)) (offerText_keepsTicker _ _ _)
  · exact .of_ticker (ticker_of_view (by simp))

theorem silenceExpire_keepsTicker (s : State) : KeepsTicker s (silenceExpire s) := by
  simp only [silenceExpire]
  split
  · refine .congr_left ?_ (handFeedState_keepsTicker _ _)
    exact (ticker_of_view (boundsView_markAllStale _)).trans rfl
  · exact .refl s

theorem arrivalSeen_keepsTicker (s : State) : KeepsTicker s (arrivalSeen s) := by
  simp only [arrivalSeen, setFeedState]
  split
  · exact .of_ticker rfl
  · exact .congr_left (setFeed_ticker s _) (handFeedState_keepsTicker _ _)

theorem sequenceChecked_ticker {body : List Byte} {s t : State} (h : sequenceChecked body s = some t) :
    t.ticker = s.ticker := by
  simp only [sequenceChecked] at h
  split at h
  · split at h
    · obtain rfl := Option.some.inj h
      rfl
    · obtain rfl := Option.some.inj h
      rfl
    · cases h
  · obtain rfl := Option.some.inj h
    rfl

theorem offerIntake_ticker (body : List Byte) (s : State) : (offerIntake body s).ticker = s.ticker := by
  simp only [offerIntake]
  split <;> rfl

theorem arrive_keepsTicker (body : List Byte) (s : State) : KeepsTicker s (arrive body s) := by
  have hseen := arrivalSeen_keepsTicker s
  simp only [arrive]
  split
  · exact hseen
  · rename_i t ht
    have hchecked := hseen.congr_right (sequenceChecked_ticker ht)
    split
    · exact hchecked.congr_right (offerIntake_ticker body t)
    · exact hchecked

theorem settleReception_keepsTicker (r : Receiver × RxEvent) (s : State) : KeepsTicker s (settleReception r s) := by
  simp only [settleReception]
  split
  · exact .of_ticker rfl
  · exact .congr_left (setFeed_ticker s _) (arrive_keepsTicker _ _)

theorem feedBits_keepsTicker (bits : List Bool) (s : State) : KeepsTicker s (feedBits bits s) :=
  .foldl (fun s _ => settleReception_keepsTicker _ s) bits s

theorem takeLastByte_keepsTicker (low : Byte) (s : State) : KeepsTicker s (takeLastByte low s) := by
  simp only [takeLastByte]
  split
  · exact settleReception_keepsTicker _ s
  · exact feedBits_keepsTicker _ s

/-! ### The head of the intake queue (R50, R167, R171) -/

theorem takeHead_keepsTicker {step : FrameStep} {apply : List Byte → State → State}
    (h : ∀ body s, KeepsTicker s (apply body s)) (s : State) : KeepsTicker s (takeHead step apply s) := by
  simp only [takeHead]
  split
  · exact .refl s
  · rename_i e rest _
    split
    · exact .congr_left (afterGap_ticker s e) ((h e.body (afterGap e s)).congr_right rfl)
    · exact .refl s

theorem applyItems_keepsTicker {α : Type} {items : List Byte → Option α} {apply : α → State → State}
    (h : ∀ x s, KeepsTicker s (apply x s)) (body : List Byte) (s : State) :
    KeepsTicker s (applyItems items apply body s) := by
  simp only [applyItems]
  split
  · exact h _ s
  · exact .refl s

theorem applyControl_keepsTicker {length : Nat} {act : List Byte → State → Option State}
    (h : ∀ p s t, act p s = some t → KeepsTicker s t) (body : List Byte) (s : State) :
    KeepsTicker s (applyControl length act body s) := by
  simp only [applyControl]
  split
  · exact .of_ticker (replyTo_ticker s _ _)
  · split
    · rename_i t ht
      exact (h _ s t ht).congr_right (replyTo_ticker t _ _)
    · exact .of_ticker (replyTo_ticker s _ _)

theorem takeLoad_ticker (table : LoadTable) (s : State) :
    (takeLoad table.step table.size table.entrySize (table.apply s) s).ticker = s.ticker := by
  rcases takeLoad_cases table.step table.size table.entrySize (table.apply s) s with
    hsame | ⟨e, rest, u, v, -, -, hu, hv, hend⟩
  · rw [hsame]
  · have hsu : u.ticker = s.ticker := by
      rw [hu]
      split
      · exact afterGap_ticker s e
      · rfl
    have hsv : v.ticker = s.ticker := by
      rcases hv with rfl | ⟨n, x, hx⟩
      · exact hsu
      · exact (loadTable_ticker table hx).trans hsu
    rcases hend with ⟨answer, ht⟩ | ⟨done, ht, -⟩
    · rw [ht, loadEnds_ticker, hsv]
    · rw [ht, setLoad_ticker, hsv]

/-! ### Resets (R174, R175) -/

theorem coldState_keepsTicker (cause : ResetCause) (phase : Phase) (station : BitVec 6) (sense : Vector Bool 4)
    (s : State) : KeepsTicker s (coldState cause phase station sense s) :=
  .of_cleared ⟨rfl, rfl, rfl, rfl, rfl⟩ fun _ => ⟨fun _ => ⟨rfl, rfl, rfl, rfl⟩, fun h => absurd rfl h⟩

theorem initEnds_keepsTicker (straps : BitVec 6) (sense : Vector Bool 4) (s : State) :
    KeepsTicker s (initEnds straps sense s) :=
  (coldState_keepsTicker s.mgmt.cause .running straps sense s).congr_right rfl

theorem pinTaken_keepsTicker (s : State) : KeepsTicker s (pinTaken s) := by
  refine ⟨id, fun ⟨hstopped, hruns⟩ => ⟨fun h => ?_, hruns⟩⟩
  obtain ⟨hqueue, -, -, htimer⟩ := hstopped h
  exact ⟨hqueue, rfl, rfl, htimer⟩

/-- R134: the ticker after a warm reset rests in CLOSED, and runs otherwise. -/
theorem warmState_keepsTicker (straps : BitVec 6) (s : State) : KeepsTicker s (warmState straps s) := by
  refine .of_cleared ⟨rfl, rfl, rfl, rfl, rfl⟩ fun _ => ?_
  by_cases h : s.time.session = .closed
  · have htimer : (warmState straps s).ticker.stepTimer = none := if_pos h
    have hstate : (warmState straps s).ticker.state = .stopped := if_pos h
    exact ⟨fun _ => ⟨rfl, rfl, rfl, htimer⟩, fun hruns => absurd hstate hruns⟩
  · have htimer : (warmState straps s).ticker.stepTimer = some (param s 7) := if_neg h
    have hstate : (warmState straps s).ticker.state = .running := if_neg h
    exact ⟨fun hstopped => absurd (hstate.symm.trans hstopped) nofun, fun _ => htimer ▸ rfl⟩

theorem applyWarm_keepsTicker (straps : BitVec 6) (body : List Byte) (s : State) :
    KeepsTicker s (applyWarm straps body s) := by
  refine (warmState_keepsTicker straps s).congr_right ?_
  have hselected : (select (wakeChains (warmState straps s))).ticker = (warmState straps s).ticker :=
    ticker_of_view (by simp)
  simp only [applyWarm, raiseAlert_ticker, replyTo_ticker, hselected]

end Sys2Proof.Machine

namespace Sys2Proof.Machine

open Sys2Proof.Safety

/-! ## The two laws at a tick and at a step (R57, R58) -/

theorem ifDue_keepsTicker {due : Bool} {expire : State → State} {s : State} (h : KeepsTicker s (expire s)) :
    KeepsTicker s (ifDue due expire s) := by
  simp only [ifDue]
  split
  · exact h
  · exact .refl s

theorem chainDue_keepsTicker (c : ChainId) (s : State) : KeepsTicker s (chainDue c s) :=
  (ifDue_keepsTicker (.of_ticker (settleExpire_ticker s c))).trans
    (ifDue_keepsTicker (.of_ticker (ticker_of_view (boundsView_keepaliveExpire _ c))))

theorem takeDueOfBoards_keepsTicker (s : State) : KeepsTicker s (takeDueOfBoards s) := by
  refine KeepsTicker.trans ?_
    (.foldl (fun s n => ifDue_keepsTicker (.of_ticker (ticker_of_view (boundsView_flashExpire s n)))) _ _)
  refine KeepsTicker.trans ?_ (ifDue_keepsTicker (.of_ticker (ticker_of_view (boundsView_halfPeriodExpire _))))
  refine KeepsTicker.trans ?_ (chainDue_keepsTicker 3 _)
  refine KeepsTicker.trans ?_ (chainDue_keepsTicker 2 _)
  refine KeepsTicker.trans ?_ (chainDue_keepsTicker 1 _)
  refine KeepsTicker.trans ?_ (chainDue_keepsTicker 0 _)
  exact ifDue_keepsTicker (silenceExpire_keepsTicker s)

theorem stackDue_keepsTicker (s : State) (k : StackId) : KeepsTicker s (stackDue s k) :=
  .foldl (fun s place => ifDue_keepsTicker (bulletinExpire_keepsTicker k place s)) _ s

theorem takeDueOfLines_keepsTicker (s : State) : KeepsTicker s (takeDueOfLines s) := by
  refine KeepsTicker.trans ?_ (ifDue_keepsTicker (.of_ticker (ticker_of_view (boundsView_gapExpire _))))
  refine KeepsTicker.trans ?_
    (.foldl (fun s x => ifDue_keepsTicker (.of_ticker (ticker_of_view (boundsView_probeExpire s x)))) _ _)
  refine KeepsTicker.trans ?_ (ifDue_keepsTicker (.of_ticker (responseExpire_ticker _)))
  exact ifDue_keepsTicker (stepExpire_keepsTicker s)

/-- A step timer counted down runs on, and one that is stopped stays so. -/
theorem countTimers_keepsTicker (s : State) : KeepsTicker s (countTimers s) := by
  refine ⟨id, fun ⟨hstopped, hruns⟩ => ⟨fun h => ?_, fun h => ?_⟩⟩
  · obtain ⟨hqueue, htext, hseparator, htimer⟩ := hstopped h
    exact ⟨hqueue, htext, hseparator, congrArg countDown htimer⟩
  · exact Option.isSome_map.trans (hruns h)

theorem intervalTick_keepsTicker (s : State) : KeepsTicker s (intervalTick s) := by
  simp only [intervalTick]
  split
  · rw [takeDue_eq]
    refine (countTimers_keepsTicker s).trans ?_
    refine KeepsTicker.trans ?_ (takeDueOfLines_keepsTicker _)
    refine KeepsTicker.trans ?_ (.foldl stackDue_keepsTicker _ _)
    exact (ifDue_keepsTicker (.of_ticker (secondExpire_ticker _))).trans (takeDueOfBoards_keepsTicker _)
  · exact .refl s

/-- A command that acts in operation alone. -/
theorem whenRunning_keepsTicker {f : State → State} (h : ∀ s, KeepsTicker s (f s)) {s t : State}
    (ht : whenRunning f s = .next t) : KeepsTicker s t := by
  simp only [whenRunning, Host.Outcome.next.injEq] at ht
  subst ht
  split
  · exact h s
  · exact .refl s

/-- A command that acts in operation alone, and never on the ticker. -/
theorem whenRunning_ticker {f : State → State} (h : ∀ s, (f s).ticker = s.ticker) {s t : State}
    (ht : whenRunning f s = .next t) : KeepsTicker s t := whenRunning_keepsTicker (fun s => .of_ticker (h s)) ht

/-- A command that takes a frame from the head of the intake queue. -/
theorem whenRunning_head_keepsTicker {step : FrameStep} {apply : List Byte → State → State}
    (h : ∀ body s, KeepsTicker s (apply body s)) {s t : State} (ht : whenRunning (takeHead step apply) s = .next t) :
    KeepsTicker s t := whenRunning_keepsTicker (takeHead_keepsTicker h) ht

/-- The command that takes the next entry of a LOAD. -/
theorem exec_load_keepsTicker (table : LoadTable) {s t : State} (h : exec table.command s = .next t) :
    KeepsTicker s t := by
  rw [exec_load] at h
  simp only [whenRunning, Host.Outcome.next.injEq] at h
  subst h
  split
  · exact .of_ticker (takeLoad_ticker table s)
  · exact .refl s

/-- A command that acts in one phase alone. -/
theorem ite_keepsTicker {p : Prop} [Decidable p] {s t u v : State}
    (ht : Host.Outcome.next (if p then u else v) = (.next t : Answer)) (hu : KeepsTicker s u) (hv : KeepsTicker s v) :
    KeepsTicker s t := by
  obtain rfl := Host.Outcome.next.inj ht
  split
  · exact hu
  · exact hv

/-- Every command keeps the counters in balance and a STOPPED ticker at rest. -/
theorem exec_keepsTicker (i : Instr) {s t : State} (h : exec i s = .next t) : KeepsTicker s t := by
  cases i
  case feedFrameReceived low => exact whenRunning_keepsTicker (takeLastByte_keepsTicker low) h
  case feedByteReceived unit => exact whenRunning_keepsTicker (feedBits_keepsTicker _) h
  case silenceTimerExpiry => exact whenRunning_keepsTicker silenceExpire_keepsTicker h
  case trade => exact whenRunning_head_keepsTicker (applyItems_keepsTicker applyTrade_keepsTicker) h
  case quote =>
    exact whenRunning_head_keepsTicker (applyItems_keepsTicker fun q s => .of_ticker (applyQuote_ticker s q)) h
  case symbolState => exact whenRunning_head_keepsTicker (applyItems_keepsTicker applySymbolState_keepsTicker) h
  case recap =>
    exact whenRunning_head_keepsTicker (applyItems_keepsTicker fun q s => .of_ticker (applyRecap_ticker s q)) h
  case clock =>
    exact whenRunning_head_keepsTicker (applyItems_keepsTicker fun q s => .of_ticker (applyClock_ticker s q)) h
  case session => exact whenRunning_head_keepsTicker (applyItems_keepsTicker applySession_keepsTicker) h
  case bulletinPush => exact whenRunning_head_keepsTicker (applyItems_keepsTicker applyPush_keepsTicker) h
  case bulletinPop => exact whenRunning_head_keepsTicker (applyItems_keepsTicker applyPop_keepsTicker) h
  case bulletinClear => exact whenRunning_head_keepsTicker (applyItems_keepsTicker applyClear_keepsTicker) h
  case loadParam => exact exec_load_keepsTicker .param h
  case loadSymbol => exact exec_load_keepsTicker .symbol h
  case loadSlot => exact exec_load_keepsTicker .slot h
  case loadChain => exact exec_load_keepsTicker .chain h
  case loadModule => exact exec_load_keepsTicker .module h
  case loadTerminal => exact exec_load_keepsTicker .terminal h
  case read => exact whenRunning_head_keepsTicker (fun body s => .of_ticker (applyRead_ticker s body)) h
  case report => exact whenRunning_head_keepsTicker (fun body s => .of_ticker (applyReport_ticker s body)) h
  case clearAlerts =>
    refine whenRunning_head_keepsTicker (applyControl_keepsTicker ?_) h
    rintro p u v ⟨rfl⟩
    rw [clearAlertsNamed_frame]
    exact .of_ticker rfl
  case setMask =>
    refine whenRunning_head_keepsTicker (applyControl_keepsTicker ?_) h
    rintro p u v ⟨rfl⟩
    rw [setMaskTo_eq]
    exact .of_ticker rfl
  case chainReset =>
    refine whenRunning_head_keepsTicker (applyControl_keepsTicker fun p u v hv => ?_) h
    obtain ⟨c, -, rfl⟩ := Option.map_eq_some_iff.mp hv
    exact .of_ticker (ticker_of_view (boundsView_chainResetAt u c))
  case terminalReset =>
    refine whenRunning_head_keepsTicker (applyControl_keepsTicker fun p u v hv => ?_) h
    obtain ⟨x, -, rfl⟩ := Option.map_eq_some_iff.mp hv
    exact .of_ticker (ticker_of_view (boundsView_terminalResetAt u x))
  case tickerFlush =>
    refine whenRunning_head_keepsTicker (applyControl_keepsTicker ?_) h
    rintro p u v ⟨rfl⟩
    exact tickerFlushAt_keepsTicker u
  case resetCold => exact whenRunning_head_keepsTicker (fun _ s => coldState_keepsTicker _ _ _ _ s) h
  case resetWarm straps => exact whenRunning_head_keepsTicker (applyWarm_keepsTicker straps) h
  case powerOn =>
    obtain rfl := Host.Outcome.next.inj h
    exact coldState_keepsTicker _ _ _ _ s
  case resetPinAssert => exact ite_keepsTicker h (.refl s) (pinTaken_keepsTicker s)
  case resetPinRelease => exact ite_keepsTicker h (coldState_keepsTicker _ _ _ _ s) (.refl s)
  case initEnd straps sense => exact ite_keepsTicker h (initEnds_keepsTicker straps sense s) (.refl s)
  case secondPhaseExpiry => exact whenRunning_ticker secondExpire_ticker h
  case keepaliveExpiry c => exact whenRunning_ticker (fun s => ticker_of_view (boundsView_keepaliveExpire s c)) h
  case shiftCompletion c returned => exact whenRunning_ticker (fun s => shiftComplete_ticker s c _) h
  case settleCompletion c => exact whenRunning_ticker (fun s => settleExpire_ticker s c) h
  case chainSenseChange c present =>
    refine whenRunning_ticker (f := fun s => if s.chains[c].senseLevel = present then s else senseChange c present s)
      (fun s => ?_) h
    split
    · rfl
    · exact senseChange_ticker s c present
  case pwmPeriodStart c => exact whenRunning_ticker (fun s => setChain_ticker s c _) h
  case flashClockHalfPeriod => exact whenRunning_ticker (fun s => ticker_of_view (boundsView_halfPeriodExpire s)) h
  case flashExpiry n => exact whenRunning_ticker (fun s => ticker_of_view (boundsView_flashExpire s n)) h
  case bulletinDurationExpiry k place => exact whenRunning_keepsTicker (bulletinExpire_keepsTicker k place) h
  case step => exact whenRunning_keepsTicker stepExpire_keepsTicker h
  case primaryFrameSent => exact whenRunning_ticker (fun s => ticker_of_view (boundsView_frameSent s)) h
  case terminalResponse low => exact whenRunning_ticker (fun s => takeCharacter_ticker s low) h
  case terminalCharacterReceived b => exact whenRunning_ticker (fun s => takeCharacter_ticker s b) h
  case responseTimeout => exact whenRunning_ticker responseExpire_ticker h
  case probeTimerExpiry x => exact whenRunning_ticker (fun s => ticker_of_view (boundsView_probeExpire s x)) h
  case nightPollGapExpiry => exact whenRunning_ticker (fun s => ticker_of_view (boundsView_gapExpire s)) h
  case returnTransmissionStart => exact whenRunning_ticker returnStart_ticker h
  case returnFrameSent => exact whenRunning_ticker returnSent_ticker h
  case refusedManagementFrame =>
    exact whenRunning_head_keepsTicker (fun body s => .of_ticker (replyTo_ticker s body [refusalCode body])) h

theorem step_keepsTicker {s t : State} (h : step s = .next t) : KeepsTicker s t := by
  simp only [step] at h
  split at h
  · rename_i i rest _
    exact .congr_left (t := { s with pending := rest }) rfl (exec_keepsTicker i h)
  · obtain rfl := Host.Outcome.next.inj h
    exact intervalTick_keepsTicker s

/-- Settles O55: every step keeps the account of the prints, and the rest of a STOPPED ticker. -/
theorem tickerCountsBalance : Obligations.TickerCountsBalance := by
  unfold Obligations.TickerCountsBalance
  intro s t h
  obtain ⟨hbalance, hrests⟩ := step_keepsTicker h
  exact ⟨hbalance, hrests⟩

end Sys2Proof.Machine

namespace Sys2Proof.Machine

open Sys2Proof.Safety

/-! ## The law of R138, terminal by terminal -/

/-- A terminal with no transaction in flight: in RECOVERY exactly while it holds an outstanding number, and with nothing
in flight without one. -/
structure TermRests (term : Terminal) : Prop where
  recovers : term.state = .recovery ↔ term.outstanding.isSome = true
  still : term.outstanding = none → NothingInFlight term

/-- A terminal during a transaction of a kind (Table 8-1). -/
structure TermServed (kind : PrimaryKind) (term : Terminal) : Prop where
  fits : KindFits kind term
  holds : term.outstanding.isSome = true → kind = .update ∨ kind = .enquiry
  still : term.outstanding = none → NothingInFlight term

/-- The terminal and the kind of the transaction in flight. -/
def servedBy (l : TerminalLine) : Option (TermId × PrimaryKind) := l.transaction.map fun tx => (tx.terminal, tx.kind)

theorem servedBy_eq_some {l : TerminalLine} {x : TermId} {kind : PrimaryKind} :
    servedBy l = some (x, kind) ↔ ∃ tx, l.transaction = some tx ∧ tx.terminal = x ∧ tx.kind = kind := by
  simp only [servedBy, Option.map_eq_some_iff, Prod.mk.injEq]

theorem servedBy_of_transaction {l : TerminalLine} {tx : Transaction} (h : l.transaction = some tx) :
    servedBy l = some (tx.terminal, tx.kind) := servedBy_eq_some.mpr ⟨tx, h, rfl, rfl⟩

/-- No two terminals hold an outstanding number. -/
def OneHolds (l : TerminalLine) : Prop :=
  ∀ x y : TermId, (l.terminals[x]).outstanding.isSome = true → (l.terminals[y]).outstanding.isSome = true → x = y

/-- The law of a part in operation, told of each terminal by whether its transaction is in flight. -/
structure LineSound (l : TerminalLine) : Prop where
  one : OneHolds l
  rests : ∀ x : TermId, (∀ kind, servedBy l ≠ some (x, kind)) → TermRests l.terminals[x]
  served : ∀ x kind, servedBy l = some (x, kind) → TermServed kind l.terminals[x]

/-- The law of the terminals at the end of a transaction, before the line is freed. -/
structure LineRests (l : TerminalLine) : Prop where
  one : OneHolds l
  rests : ∀ x : TermId, TermRests l.terminals[x]

theorem enquiry_of_recovery {kind : PrimaryKind} {term : Terminal} (h : KindFits kind term)
    (hstate : term.state = .recovery) : kind = .enquiry ∧ term.outstanding.isSome = true := by
  cases kind with
  | enquiry => exact ⟨rfl, h.2⟩
  | activate => exact absurd (hstate.symm.trans h) nofun
  | screenInit => exact absurd (hstate.symm.trans h) nofun
  | poll => exact absurd (hstate.symm.trans h.1) nofun
  | update => exact absurd (hstate.symm.trans h.1) nofun

/-- A terminal is served, or it is not. -/
theorem LineSound.cases {l : TerminalLine} (h : LineSound l) (x : TermId) :
    (∃ kind, servedBy l = some (x, kind) ∧ TermServed kind l.terminals[x]) ∨ TermRests l.terminals[x] := by
  by_cases hx : ∃ kind, servedBy l = some (x, kind)
  · obtain ⟨kind, hkind⟩ := hx
    exact .inl ⟨kind, hkind, h.served x kind hkind⟩
  · exact .inr (h.rests x fun kind hkind => hx ⟨kind, hkind⟩)

/-- The law as the statement tells it, of a part in operation. -/
theorem lineSound_iff (s : State) : LineSound s.line ↔ OneOutstanding s ∧ OutstandingFits s := by
  constructor
  · intro h
    refine ⟨⟨h.one, fun x => ?_⟩, fun x hstate => ?_, fun x hholds => ?_,
      fun tx htx => (h.served _ _ (servedBy_of_transaction htx)).fits⟩
    · obtain ⟨_, -, hserved⟩ | hrests := h.cases x
      · exact hserved.still
      · exact hrests.still
    · obtain ⟨_, -, hserved⟩ | hrests := h.cases x
      · exact (enquiry_of_recovery hserved.fits hstate).2
      · exact hrests.recovers.mp hstate
    · obtain ⟨kind, hkind, hserved⟩ | hrests := h.cases x
      · obtain ⟨tx, htx, hterm, rfl⟩ := servedBy_eq_some.mp hkind
        have hfits := hserved.fits
        obtain hupdate | henquiry := hserved.holds hholds
        · rw [hupdate] at hfits
          exact .inr ⟨hfits.1, tx, htx, hterm, hupdate⟩
        · rw [henquiry] at hfits
          exact .inl hfits.1
      · exact .inl (hrests.recovers.mpr hholds)
  · rintro ⟨⟨hone, hstill⟩, hrecovers, hholder, hfits⟩
    refine ⟨hone, fun x hx => ⟨⟨hrecovers x, fun hholds => ?_⟩, hstill x⟩, fun x kind hkind => ?_⟩
    · obtain hstate | ⟨-, tx, htx, rfl, -⟩ := hholder x hholds
      · exact hstate
      · exact absurd (servedBy_of_transaction htx) (hx tx.kind)
    · obtain ⟨tx, htx, rfl, rfl⟩ := servedBy_eq_some.mp hkind
      refine ⟨hfits tx htx, fun hholds => ?_, hstill tx.terminal⟩
      obtain hstate | ⟨-, tx', htx', -, hupdate⟩ := hholder tx.terminal hholds
      · exact .inr (enquiry_of_recovery (hfits tx htx) hstate).1
      · obtain rfl := Option.some.inj (htx.symm.trans htx')
        exact .inl hupdate

theorem lineLaw_of_sound {s : State} (h : LineSound s.line) : LineLaw s := by
  obtain ⟨hone, hfits⟩ := (lineSound_iff s).mp h
  exact ⟨hone, fun _ => hfits⟩

theorem lineSound_of_law {s : State} (h : LineLaw s) (hphase : s.phase = .running) : LineSound s.line :=
  (lineSound_iff s).mpr ⟨h.1, h.2 hphase⟩

/-! ## Changes that leave the transaction and the states as they are -/

/-- A terminal that keeps its state and its outstanding number, and comes to have nothing more in flight. -/
structure TermGoesOn (a b : Terminal) : Prop where
  state : b.state = a.state
  outstanding : b.outstanding = a.outstanding
  still : NothingInFlight a → NothingInFlight b

namespace TermGoesOn

variable {a b c : Terminal}

theorem refl (a : Terminal) : TermGoesOn a a := ⟨rfl, rfl, id⟩

theorem trans (h : TermGoesOn a b) (h' : TermGoesOn b c) : TermGoesOn a c :=
  ⟨h'.state.trans h.state, h'.outstanding.trans h.outstanding, h'.still ∘ h.still⟩

/-- Rows that come to have nothing more in flight. -/
theorem of_rows {f : Row → Row} (h : ∀ r, r.inFlight = 0 → (f r).inFlight = 0) (a : Terminal) :
    TermGoesOn a (mapRows f a) := by
  refine ⟨rfl, rfl, fun ⟨hrows, hstatus⟩ => ⟨fun i => ?_, hstatus⟩⟩
  have hrow : (mapRows f a).rows[i] = f a.rows[i] := Vector.getElem_map ..
  rw [hrow]
  exact h _ (hrows i)

theorem rests (h : TermGoesOn a b) (ha : TermRests a) : TermRests b :=
  ⟨by rw [h.state, h.outstanding]; exact ha.recovers, fun hb => h.still (ha.still (h.outstanding.symm.trans hb))⟩

theorem served {kind : PrimaryKind} (h : TermGoesOn a b) (ha : TermServed kind a) : TermServed kind b := by
  refine ⟨?_, fun hb => ha.holds ?_, fun hb => h.still (ha.still (h.outstanding.symm.trans hb))⟩
  · have hfits := ha.fits
    cases kind
    all_goals
      simp only [KindFits, h.state, h.outstanding] at hfits ⊢
      exact hfits
  · rw [← h.outstanding]
    exact hb

end TermGoesOn

/-- A line whose terminals go on, in the transaction that it was in. -/
structure LineGoesOn (l l' : TerminalLine) : Prop where
  terms : ∀ x : TermId, TermGoesOn l.terminals[x] l'.terminals[x]
  serves : servedBy l' = servedBy l

namespace LineGoesOn

variable {l l' l'' : TerminalLine}

theorem refl (l : TerminalLine) : LineGoesOn l l := ⟨fun _ => .refl _, rfl⟩

theorem of_eq (h : l' = l) : LineGoesOn l l' := h ▸ refl l

theorem trans (h : LineGoesOn l l') (h' : LineGoesOn l' l'') : LineGoesOn l l'' :=
  ⟨fun x => (h.terms x).trans (h'.terms x), h'.serves.trans h.serves⟩

/-- The same, from a line equal to the first. -/
theorem after (he : l' = l) (h : LineGoesOn l' l'') : LineGoesOn l l'' := he ▸ h

theorem one (h : LineGoesOn l l') (hl : OneHolds l) : OneHolds l' := by
  intro x y hx hy
  rw [(h.terms x).outstanding] at hx
  rw [(h.terms y).outstanding] at hy
  exact hl x y hx hy

theorem rests (h : LineGoesOn l l') (hl : LineRests l) : LineRests l' :=
  ⟨h.one hl.one, fun x => (h.terms x).rests (hl.rests x)⟩

theorem sound (h : LineGoesOn l l') (hl : LineSound l) : LineSound l' := by
  refine ⟨h.one hl.one, fun x hx => ?_, fun x kind hkind => ?_⟩
  · exact (h.terms x).rests (hl.rests x fun kind => h.serves ▸ hx kind)
  · exact (h.terms x).served (hl.served x kind (h.serves ▸ hkind))

/-- Every terminal changed alike. -/
theorem map {f : Terminal → Terminal} (h : ∀ t, TermGoesOn t (f t)) (l : TerminalLine) :
    LineGoesOn l { l with terminals := l.terminals.map f } := by
  refine ⟨fun x => ?_, rfl⟩
  have hx : (l.terminals.map f)[x] = f l.terminals[x] := Vector.getElem_map ..
  rw [hx]
  exact h _

/-- Every row changed alike. -/
theorem rows {f : Row → Row} (h : ∀ r, r.inFlight = 0 → (f r).inFlight = 0) (l : TerminalLine) :
    LineGoesOn l { l with terminals := l.terminals.map (mapRows f) } := map (.of_rows h) l

/-- One terminal replaced. -/
theorem setTerm {x : TermId} {term : Terminal} {s : State} (h : TermGoesOn s.line.terminals[x] term) :
    LineGoesOn s.line (s.setTerm x term).line := by
  refine ⟨fun y => ?_, rfl⟩
  by_cases hy : y = x
  · rw [hy, setTerm_same]
    exact h
  · rw [setTerm_other hy]
    exact .refl _

end LineGoesOn

theorem lineWithStatus_goesOn (l : TerminalLine) : LineGoesOn l (lineWithStatus l) := by
  refine .map (fun t => ?_) l
  split
  · exact ⟨rfl, rfl, id⟩
  · exact .refl t

theorem lineWithNames_goesOn (n : Nat) (names : NameSet) (l : TerminalLine) : LineGoesOn l (lineWithNames n names l) := by
  refine .rows (fun r hr => ?_) l
  split
  · exact hr
  · exact hr

theorem lineWithDeletion_goesOn (n : Nat) (l : TerminalLine) : LineGoesOn l (lineWithDeletion n l) := by
  refine .rows (fun r hr => ?_) l
  split
  · rfl
  · exact hr

end Sys2Proof.Machine

namespace Sys2Proof.Machine

open Sys2Proof.Safety

/-! ## A selection and the law (R138, R139) -/

/-- The terminal selected is alone in holding an outstanding number, where any does. -/
theorem nextTerminal_alone {l : TerminalLine} (h : OneHolds l) {x : TermId} (hx : nextTerminal l = some x) :
    ∀ y, y ≠ x → (l.terminals[y]).outstanding = none := by
  intro y hy
  simp only [nextTerminal] at hx
  split at hx
  · next t ht =>
    obtain rfl := Option.some.inj hx
    have hholds := List.find?_some ht
    exact Option.not_isSome_iff_eq_none.mp fun hsome => hy (h y t hsome hholds)
  · next hnone =>
    have hall := List.find?_eq_none.mp hnone y (List.mem_finRange y)
    exact Option.not_isSome_iff_eq_none.mp hall

theorem setTerm_self (x : TermId) (s : State) : s.setTerm x s.line.terminals[x] = s := by
  simp [State.setTerm, State.setLine]

/-- A transaction begun with a terminal that its frame fits, and that alone may hold an outstanding number. -/
theorem sound_beginTransaction {x : TermId} {kind : PrimaryKind} {term : Terminal} {s : State} (body : List Byte)
    (h : ∀ y, y ≠ x → TermRests s.line.terminals[y]) (halone : ∀ y, y ≠ x → (s.line.terminals[y]).outstanding = none)
    (hserved : TermServed kind term) : LineSound (beginTransaction x kind body (s.setTerm x term)).line := by
  have hserves : servedBy (beginTransaction x kind body (s.setTerm x term)).line = some (x, kind) := rfl
  have hother (y : TermId) (hy : y ≠ x) : (beginTransaction x kind body (s.setTerm x term)).line.terminals[y]
      = s.line.terminals[y] := setTerm_other hy term s
  have hholder (y : TermId)
      (hy : ((beginTransaction x kind body (s.setTerm x term)).line.terminals[y]).outstanding.isSome = true) : y = x := by
    by_contra hne
    rw [hother y hne, halone y hne] at hy
    cases hy
  refine ⟨fun y z hy hz => (hholder y hy).trans (hholder z hz).symm, fun y hy => ?_, fun y kind' hkind => ?_⟩
  · have hne : y ≠ x := fun heq => hy kind (heq ▸ hserves)
    rw [hother y hne]
    exact h y hne
  · obtain ⟨rfl, rfl⟩ := Prod.mk.inj (Option.some.inj (hserves.symm.trans hkind))
    have hsame : (beginTransaction x kind body (s.setTerm x term)).line.terminals[x] = term := setTerm_same x term s
    rw [hsame]
    exact hserved

theorem outstanding_none_of_rests {term : Terminal} (h : TermRests term) (hstate : term.state ≠ .recovery) :
    term.outstanding = none :=
  Option.not_isSome_iff_eq_none.mp fun hholds => hstate (h.recovers.mpr hholds)

/-- A terminal at rest, sent a frame that its state calls for, other than an UPDATE. -/
theorem TermRests.served {term : Terminal} (h : TermRests term) {kind : PrimaryKind} (hfits : KindFits kind term)
    (hholds : term.state = .recovery → kind = .enquiry) : TermServed kind term :=
  ⟨hfits, fun hsome => .inr (hholds (h.recovers.mpr hsome)), h.still⟩

/-- Table 8-1: the selected terminal is sent the frame that its state calls for. -/
theorem sound_serve {x : TermId} {s : State} (h : LineRests s.line) (hfree : s.line.transaction = none)
    (halone : ∀ y, y ≠ x → (s.line.terminals[y]).outstanding = none) : LineSound (serve x s).line := by
  have hx := h.rests x
  have hothers (y : TermId) (_ : y ≠ x) := h.rests y
  have hself := setTerm_self x s
  rw [serve]
  split
  · exact ⟨h.one, fun y _ => h.rests y, fun y kind hkind => by simp [servedBy, hfree] at hkind⟩
  · next hstate =>
    have hgoes : TermGoesOn s.line.terminals[x] { s.line.terminals[x] with probeDue := false } := ⟨rfl, rfl, id⟩
    exact sound_beginTransaction [] hothers halone (hgoes.served (hx.served hstate fun hr => absurd (hstate.symm.trans hr) nofun))
  · next hstate =>
    rw [← hself]
    exact sound_beginTransaction _ hothers halone (hx.served hstate fun hr => absurd (hstate.symm.trans hr) nofun)
  · next hstate =>
    split
    · exact sound_beginTransaction _ hothers halone ⟨⟨hstate, rfl⟩, fun _ => .inl rfl, nofun⟩
    · rw [← hself]
      have hnone := outstanding_none_of_rests hx (by rw [hstate]; nofun)
      exact sound_beginTransaction _ hothers halone
        (hx.served ⟨hstate, hnone⟩ fun hr => absurd (hstate.symm.trans hr) nofun)
  · next hstate =>
    rw [← hself]
    exact sound_beginTransaction _ hothers halone (hx.served ⟨hstate, hx.recovers.mp hstate⟩ fun _ => rfl)

/-- A free line is sound exactly when its terminals are at rest. -/
theorem lineSound_free {l : TerminalLine} (h : l.transaction = none) : LineSound l ↔ LineRests l := by
  have hnone : servedBy l = none := by rw [servedBy, h]; rfl
  refine ⟨fun hl => ⟨hl.one, fun x => hl.rests x fun kind => by rw [hnone]; nofun⟩,
    fun hl => ⟨hl.one, fun x _ => hl.rests x, fun x kind hkind => ?_⟩⟩
  rw [hnone] at hkind
  cases hkind

theorem sound_select {s : State} (h : LineSound s.line) : LineSound (select s).line := by
  rw [select]
  split
  · next hfree =>
    rw [Bool.and_eq_true, Option.isNone_iff_eq_none] at hfree
    split
    · next x hx =>
      exact sound_serve ((lineSound_free hfree.1).mp h) hfree.1 (nextTerminal_alone h.one hx)
    · exact h
  · exact h

/-! ## One terminal put to rest -/

/-- One terminal put to rest, with no outstanding number that it did not hold, in a line whose other terminals rest. -/
theorem rests_setTerm {x : TermId} {term : Terminal} {s : State} (hone : OneHolds s.line)
    (hothers : ∀ y, y ≠ x → TermRests s.line.terminals[y]) (hterm : TermRests term)
    (hholds : term.outstanding.isSome = true → (s.line.terminals[x]).outstanding.isSome = true) :
    LineRests (s.setTerm x term).line := by
  have hbefore (y : TermId) (hy : ((s.setTerm x term).line.terminals[y]).outstanding.isSome = true) :
      (s.line.terminals[y]).outstanding.isSome = true := by
    by_cases hyx : y = x
    · subst hyx
      rw [setTerm_same] at hy
      exact hholds hy
    · rw [setTerm_other hyx] at hy
      exact hy
  refine ⟨fun y z hy hz => hone y z (hbefore y hy) (hbefore z hz), fun y => ?_⟩
  by_cases hyx : y = x
  · subst hyx
    rw [setTerm_same]
    exact hterm
  · rw [setTerm_other hyx]
    exact hothers y hyx

/-- A terminal that no transaction serves, put to rest without an outstanding number. -/
theorem sound_setTerm {x : TermId} {term : Terminal} {s : State} (h : LineSound s.line)
    (hserved : ∀ kind, servedBy s.line ≠ some (x, kind)) (hterm : TermRests term) (hnone : term.outstanding = none) :
    LineSound (s.setTerm x term).line := by
  refine ⟨fun y z hy hz => ?_, fun y hy => ?_, fun y kind hkind => ?_⟩
  · have hne (w : TermId) (hw : ((s.setTerm x term).line.terminals[w]).outstanding.isSome = true) : w ≠ x := by
      rintro rfl
      rw [setTerm_same, hnone] at hw
      cases hw
    rw [setTerm_other (hne y hy)] at hy
    rw [setTerm_other (hne z hz)] at hz
    exact h.one y z hy hz
  · by_cases hyx : y = x
    · subst hyx
      rw [setTerm_same]
      exact hterm
    · rw [setTerm_other hyx]
      exact h.rests y hy
  · have hyx : y ≠ x := fun heq => hserved kind (heq ▸ hkind)
    rw [setTerm_other hyx]
    exact h.served y kind hkind

/-- A terminal whose sets are cleared has nothing in flight. -/
theorem clearSets_still (term : Terminal) : NothingInFlight (clearSets term) := by
  refine ⟨fun i => ?_, rfl⟩
  have hrow : (clearSets term).rows[i] = { term.rows[i] with pending := 0, inFlight := 0 } := Vector.getElem_map ..
  rw [hrow]

theorem disabledTerm_rests (term : Terminal) : TermRests (disabledTerm term) :=
  ⟨⟨nofun, nofun⟩, fun _ => clearSets_still term⟩

theorem resetTerm_rests (term : Terminal) : TermRests (resetTerm term) :=
  ⟨⟨nofun, nofun⟩, fun _ => clearSets_still term⟩

theorem not_served_of_inTransaction {x : TermId} {s : State} (h : inTransaction s x = false) (kind : PrimaryKind) :
    servedBy s.line ≠ some (x, kind) := by
  intro hkind
  obtain ⟨tx, htx, rfl, -⟩ := servedBy_eq_some.mp hkind
  simp [inTransaction, htx] at h

/-- R152: a TERMINAL RESET waits, or acts at once. -/
theorem sound_terminalResetAt {x : TermId} {s : State} (h : LineSound s.line) : LineSound (terminalResetAt x s).line := by
  by_cases hstate : (s.line.terminals[x]).state = .disabled
  · rw [terminalResetAt_disabled hstate]
    exact h
  · cases htx : inTransaction s x with
    | true =>
      rw [terminalResetAt_waits hstate htx]
      refine LineGoesOn.sound (.setTerm ?_) h
      exact ⟨rfl, rfl, id⟩
    | false =>
      rw [terminalResetAt_resets hstate htx]
      exact sound_select (sound_setTerm h (not_served_of_inTransaction htx) (resetTerm_rests _) rfl)

/-- No frame is sent to a DISABLED terminal (Table 8-1). -/
theorem kindFits_ne_disabled {kind : PrimaryKind} {term : Terminal} (h : KindFits kind term) :
    term.state ≠ .disabled := by
  intro hstate
  cases kind <;> simp [KindFits, hstate] at h

/-- R151: the enabled flag of a terminal replaced. -/
theorem sound_setEnabled {x : TermId} {enabled : Bool} {s : State} (h : LineSound s.line) :
    LineSound (setEnabled x enabled s).line := by
  have hflag : LineSound (s.setTerm x { s.line.terminals[x] with enabled := enabled }).line := by
    refine LineGoesOn.sound (.setTerm ?_) h
    exact ⟨rfl, rfl, id⟩
  simp only [setEnabled]
  split
  · exact hflag
  · split
    · split
      · next hstate =>
        have hserved (kind : PrimaryKind) : servedBy s.line ≠ some (x, kind) :=
          fun hkind => kindFits_ne_disabled (h.served x kind hkind).fits hstate
        have hrests := h.rests x hserved
        have hnone := outstanding_none_of_rests hrests (by rw [hstate]; nofun)
        exact sound_select (sound_setTerm h hserved ⟨⟨nofun, nofun⟩, fun _ => hrests.still hnone⟩ rfl)
      · exact hflag
    · split
      · exact hflag
      · next htx =>
        exact sound_setTerm h (not_served_of_inTransaction (Bool.eq_false_iff.mpr htx)) (disabledTerm_rests _) rfl

/-! ## Requests (R149, R162, R163) -/

theorem changeWatch_line (f : Nat → Nat) (n : Nat) (s : State) : (changeWatch f n s).line = s.line := by
  rw [changeWatch_frame]

theorem lowerWatch_line (record : Option Nat) (s : State) : (lowerWatch record s).line = s.line := by
  cases record with
  | none => rfl
  | some n => exact changeWatch_line _ n s

theorem raiseWatch_line (record : Option Nat) (s : State) : (raiseWatch record s).line = s.line := by
  cases record with
  | none => rfl
  | some n => exact changeWatch_line _ n s

/-- The row that an item makes (R155). -/
def rowOfItem : Option Nat → Row
  | some n => namedRow n
  | none => clearedRow

/-- A row changed: the row, and then the watch counts of what it held and of what it holds (R156). -/
theorem changeRow_eq (x : TermId) (i : Fin 16) (item : Option Nat) (s : State) : changeRow x i item s
    = raiseWatch item (lowerWatch ((s.line.terminals[x]).rows[i]).record (s.setTerm x { s.line.terminals[x] with
      rows := (s.line.terminals[x]).rows.set i (rowOfItem item) })) := by
  cases item <;> rfl

/-- A row changed, at the terminal line. -/
theorem changeRow_line (x : TermId) (i : Fin 16) (item : Option Nat) (s : State) :
    (changeRow x i item s).line = (s.setTerm x { s.line.terminals[x] with
      rows := (s.line.terminals[x]).rows.set i (rowOfItem item) }).line := by
  rw [changeRow_eq, raiseWatch_line, lowerWatch_line]

theorem rowOfItem_still (item : Option Nat) : (rowOfItem item).inFlight = 0 := by cases item <;> rfl

theorem changeRow_goesOn (x : TermId) (i : Fin 16) (item : Option Nat) (s : State) :
    LineGoesOn s.line (changeRow x i item s).line := by
  rw [changeRow_line]
  refine .setTerm ⟨rfl, rfl, fun ⟨hrows, hstatus⟩ => ⟨fun j => ?_, hstatus⟩⟩
  simp only [Fin.getElem_fin, Vector.getElem_set]
  split
  · exact rowOfItem_still item
  · exact hrows j

theorem placeResult_goesOn (x : TermId) (code : ResultCode) (row : Byte) (s : State) :
    LineGoesOn s.line (placeResult x code row s).line := .setTerm ⟨rfl, rfl, id⟩

/-- A request taken up: a row changed, and the result placed. -/
theorem taken_goesOn (x : TermId) (i : Fin 16) (item : Option Nat) (row : Byte) (s : State) :
    LineGoesOn s.line (placeResult x .accepted row (changeRow x i item s)).line :=
  (changeRow_goesOn x i item s).trans (placeResult_goesOn ..)

theorem applyAdd_goesOn (x : TermId) (row : Nat) (symbol : SymbolCode) (s : State) :
    LineGoesOn s.line (applyAdd x row symbol s).line := by
  simp only [applyAdd]
  split
  next locked => exact placeResult_goesOn ..
  next unlocked =>
    split
    next unknown => exact placeResult_goesOn ..
    next n known =>
      split
      next i named => exact placeResult_goesOn ..
      next unnamed =>
        split
        next full => exact placeResult_goesOn ..
        next i free => exact taken_goesOn ..

theorem applyDrop_goesOn (x : TermId) (row : Byte) (s : State) : LineGoesOn s.line (applyDrop x row s).line := by
  simp only [applyDrop]
  split
  next locked => exact placeResult_goesOn ..
  next unlocked =>
    split
    next badRow => exact placeResult_goesOn ..
    next i known =>
      split
      next empty => exact placeResult_goesOn ..
      next holds => exact taken_goesOn ..

theorem applyRequest_goesOn (x : TermId) (request : Option Request) (s : State) :
    LineGoesOn s.line (applyRequest x request s).line :=
  match request with
  | none => .refl _
  | some (.add row symbol) => applyAdd_goesOn x row symbol s
  | some (.drop row) => applyDrop_goesOn x row s

/-! ## The end of a transaction (R137 to R148) -/

/-- A terminal x put to rest at the end of its transaction, and then a line that goes on. -/
def EndsAtRest (x : TermId) (s t : State) : Prop :=
  ∃ term, TermRests term ∧ (term.outstanding.isSome = true → (s.line.terminals[x]).outstanding.isSome = true)
    ∧ LineGoesOn (s.setTerm x term).line t.line

theorem EndsAtRest.rests {x : TermId} {kind : PrimaryKind} {s t : State} (h : EndsAtRest x s t) (hs : LineSound s.line)
    (hserved : servedBy s.line = some (x, kind)) : LineRests t.line := by
  obtain ⟨term, hterm, hholds, hgoes⟩ := h
  refine hgoes.rests (rests_setTerm hs.one (fun y hy => hs.rests y fun kind' hkind => hy ?_) hterm hholds)
  exact (Prod.mk.inj (Option.some.inj (hkind.symm.trans hserved))).1

/-- A terminal that rests as it is. -/
theorem EndsAtRest.same {x : TermId} {s : State} (h : TermRests s.line.terminals[x]) : EndsAtRest x s s :=
  ⟨_, h, id, .of_eq (by rw [setTerm_self])⟩

/-- The terminal replaced, and no more. -/
theorem EndsAtRest.setTerm {x : TermId} {term : Terminal} {s : State} (hterm : TermRests term)
    (hholds : term.outstanding.isSome = true → (s.line.terminals[x]).outstanding.isSome = true) :
    EndsAtRest x s (s.setTerm x term) := ⟨term, hterm, hholds, .refl _⟩

/-- The terminal replaced, and its request handed on. -/
theorem EndsAtRest.request {x : TermId} {term : Terminal} {s : State} (request : Option Request) (hterm : TermRests term)
    (hholds : term.outstanding.isSome = true → (s.line.terminals[x]).outstanding.isSome = true) :
    EndsAtRest x s (applyRequest x request (s.setTerm x term)) :=
  ⟨term, hterm, hholds, applyRequest_goesOn x request _⟩

theorem setTerm_setTerm (x : TermId) (a b : Terminal) (s : State) : (s.setTerm x a).setTerm x b = s.setTerm x b := by
  simp [State.setTerm, State.setLine]

/-- R148: a miss, as the statements tell it. -/
theorem miss_eq (x : TermId) (after : TermState) (s : State) : miss x after s = missed x after s := by
  by_cases h : (s.line.terminals[x]).misses + 1 < 3
  · exact (if_neg (Nat.not_le.mpr h)).trans (if_pos h).symm
  · refine (if_pos (Nat.not_lt.mp h)).trans (Eq.trans ?_ (if_neg h).symm)
    rw [loseTerminal, setTerm_setTerm, setTerm_same]
    rfl

/-- A terminal as its loss leaves it, with its probe timer started. -/
def lostTerm (probe : Timer) (term : Terminal) : Terminal :=
  { withoutSets term with
    state := .absent, misses := 0, outstanding := none, probeDue := false, probeTimer := probe }

theorem withoutSets_still (term : Terminal) : NothingInFlight (withoutSets term) := clearSets_still term

/-- R148: a miss leaves the terminal in a state that fits its outstanding number, or loses it. -/
theorem endsAtRest_miss {x : TermId} {after : TermState} {s : State}
    (hafter : after = .recovery ↔ (s.line.terminals[x]).outstanding.isSome = true)
    (hstill : (s.line.terminals[x]).outstanding = none → NothingInFlight s.line.terminals[x]) :
    EndsAtRest x s (miss x after s) := by
  rw [miss_eq]
  simp only [missed]
  split
  · exact .setTerm ⟨hafter, hstill⟩ id
  · exact ⟨lostTerm (some (param s 17 * 1000)) s.line.terminals[x], ⟨⟨nofun, nofun⟩, fun _ => withoutSets_still _⟩, nofun,
      .of_eq rfl⟩

/-- An UPDATE accepted or not leaves nothing in flight (R161). -/
theorem settleAccepted_still (term : Terminal) : NothingInFlight (settleAccepted term) := by
  refine ⟨fun i => ?_, rfl⟩
  have hrow : (settleAccepted term).rows[i] = { term.rows[i] with inFlight := 0 } := Vector.getElem_map ..
  rw [hrow]

theorem settleRefused_still (term : Terminal) : NothingInFlight (settleRefused term) := by
  refine ⟨fun i => ?_, rfl⟩
  have hrow : (settleRefused term).rows[i]
      = { term.rows[i] with pending := (term.rows[i]).pending ||| (term.rows[i]).inFlight, inFlight := 0 } :=
    Vector.getElem_map ..
  rw [hrow]

theorem activateRows_still (term : Terminal) : NothingInFlight (activateRows term) := by
  refine ⟨fun i => ?_, rfl⟩
  have hrow : (activateRows term).rows[i] = activatedRow term.rows[i] := Vector.getElem_map ..
  rw [hrow]
  rfl

/-- A terminal that keeps its outstanding number absent, in a state that is not RECOVERY. -/
theorem TermServed.rests {kind : PrimaryKind} {term term' : Terminal} (h : TermServed kind term)
    (hnone : term.outstanding = none) (hgoes : term'.outstanding = none) (hstate : term'.state ≠ .recovery)
    (hstill : NothingInFlight term → NothingInFlight term') : TermRests term' :=
  ⟨⟨fun hr => absurd hr hstate, fun hsome => by rw [hgoes] at hsome; cases hsome⟩, fun _ => hstill (h.still hnone)⟩

/-- No outstanding number while the frame in flight is neither UPDATE nor ENQUIRY. -/
theorem TermServed.none {kind : PrimaryKind} {term : Terminal} (h : TermServed kind term) (hu : kind ≠ .update)
    (he : kind ≠ .enquiry) : term.outstanding = .none :=
  Option.not_isSome_iff_eq_none.mp fun hsome => (h.holds hsome).elim hu he

section
variable {x : TermId} {s : State}

theorem endsAtRest_activate (h : TermServed .activate s.line.terminals[x]) (o : LineOutcome) :
    EndsAtRest x s (activateOutcome x o s) := by
  have hnone := h.none nofun nofun
  have hfits : (s.line.terminals[x]).state = .absent := h.fits
  simp only [activateOutcome]
  split
  · exact .setTerm (h.rests hnone rfl nofun id) nofun
  · exact .setTerm (h.rests hnone hnone (fun hr => absurd (hfits.symm.trans hr) nofun) id) id

/-- R148 of a terminal that holds no outstanding number. -/
theorem endsAtRest_miss_of_none {kind : PrimaryKind} {after : TermState} (h : TermServed kind s.line.terminals[x])
    (hnone : (s.line.terminals[x]).outstanding = none) (hafter : after ≠ .recovery) :
    EndsAtRest x s (miss x after s) :=
  endsAtRest_miss ⟨fun hr => absurd hr hafter, fun hsome => by rw [hnone] at hsome; cases hsome⟩ h.still

theorem endsAtRest_screenInit (h : TermServed .screenInit s.line.terminals[x]) (o : LineOutcome) :
    EndsAtRest x s (screenInitOutcome x o s) := by
  have hnone := h.none nofun nofun
  have hfits : (s.line.terminals[x]).state = .activating := h.fits
  have hmiss : EndsAtRest x s (miss x .activating s) := endsAtRest_miss_of_none h hnone nofun
  simp only [screenInitOutcome]
  split
  · split
    · exact .request _ (h.rests hnone hnone nofun fun _ => activateRows_still _) id
    · exact hmiss
  · exact .same (h.rests hnone hnone (fun hr => absurd (hfits.symm.trans hr) nofun) id)
  all_goals exact hmiss

theorem endsAtRest_poll (h : TermServed .poll s.line.terminals[x]) (o : LineOutcome) :
    EndsAtRest x s (pollOutcome x o s) := by
  obtain ⟨hfits, hnone⟩ := h.fits
  have hstate : (s.line.terminals[x]).state ≠ .recovery := fun hr => absurd (hfits.symm.trans hr) nofun
  have hmiss : EndsAtRest x s (miss x .active s) := endsAtRest_miss_of_none h hnone nofun
  simp only [pollOutcome]
  split
  · exact .request _ (h.rests hnone hnone hstate id) id
  · exact .same (h.rests hnone hnone hstate id)
  all_goals exact hmiss

/-- R148 of a terminal that holds an outstanding number. -/
theorem endsAtRest_miss_of_some (hsome : (s.line.terminals[x]).outstanding.isSome = true) :
    EndsAtRest x s (miss x .recovery s) :=
  endsAtRest_miss ⟨fun _ => hsome, fun _ => rfl⟩ fun hnone => by rw [hnone] at hsome; cases hsome

theorem endsAtRest_update (h : TermServed .update s.line.terminals[x]) (o : LineOutcome) :
    EndsAtRest x s (updateOutcome x o s) := by
  obtain ⟨hfits, hsome⟩ := h.fits
  have hstate : (s.line.terminals[x]).state ≠ .recovery := fun hr => absurd (hfits.symm.trans hr) nofun
  have hmiss : EndsAtRest x s (miss x .recovery s) := endsAtRest_miss_of_some hsome
  simp only [updateOutcome]
  split
  · split
    · exact .request _ ⟨⟨fun hr => absurd hr hstate, nofun⟩, fun _ => settleAccepted_still _⟩ nofun
    · exact .setTerm ⟨⟨fun _ => hsome, fun _ => rfl⟩, h.still⟩ id
  · exact .setTerm ⟨⟨fun hr => absurd hr hstate, nofun⟩, fun _ => settleRefused_still _⟩ nofun
  all_goals exact hmiss

theorem endsAtRest_enquiry (h : TermServed .enquiry s.line.terminals[x]) (o : LineOutcome) :
    EndsAtRest x s (enquiryOutcome x o s) := by
  have hmiss : EndsAtRest x s (miss x .recovery s) := endsAtRest_miss_of_some h.fits.2
  simp only [enquiryOutcome]
  split
  · split
    · exact .setTerm ⟨⟨nofun, nofun⟩, fun _ => settleAccepted_still _⟩ nofun
    · exact .setTerm ⟨⟨nofun, nofun⟩, fun _ => settleRefused_still _⟩ nofun
  all_goals exact hmiss

/-- Every outcome of a transaction puts its terminal to rest. -/
theorem endsAtRest_applyOutcome {kind : PrimaryKind} (h : TermServed kind s.line.terminals[x]) (o : LineOutcome) :
    EndsAtRest x s (applyOutcome kind x o s) := by
  cases kind with
  | activate => exact endsAtRest_activate h o
  | screenInit => exact endsAtRest_screenInit h o
  | poll => exact endsAtRest_poll h o
  | update => exact endsAtRest_update h o
  | enquiry => exact endsAtRest_enquiry h o

end

theorem rests_applyWaiting {x : TermId} {s : State} (h : LineRests s.line) : LineRests (applyWaiting x s).line := by
  have hothers (y : TermId) (_ : y ≠ x) := h.rests y
  simp only [applyWaiting]
  split
  · exact rests_setTerm h.one hothers (disabledTerm_rests _) nofun
  · split
    · exact rests_setTerm h.one hothers (resetTerm_rests _) nofun
    · exact h

theorem sound_freeLine {s : State} (h : LineRests s.line) : LineSound (freeLine s).line := by
  have hfree : LineSound (s.setLine { s.line with transaction := none }).line := (lineSound_free rfl).mpr ⟨h.one, h.rests⟩
  rw [freeLine]
  split
  · exact ⟨hfree.one, hfree.rests, hfree.served⟩
  · exact sound_select hfree

theorem sound_endTransaction {s : State} (o : LineOutcome) (h : LineSound s.line) :
    LineSound (endTransaction o s).line := by
  rw [endTransaction]
  split
  · exact h
  · next tx htx =>
    have hserved := servedBy_of_transaction htx
    have hends := endsAtRest_applyOutcome (h.served _ _ hserved) o
    exact sound_freeLine (rests_applyWaiting (hends.rests h hserved))

/-- The transaction in flight with its progress changed: its frame and its reception, not its terminal or its kind. -/
theorem LineGoesOn.progress {l : TerminalLine} {tx tx' : Transaction} (h : l.transaction = some tx)
    (hterm : tx'.terminal = tx.terminal) (hkind : tx'.kind = tx.kind) :
    LineGoesOn l { l with transaction := some tx' } := by
  refine ⟨fun _ => .refl _, ?_⟩
  rw [servedBy_of_transaction h, servedBy_of_transaction (tx := tx') rfl, hterm, hkind]

theorem frameSent_goesOn (s : State) : LineGoesOn s.line (frameSent s).line := by
  rw [frameSent]
  split
  · next tx htx =>
    split
    · exact .progress htx rfl rfl
    · exact .refl _
  · exact .refl _

theorem sound_takeCharacter {s : State} (b : Byte) (h : LineSound s.line) : LineSound (takeCharacter b s).line := by
  simp only [takeCharacter]
  split
  · exact h
  · next tx htx =>
    split
    · exact h
    · split
      · exact h
      · have htaken : LineSound { s.line with transaction := some { tx with
            received := tx.received ++ [b], timeout := startTimer tx.responseTicks } } := by
          refine LineGoesOn.sound (.progress htx ?_ ?_) h
          · rfl
          · rfl
        split
        · exact sound_endTransaction _ htaken
        · split
          · exact sound_endTransaction _ htaken
          · exact htaken

theorem sound_responseExpire {s : State} (h : LineSound s.line) : LineSound (responseExpire s).line := by
  rw [responseExpire]
  split
  · split
    · exact sound_endTransaction _ h
    · exact h
  · exact h

theorem sound_probeExpire {x : TermId} {s : State} (h : LineSound s.line) : LineSound (probeExpire x s).line := by
  simp only [probeExpire]
  split
  · refine sound_select (LineGoesOn.sound (.setTerm ?_) h)
    exact ⟨rfl, rfl, id⟩
  · exact h

/-- The night poll gap is no matter of the law. -/
theorem LineGoesOn.gap (l : TerminalLine) (gap : Timer) : LineGoesOn l { l with gap := gap } :=
  ⟨fun _ => .refl _, rfl⟩

theorem sound_gapExpire {s : State} (h : LineSound s.line) : LineSound (gapExpire s).line := by
  rw [gapExpire]
  split
  · exact sound_select ((LineGoesOn.gap s.line none).sound h)
  · exact h

theorem sound_lineSession {s : State} (old : SessionState) (h : LineSound s.line) :
    LineSound (lineSession old s).line := by
  have hstatus : LineSound (statusLinesPending s).line := (lineWithStatus_goesOn s.line).sound h
  simp only [lineSession]
  split
  · exact sound_select ((LineGoesOn.gap _ none).sound hstatus)
  · exact hstatus

end Sys2Proof.Machine

namespace Sys2Proof.Machine

open Sys2Proof.Safety

/-! ## Operations that leave the terminal line as it is -/

section
variable (s : State)

@[simp] theorem raiseAlert_line (a : Alert) : (raiseAlert a s).line = s.line := rfl

@[simp] theorem replyTo_line (body answer : List Byte) : (replyTo body answer s).line = s.line := by
  rw [replyTo_frame]

@[simp] theorem loadEnds_line (body answer : List Byte) : (loadEnds body answer s).line = s.line := by
  rw [loadEnds_frame]

@[simp] theorem shiftComplete_line (c : ChainId) (returned : List Byte) : (shiftComplete c returned s).line = s.line := by
  rw [shiftComplete_frame]

@[simp] theorem refreshStart_line (c : ChainId) : (refreshStart c s).line = s.line := by
  rw [refreshStart_frame]

@[simp] theorem wakeChain_line (c : ChainId) : (wakeChain c s).line = s.line := by
  rw [wakeChain_frame]

@[simp] theorem wakeChains_line : (wakeChains s).line = s.line := by
  rw [wakeChains_frame]

@[simp] theorem markSlots_line (pick : Slot → Bool) (f : Slot → Slot) : (markSlots pick f s).line = s.line := by
  rw [markSlots_frame]

@[simp] theorem markStatus_line : (markStatus s).line = s.line := markSlots_line s _ _

@[simp] theorem markClocks_line : (markClocks s).line = s.line := markSlots_line s _ _

@[simp] theorem markMessages_line (k : StackId) : (markMessages k s).line = s.line := markSlots_line s _ _

@[simp] theorem markAllSlots_line : (markAllSlots s).line = s.line := markSlots_line s _ _

@[simp] theorem offerText_line (atHead : Bool) (text : List Byte) : (offerText atHead text s).line = s.line := by
  rw [offerText_frame]

@[simp] theorem offerPrint_line (p : Print) : (offerPrint p s).line = s.line := by
  rw [offerPrint_frame]

@[simp] theorem countOmitted_line (n : Nat) : (countOmitted n s).line = s.line := by
  simp only [countOmitted]
  split <;> rfl

@[simp] theorem chainResetAt_line (c : ChainId) : (chainResetAt c s).line = s.line := by
  simp only [chainResetAt, chainResetAtRest]
  repeat' split
  all_goals simp

@[simp] theorem settleExpire_line (c : ChainId) : (settleExpire c s).line = s.line := by
  simp only [settleExpire, settleComplete]
  repeat' split
  all_goals simp

@[simp] theorem keepaliveExpire_line (c : ChainId) : (keepaliveExpire c s).line = s.line := by
  simp only [keepaliveExpire]
  split <;> simp

@[simp] theorem senseChange_line (c : ChainId) (present : Bool) : (senseChange c present s).line = s.line := by
  simp only [senseChange]
  repeat' split
  all_goals simp

@[simp] theorem halfPeriodExpire_line : (halfPeriodExpire s).line = s.line := by
  simp only [halfPeriodExpire]
  split <;> rfl

@[simp] theorem flashExpire_line (n : Nat) : (flashExpire n s).line = s.line := by
  simp only [flashExpire]
  repeat' split
  all_goals simp

@[simp] theorem snapshotAfterLoad_line (s₀ u : State) (c : ChainId) : (snapshotAfterLoad s₀ u c s).line = s.line := by
  simp only [snapshotAfterLoad]
  split <;> rfl

@[simp] theorem resyncFormer_line (n : Nat) : (resyncFormer n s).line = s.line := by
  simp only [resyncFormer]
  split <;> simp

@[simp] theorem windowLoaded_line : (windowLoaded s).line = s.line := by
  simp only [windowLoaded]
  repeat' split
  all_goals rfl

@[simp] theorem offerUncovered_line (stack : List BulletinEntry) : (offerUncovered stack s).line = s.line := by
  simp only [offerUncovered]
  repeat' split
  all_goals simp

@[simp] theorem bulletinExpire_line (k : StackId) (place : Nat) : (bulletinExpire k place s).line = s.line := by
  simp only [bulletinExpire]
  repeat' split
  all_goals simp

@[simp] theorem applyPush_line (b : BulletinItems) : (applyPush b s).line = s.line := by
  simp only [applyPush]
  split <;> simp

@[simp] theorem applyPop_line (b : BulletinItems) : (applyPop b s).line = s.line := by
  simp only [applyPop]
  split <;> simp

@[simp] theorem applyClear_line (b : BulletinItems) : (applyClear b s).line = s.line := by
  simp only [applyClear]
  split <;> simp

@[simp] theorem tickerSession_line (old new : SessionState) : (tickerSession old new s).line = s.line := by
  simp only [tickerSession]
  repeat' split
  all_goals rfl

@[simp] theorem tickerFlushAt_line : (tickerFlushAt s).line = s.line := countOmitted_line _ _

@[simp] theorem takeReturnHead_line : (takeReturnHead s).line = s.line := by
  simp only [takeReturnHead]
  split <;> rfl

@[simp] theorem returnStart_line : (returnStart s).line = s.line := by
  simp only [returnStart]
  split <;> simp

@[simp] theorem returnSent_line : (returnSent s).line = s.line := by
  simp only [returnSent]
  split <;> simp

@[simp] theorem applyRead_line (body : List Byte) : (applyRead body s).line = s.line := by
  simp only [applyRead]
  repeat' split
  all_goals simp

@[simp] theorem applyReport_line (body : List Byte) : (applyReport body s).line = s.line := by
  simp only [applyReport]
  split <;> simp

@[simp] theorem clearAlertsNamed_line (named : AlertSet) : (clearAlertsNamed named s).line = s.line := by
  rw [clearAlertsNamed_frame]

@[simp] theorem setMaskTo_line (mask : AlertSet) : (setMaskTo mask s).line = s.line := rfl

@[simp] theorem offerIntake_line (body : List Byte) : (offerIntake body s).line = s.line := by
  simp only [offerIntake]
  split <;> rfl

end

theorem sequenceChecked_line {body : List Byte} {s t : State} (h : sequenceChecked body s = some t) :
    t.line = s.line := by
  simp only [sequenceChecked] at h
  split at h
  · split at h
    · obtain rfl := Option.some.inj h
      rfl
    · obtain rfl := Option.some.inj h
      rfl
    · cases h
  · obtain rfl := Option.some.inj h
    rfl

/-! ## Operations that leave the transaction and the terminals' states -/

/-- Rows that gain names, of whatever records. -/
theorem lineWithRows_goesOn (names : NameSet) (p : Nat → Bool) (l : TerminalLine) :
    LineGoesOn l (lineWithRows (rowGains names p) l) := by
  refine .rows (fun r hr => ?_) l
  rw [rowGains]
  split
  · exact hr
  · exact hr

section
variable (s : State)

theorem statusLinesPending_goesOn : LineGoesOn s.line (statusLinesPending s).line := lineWithStatus_goesOn s.line

theorem handNames_goesOn (n : Nat) (names : NameSet) : LineGoesOn s.line (handNames n names s).line := by
  rw [handNames_frame]
  exact lineWithNames_goesOn n names s.line

theorem handDeletion_goesOn (n : Nat) : LineGoesOn s.line (handDeletion n s).line := by
  rw [handDeletion_frame]
  exact lineWithDeletion_goesOn n s.line

theorem updateRecord_goesOn (n : Nat) (r : QuoteRecord) (names : NameSet) :
    LineGoesOn s.line (updateRecord n r names s).line :=
  .after (by rfl) (handNames_goesOn _ n names)

theorem markAllStale_goesOn : LineGoesOn s.line (markAllStale s).line := by
  have hone (v : State) (n : Nat) : LineGoesOn v.line (markStale v n).line := by
    rw [markStale_line]
    exact lineWithRows_goesOn _ _ _
  have hall (ns : List Nat) : ∀ v : State, LineGoesOn v.line (ns.foldl markStale v).line := by
    induction ns with
    | nil => exact fun v => .refl _
    | cons n rest ih => exact fun v => (hone v n).trans (ih _)
  exact hall (definedNumbers s) s

theorem afterGap_goesOn (e : IntakeEntry) : LineGoesOn s.line (afterGap e s).line := by
  rw [afterGap]
  split
  · exact markAllStale_goesOn s
  · exact .refl _

theorem handLevel_goesOn : LineGoesOn s.line (handLevel s).line := by
  rw [handLevel_frame]
  exact statusLinesPending_goesOn s

theorem updateLevel_goesOn (late : Nat) : LineGoesOn s.line (updateLevel late s).line := by
  simp only [updateLevel]
  split
  · exact .refl _
  · rw [offerText_line]
    exact .after (by rfl) (handLevel_goesOn _)

theorem stopTicker_goesOn : LineGoesOn s.line (stopTicker s).line := by
  simp only [stopTicker]
  split
  · exact .refl _
  · exact .after (by rfl) (handLevel_goesOn _)

theorem tickerDayReset_goesOn : LineGoesOn s.line (tickerDayReset s).line := by
  simp only [tickerDayReset]
  split
  · exact .refl _
  · exact .after (by rfl) (handLevel_goesOn _)

theorem printComposed_line (p : Print) : (printComposed p s).line = s.line := by
  simp only [printComposed, condense, setTapeFields]
  repeat' split
  all_goals rfl

end

/-- A run of the composition, round by round (R120). -/
theorem compose_goesOn (k : Nat) : ∀ s : State, LineGoesOn s.line (compose k s).2.line := by
  induction k with
  | zero => exact fun s => .refl _
  | succ k ih =>
    intro s
    simp only [compose]
    split
    · exact .refl _
    · exact .refl _
    · have hlevel (rest : List TickerEntry) (late : Nat) : LineGoesOn s.line (updateLevel late (setQueue rest s)).line :=
        updateLevel_goesOn (setQueue rest s) late
      split
      · exact (hlevel _ _).trans (.after (countOmitted_line _ 1) (ih _))
      · rw [printComposed_line]
        exact hlevel _ _

theorem compositionStep_goesOn (s : State) : LineGoesOn s.line (compositionStep s).line := by
  have h := compose_goesOn (s.ticker.queue.length + 1) s
  rw [compositionStep]
  split
  · next v heq =>
    rw [heq] at h
    exact h
  · next v heq =>
    rw [heq] at h
    split
    · exact h.trans (stopTicker_goesOn (emitBlank v))
    · exact h

theorem stepExpire_goesOn (s : State) : LineGoesOn s.line (stepExpire s).line := by
  have hrestart (v : State) : (restartStep v).line = v.line := by
    rw [restartStep]
    split <;> rfl
  rw [stepExpire]
  split
  · rw [hrestart]
    simp only [emitStep]
    split
    · exact .refl _
    · split
      · exact .refl _
      · exact compositionStep_goesOn s
  · exact .refl _

/-! ### Market data, clock and feed line -/

section
variable (s : State)

theorem applyTrade_goesOn (q : TradeItems) : LineGoesOn s.line (applyTrade q s).line := by
  simp only [applyTrade]
  split
  · exact .refl _
  · split
    · exact .refl _
    · split
      · rw [offerPrint_line]
        exact updateRecord_goesOn s ..
      · exact updateRecord_goesOn s ..

theorem applyQuote_goesOn (q : QuoteItems) : LineGoesOn s.line (applyQuote q s).line := by
  simp only [applyQuote]
  split
  · exact .refl _
  · split
    · exact .refl _
    · exact updateRecord_goesOn s ..

theorem applySymbolState_goesOn (q : SymbolStateItems) : LineGoesOn s.line (applySymbolState q s).line := by
  simp only [applySymbolState]
  split
  · exact .refl _
  · split
    · exact .refl _
    · split
      · exact .refl _
      · split
        · exact updateRecord_goesOn s ..
        · rw [offerText_line]
          exact updateRecord_goesOn s ..

theorem applyRecap_goesOn (q : RecapItems) : LineGoesOn s.line (applyRecap q s).line := by
  simp only [applyRecap]
  split
  · exact .refl _
  · split
    · exact .refl _
    · exact updateRecord_goesOn s ..

theorem minuteChange_goesOn : LineGoesOn s.line (minuteChange s).line := by
  have h := statusLinesPending_goesOn (markClocks s)
  rw [markClocks_line] at h
  exact h

theorem applyClock_goesOn (q : TimeOfDay) : LineGoesOn s.line (applyClock q s).line := by
  simp only [applyClock]
  split
  · exact .after (by rfl) (minuteChange_goesOn _)
  · exact .refl _

theorem secondExpire_goesOn : LineGoesOn s.line (secondExpire s).line := by
  simp only [secondExpire]
  split
  · exact .after (by rfl) (minuteChange_goesOn _)
  · exact .refl _

theorem handFeedState_goesOn (new : FeedState) : LineGoesOn s.line (handFeedState new s).line := by
  have h := statusLinesPending_goesOn (markStatus s)
  rw [markStatus_line] at h
  simp only [handFeedState]
  split
  · rw [offerText_line]
    exact h
  · exact h

theorem silenceExpire_goesOn : LineGoesOn s.line (silenceExpire s).line := by
  simp only [silenceExpire]
  split
  · refine LineGoesOn.trans ?_ (handFeedState_goesOn _ _)
    exact .after (by rfl) (markAllStale_goesOn _)
  · exact .refl _

theorem arrivalSeen_goesOn : LineGoesOn s.line (arrivalSeen s).line := by
  simp only [arrivalSeen, setFeedState]
  split
  · exact .refl _
  · exact .after (by rfl) (handFeedState_goesOn _ _)

theorem arrive_goesOn (body : List Byte) : LineGoesOn s.line (arrive body s).line := by
  have hseen := arrivalSeen_goesOn s
  simp only [arrive]
  split
  · exact hseen
  · next t ht =>
    rw [← sequenceChecked_line ht] at hseen
    split
    · rw [offerIntake_line]
      exact hseen
    · exact hseen

theorem settleReception_goesOn (r : Receiver × RxEvent) : LineGoesOn s.line (settleReception r s).line := by
  simp only [settleReception]
  split
  · exact .refl _
  · exact .after (by rfl) (arrive_goesOn _ _)

theorem feedBits_goesOn (bits : List Bool) : LineGoesOn s.line (feedBits bits s).line := by
  rw [feedBits]
  induction bits generalizing s with
  | nil => exact .refl _
  | cons b rest ih => exact (settleReception_goesOn s _).trans (ih _)

theorem takeLastByte_goesOn (low : Byte) : LineGoesOn s.line (takeLastByte low s).line := by
  simp only [takeLastByte]
  split
  · exact settleReception_goesOn s _
  · exact feedBits_goesOn s _

/-! ### The session -/

theorem dayReset_goesOn : LineGoesOn s.line (dayReset s).line := by
  have hone (v : State) (n : Nat) : LineGoesOn v.line (dayResetOne v n).line := by
    rw [dayResetOne_line]
    exact lineWithRows_goesOn _ _ _
  have hall (ns : List Nat) : ∀ v : State, LineGoesOn v.line (ns.foldl dayResetOne v).line := by
    induction ns with
    | nil => exact fun v => .refl _
    | cons n rest ih => exact fun v => (hone v n).trans (ih _)
  rw [dayReset, markAllSlots_line]
  exact (hall (definedNumbers s) s).trans (tickerDayReset_goesOn _)

end

theorem sound_applySession {s : State} (code : SessionCode) (h : LineSound s.line) :
    LineSound (applySession code s).line := by
  simp only [applySession]
  split
  · exact h
  · next new _ =>
    split
    · exact h
    · have hhanded : LineSound
          (handSession s.time.session new (s.setTime { s.time with session := new })).line := by
        refine sound_lineSession _ ?_
        rw [tickerSession_line, markStatus_line]
        exact h
      split
      · exact (dayReset_goesOn _).sound hhanded
      · exact hhanded

/-! ### Table entries (R167) -/

theorem applyParamEntry_line {i : Nat} {x : List Byte} {s t : State} (h : applyParamEntry i x s = some t) :
    t.line = s.line := by
  simp only [applyParamEntry] at h
  split at h
  · cases h
  · obtain rfl := Option.some.inj h
    split
    · exact windowLoaded_line _
    · rfl

theorem applySymbolEntry_goesOn {n : Nat} {x : List Byte} {s t : State} (h : applySymbolEntry n x s = some t) :
    LineGoesOn s.line t.line := by
  rcases applySymbolEntry_cases h with ht | ⟨q, -, -, ⟨-, -, ht⟩ | ⟨r, -, ⟨-, ht⟩ | ht | ⟨-, -, ht⟩⟩⟩
  · exact .of_eq (by rw [ht])
  · rw [ht]
    exact .after (by rfl) (updateRecord_goesOn _ ..)
  · rw [ht]
    exact .after (by rfl) (handDeletion_goesOn _ n)
  · rw [ht]
    exact updateRecord_goesOn s ..
  · rw [ht]
    exact .after (by rfl) ((handDeletion_goesOn _ n).trans (handNames_goesOn _ n _))

theorem applySlotTable_line {s₀ : State} {n : Nat} {x : List Byte} {s t : State}
    (h : applySlotTable s₀ n x s = some t) : t.line = s.line := by
  obtain ⟨v, hv, rfl⟩ := Option.map_eq_some_iff.mp h
  simp only [snapshotAfterLoad_line]
  simp only [applySlotEntry] at hv
  split at hv
  · cases hv
  · obtain rfl := Option.some.inj hv
    simp
  · split at hv
    · cases hv
    · obtain rfl := Option.some.inj hv
      simp

/-- The rows of a TERMINAL entry, one after the other (R164). -/
theorem loadRows_goesOn (x : TermId) (items : List (Fin 16 × Option Nat)) : ∀ s : State,
    LineGoesOn s.line (items.foldl (fun v item => applyTerminalEntry.loadRow x item v) s).line := by
  induction items with
  | nil => exact fun s => .refl _
  | cons item rest ih =>
    intro s
    refine LineGoesOn.trans ?_ (ih _)
    simp only [applyTerminalEntry.loadRow]
    split
    · exact .refl _
    · exact changeRow_goesOn x _ _ s

theorem sound_applyTerminalEntry {x : TermId} {e : List Byte} {s t : State} (h : applyTerminalEntry x e s = some t)
    (hs : LineSound s.line) : LineSound t.line := by
  simp only [applyTerminalEntry] at h
  split at h
  · cases h
  · split at h
    · obtain rfl := Option.some.inj h
      refine sound_setEnabled ((loadRows_goesOn x _ _).sound (LineGoesOn.sound (.setTerm ?_) hs))
      exact ⟨rfl, rfl, id⟩
    · cases h

/-- Whatever the owner of a loadable table does with an entry. -/
theorem sound_loadTable (table : LoadTable) {s₀ : State} {n : Nat} {x : List Byte} {s t : State}
    (h : table.apply s₀ n x s = some t) (hs : LineSound s.line) : LineSound t.line := by
  cases table with
  | param =>
    rw [applyParamEntry_line h]
    exact hs
  | symbol => exact (applySymbolEntry_goesOn h).sound hs
  | slot =>
    rw [applySlotTable_line h]
    exact hs
  | chain =>
    simp only [LoadTable.apply, applyChainTable] at h
    split at h
    · obtain rfl := Option.some.inj h
      rw [applyChainEntry, wakeChain_line]
      exact hs
    · cases h
  | module =>
    simp only [LoadTable.apply, applyModuleTable] at h
    split at h
    · obtain rfl := Option.some.inj h
      rw [applyModuleEntry, wakeChain_line]
      exact hs
    · cases h
  | terminal =>
    simp only [LoadTable.apply, applyTerminalTable] at h
    split at h
    · exact sound_applyTerminalEntry h hs
    · cases h

theorem sound_takeLoad (table : LoadTable) {s : State} (hs : LineSound s.line) :
    LineSound (takeLoad table.step table.size table.entrySize (table.apply s) s).line := by
  rcases takeLoad_cases table.step table.size table.entrySize (table.apply s) s with
    hsame | ⟨e, rest, u, v, -, -, hu, hv, hend⟩
  · rw [hsame]
    exact hs
  · have hsu : LineSound u.line := by
      rw [hu]
      split
      · exact (afterGap_goesOn s e).sound hs
      · exact hs
    have hsv : LineSound v.line := by
      rcases hv with rfl | ⟨n, x, hx⟩
      · exact hsu
      · exact sound_loadTable table hx hsu
    rcases hend with ⟨answer, ht⟩ | ⟨done, ht, -⟩
    · rw [ht, loadEnds_line]
      exact hsv
    · rw [ht]
      exact hsv

end Sys2Proof.Machine

namespace Sys2Proof.Machine

open Sys2Proof.Safety

/-! ## The head of the intake queue, and the resets -/

theorem sound_takeHead {step : FrameStep} {apply : List Byte → State → State}
    (h : ∀ body s, LineSound s.line → LineSound (apply body s).line) {s : State} (hs : LineSound s.line) :
    LineSound (takeHead step apply s).line := by
  simp only [takeHead]
  split
  · exact hs
  · next e rest _ =>
    split
    · exact h e.body (afterGap e s) ((afterGap_goesOn s e).sound hs)
    · exact hs

theorem sound_applyItems {α : Type} {items : List Byte → Option α} {apply : α → State → State}
    (h : ∀ x s, LineSound s.line → LineSound (apply x s).line) (body : List Byte) (s : State) (hs : LineSound s.line) :
    LineSound (applyItems items apply body s).line := by
  simp only [applyItems]
  split
  · exact h _ s hs
  · exact hs

theorem sound_applyControl {length : Nat} {act : List Byte → State → Option State}
    (h : ∀ p s t, act p s = some t → LineSound s.line → LineSound t.line) (body : List Byte) (s : State)
    (hs : LineSound s.line) : LineSound (applyControl length act body s).line := by
  simp only [applyControl]
  split
  · rw [replyTo_line]
    exact hs
  · split
    · next t ht =>
      rw [replyTo_line]
      exact h _ s t ht hs
    · rw [replyTo_line]
      exact hs

/-- A line whose terminals hold no number, with nothing in flight, none of them in RECOVERY. -/
theorem sound_of_idle {l : TerminalLine} (hfree : l.transaction = none)
    (hterms : ∀ x : TermId, TermRests l.terminals[x] ∧ (l.terminals[x]).outstanding = none) : LineSound l := by
  refine (lineSound_free hfree).mpr ⟨fun x y hx _ => ?_, fun x => (hterms x).1⟩
  rw [(hterms x).2] at hx
  cases hx

theorem sound_coldLine : LineSound coldLine := by
  refine sound_of_idle rfl fun x => ?_
  rw [coldLine_getElem x]
  refine ⟨⟨⟨nofun, nofun⟩, fun _ => ⟨fun i => ?_, rfl⟩⟩, rfl⟩
  rw [coldTerminal_row]
  rfl

theorem sound_warmLine (l : TerminalLine) : LineSound (warmLine l) := by
  refine sound_of_idle rfl fun x => ?_
  have hx : (warmLine l).terminals[x] = warmTerminal l.terminals[x] := Vector.getElem_map ..
  rw [hx]
  refine ⟨⟨⟨fun hstate => ?_, nofun⟩, fun _ => clearSets_still _⟩, rfl⟩
  simp only [warmTerminal] at hstate
  split at hstate <;> cases hstate

theorem sound_applyWarm (straps : BitVec 6) (body : List Byte) (s : State) :
    LineSound (applyWarm straps body s).line := by
  rw [applyWarm, raiseAlert_line, replyTo_line]
  refine sound_select ?_
  rw [wakeChains_line]
  exact sound_warmLine s.line

theorem lineLaw_coldState (cause : ResetCause) (phase : Phase) (station : BitVec 6) (sense : Vector Bool 4) (s : State) :
    LineLaw (coldState cause phase station sense s) := lineLaw_of_sound sound_coldLine

/-- R153: the pin abandons the transaction, and leaves the terminals. -/
theorem lineLaw_pinTaken {s : State} (h : LineLaw s) : LineLaw (pinTaken s) := ⟨h.1, nofun⟩

/-! ## The law at every command and at a tick -/

/-- A command that acts in operation alone. -/
theorem whenRunning_lineLaw {f : State → State} (h : ∀ s, LineSound s.line → LineSound (f s).line) {s t : State}
    (ht : whenRunning f s = .next t) (hs : LineLaw s) : LineLaw t := by
  simp only [whenRunning, Host.Outcome.next.injEq] at ht
  subst ht
  split
  · next hphase => exact lineLaw_of_sound (h s (lineSound_of_law hs hphase))
  · exact hs

/-- A command that takes a frame from the head of the intake queue. -/
theorem whenRunning_head_lineLaw {step : FrameStep} {apply : List Byte → State → State}
    (h : ∀ body s, LineSound s.line → LineSound (apply body s).line) {s t : State}
    (ht : whenRunning (takeHead step apply) s = .next t) (hs : LineLaw s) : LineLaw t :=
  whenRunning_lineLaw (fun _ => sound_takeHead h) ht hs

/-- A command under which the line goes on. -/
theorem whenRunning_goesOn {f : State → State} (h : ∀ s, LineGoesOn s.line (f s).line) {s t : State}
    (ht : whenRunning f s = .next t) (hs : LineLaw s) : LineLaw t :=
  whenRunning_lineLaw (fun s hs => (h s).sound hs) ht hs

/-- A market data frame under which the line goes on. -/
theorem whenRunning_items_goesOn {α : Type} {step : FrameStep} {items : List Byte → Option α}
    {apply : α → State → State} (h : ∀ s x, LineGoesOn s.line (apply x s).line) {s t : State}
    (ht : whenRunning (takeHead step (applyItems items apply)) s = .next t) (hs : LineLaw s) : LineLaw t :=
  whenRunning_head_lineLaw (sound_applyItems fun x s hs => (h s x).sound hs) ht hs

/-- A command that never acts on the terminal line. -/
theorem whenRunning_line {f : State → State} (h : ∀ s, (f s).line = s.line) {s t : State}
    (ht : whenRunning f s = .next t) (hs : LineLaw s) : LineLaw t :=
  whenRunning_goesOn (fun s => .of_eq (h s)) ht hs

/-- The command that takes the next entry of a LOAD. -/
theorem exec_load_lineLaw (table : LoadTable) {s t : State} (h : exec table.command s = .next t) (hs : LineLaw s) :
    LineLaw t := by
  rw [exec_load] at h
  simp only [whenRunning, Host.Outcome.next.injEq] at h
  subst h
  split
  · next hphase => exact lineLaw_of_sound (sound_takeLoad table (lineSound_of_law hs hphase))
  · exact hs

/-- A command that acts in one phase alone. -/
theorem ite_lineLaw {p : Prop} [Decidable p] {t u v : State}
    (ht : Host.Outcome.next (if p then u else v) = (.next t : Answer)) (hu : LineLaw u) (hv : LineLaw v) :
    LineLaw t := by
  obtain rfl := Host.Outcome.next.inj ht
  split
  · exact hu
  · exact hv

/-- Every command keeps the law of R138. -/
theorem exec_lineLaw (c : Instr) {s t : State} (h : exec c s = .next t) (hs : LineLaw s) : LineLaw t := by
  cases c
  case feedFrameReceived low => exact whenRunning_goesOn (fun s => takeLastByte_goesOn s low) h hs
  case feedByteReceived unit => exact whenRunning_goesOn (fun s => feedBits_goesOn s _) h hs
  case silenceTimerExpiry => exact whenRunning_goesOn silenceExpire_goesOn h hs
  case trade => exact whenRunning_items_goesOn applyTrade_goesOn h hs
  case quote => exact whenRunning_items_goesOn applyQuote_goesOn h hs
  case symbolState => exact whenRunning_items_goesOn applySymbolState_goesOn h hs
  case recap => exact whenRunning_items_goesOn applyRecap_goesOn h hs
  case clock => exact whenRunning_items_goesOn applyClock_goesOn h hs
  case session => exact whenRunning_head_lineLaw (sound_applyItems fun code _ => sound_applySession code) h hs
  case bulletinPush => exact whenRunning_items_goesOn (fun s b => .of_eq (applyPush_line s b)) h hs
  case bulletinPop => exact whenRunning_items_goesOn (fun s b => .of_eq (applyPop_line s b)) h hs
  case bulletinClear => exact whenRunning_items_goesOn (fun s b => .of_eq (applyClear_line s b)) h hs
  case loadParam => exact exec_load_lineLaw .param h hs
  case loadSymbol => exact exec_load_lineLaw .symbol h hs
  case loadSlot => exact exec_load_lineLaw .slot h hs
  case loadChain => exact exec_load_lineLaw .chain h hs
  case loadModule => exact exec_load_lineLaw .module h hs
  case loadTerminal => exact exec_load_lineLaw .terminal h hs
  case read => exact whenRunning_head_lineLaw (fun body s => (applyRead_line s body).symm ▸ id) h hs
  case report => exact whenRunning_head_lineLaw (fun body s => (applyReport_line s body).symm ▸ id) h hs
  case clearAlerts =>
    refine whenRunning_head_lineLaw (sound_applyControl ?_) h hs
    rintro p u v ⟨rfl⟩ hu
    rw [clearAlertsNamed_line]
    exact hu
  case setMask =>
    refine whenRunning_head_lineLaw (sound_applyControl ?_) h hs
    rintro p u v ⟨rfl⟩ hu
    exact hu
  case chainReset =>
    refine whenRunning_head_lineLaw (sound_applyControl fun p u v hv hu => ?_) h hs
    obtain ⟨c, -, rfl⟩ := Option.map_eq_some_iff.mp hv
    rw [chainResetAt_line]
    exact hu
  case terminalReset =>
    refine whenRunning_head_lineLaw (sound_applyControl fun p u v hv hu => ?_) h hs
    obtain ⟨x, -, rfl⟩ := Option.map_eq_some_iff.mp hv
    exact sound_terminalResetAt hu
  case tickerFlush =>
    refine whenRunning_head_lineLaw (sound_applyControl ?_) h hs
    rintro p u v ⟨rfl⟩ hu
    rw [tickerFlushAt_line]
    exact hu
  case resetCold => exact whenRunning_head_lineLaw (fun _ _ _ => sound_coldLine) h hs
  case resetWarm straps => exact whenRunning_head_lineLaw (fun body s _ => sound_applyWarm straps body s) h hs
  case powerOn =>
    obtain rfl := Host.Outcome.next.inj h
    exact lineLaw_coldState ..
  case resetPinAssert => exact ite_lineLaw h hs (lineLaw_pinTaken hs)
  case resetPinRelease => exact ite_lineLaw h (lineLaw_coldState ..) hs
  case initEnd straps sense => exact ite_lineLaw h (lineLaw_of_sound sound_coldLine) hs
  case secondPhaseExpiry => exact whenRunning_goesOn secondExpire_goesOn h hs
  case keepaliveExpiry c => exact whenRunning_line (fun s => keepaliveExpire_line s c) h hs
  case shiftCompletion c returned => exact whenRunning_line (fun s => shiftComplete_line s c _) h hs
  case settleCompletion c => exact whenRunning_line (fun s => settleExpire_line s c) h hs
  case chainSenseChange c present =>
    refine whenRunning_line (f := fun s => if s.chains[c].senseLevel = present then s else senseChange c present s)
      (fun s => ?_) h hs
    split
    · rfl
    · exact senseChange_line s c present
  case pwmPeriodStart c => exact whenRunning_line (fun s => setChain_line s c _) h hs
  case flashClockHalfPeriod => exact whenRunning_line halfPeriodExpire_line h hs
  case flashExpiry n => exact whenRunning_line (fun s => flashExpire_line s n) h hs
  case bulletinDurationExpiry k place => exact whenRunning_line (fun s => bulletinExpire_line s k place) h hs
  case step => exact whenRunning_goesOn stepExpire_goesOn h hs
  case primaryFrameSent => exact whenRunning_goesOn frameSent_goesOn h hs
  case terminalResponse low => exact whenRunning_lineLaw (fun _ => sound_takeCharacter low) h hs
  case terminalCharacterReceived b => exact whenRunning_lineLaw (fun _ => sound_takeCharacter b) h hs
  case responseTimeout => exact whenRunning_lineLaw (fun _ => sound_responseExpire) h hs
  case probeTimerExpiry x => exact whenRunning_lineLaw (fun _ => sound_probeExpire) h hs
  case nightPollGapExpiry => exact whenRunning_lineLaw (fun _ => sound_gapExpire) h hs
  case returnTransmissionStart => exact whenRunning_line returnStart_line h hs
  case returnFrameSent => exact whenRunning_line returnSent_line h hs
  case refusedManagementFrame =>
    exact whenRunning_head_lineLaw (fun body s => (replyTo_line s body [refusalCode body]).symm ▸ id) h hs

/-- The timers counted are none of the law's. -/
theorem lineLaw_tickedOnce {s : State} (h : LineLaw s) (hphase : s.phase = .running) : LineLaw (tickedOnce s) := by
  have hterms : LineGoesOn s.line { s.line with
      terminals := s.line.terminals.map fun t => { t with probeTimer := tickedTimer t.probeTimer } } := by
    refine .map (fun t => ?_) s.line
    exact ⟨rfl, rfl, id⟩
  have hgoes : LineGoesOn s.line (tickedOnce s).line := by
    refine ⟨hterms.terms, ?_⟩
    simp only [servedBy, tickedOnce, Option.map_map, Function.comp_def]
  exact lineLaw_of_sound (hgoes.sound (lineSound_of_law h hphase))

/-- The expiries of a tick are commands (R58). -/
theorem foldl_expiryTaken_lineLaw (es : List Expiry) : ∀ s : State, LineLaw s → LineLaw (es.foldl expiryTaken s) := by
  have hone (s : State) (e : Expiry) (hs : LineLaw s) : LineLaw (expiryTaken s e) := by
    simp only [expiryTaken]
    split
    · split
      · next t ht => exact exec_lineLaw e.2 ht hs
      · exact hs
      · exact hs
    · exact hs
  induction es with
  | nil => exact fun _ => id
  | cons e rest ih => exact fun s hs => ih _ (hone s e hs)

/-- Settles O57: the law of R138 is kept by every command, and by a tick as by the commands of its expiries. -/
theorem lineLawIsKept : Obligations.LineLawIsKept := by
  unfold Obligations.LineLawIsKept
  intro s t hs ht
  cases hpending : s.pending with
  | cons c rest =>
    rw [stepTakesTheFront.1 c rest s hpending] at ht
    exact exec_lineLaw c ht hs
  | nil =>
    obtain ⟨hruns, hstands⟩ := tickCountsAndExpires s hpending
    by_cases hphase : s.phase = .running
    · obtain rfl := Host.Outcome.next.inj ((hruns hphase).symm.trans ht)
      exact foldl_expiryTaken_lineLaw _ _ (lineLaw_tickedOnce hs hphase)
    · obtain rfl := Host.Outcome.next.inj ((hstands hphase).symm.trans ht)
      exact hs

end Sys2Proof.Machine

namespace Sys2Proof.Machine

open Sys2Proof.Safety

/-! ## Responses read by Table 11-9 (R136) -/

/-- A request part is read as Table 11-9 spells it. -/
theorem requestPart_eq_some_iff (p : List Byte) (request : Option Request) :
    requestPart p = some request ↔ SpellsRequest p request := by
  match p with
  | [] => cases request with
    | none => exact ⟨fun _ => rfl, fun _ => rfl⟩
    | some request => cases request <;> simp [requestPart, SpellsRequest]
  | [kind, row] =>
    have hread : requestPart [kind, row] = if kind = 2 then some (some (.drop row)) else none := by
      simp [requestPart, at8, ← BitVec.toNat_inj]
    rw [hread]
    rcases request with _ | ⟨row', c⟩ | row' <;> split <;> simp_all [SpellsRequest]
  | [kind, row, r0, r1, r2, r3, cls] =>
    have hread : requestPart [kind, row, r0, r1, r2, r3, cls] = if kind = 1 ∧ row.toNat ≤ 16 then
        some (some (.add row.toNat { r0, r1, r2, r3, cls })) else none := by
      simp [requestPart, at8, symbolAt, ← BitVec.toNat_inj]
    rw [hread]
    rcases request with _ | ⟨n, c⟩ | row'
    · split <;> simp_all [SpellsRequest]
    · obtain ⟨c0, c1, c2, c3, ccls⟩ := c
      simp only [Option.ite_none_right_eq_some, Option.some.injEq, Request.add.injEq, SymbolCode.mk.injEq,
        SpellsRequest, List.cons.injEq, and_true]
      constructor
      · rintro ⟨⟨rfl, hrow⟩, rfl, rfl, rfl, rfl, rfl, rfl⟩
        simp [hrow]
      · rintro ⟨⟨rfl, rfl, rfl, rfl, rfl, rfl, rfl⟩, hn⟩
        have hmod : n % 256 = n := Nat.mod_eq_of_lt (by omega)
        simp [hmod, hn]
    · split <;> simp_all [SpellsRequest]
  | [_] | [_, _, _] | [_, _, _, _] | [_, _, _, _, _] | [_, _, _, _, _, _] | _ :: _ :: _ :: _ :: _ :: _ :: _ :: _ :: _ =>
    rcases request with _ | ⟨n, c⟩ | row' <;> simp [requestPart, SpellsRequest]

theorem frameNumber_eq_some_iff (b : Byte) (n : BitVec 3) : frameNumber b = some n ↔ b = n.setWidth 8 := by
  revert b n
  decide +kernel

/-- A response is read as Table 11-9 spells it. -/
theorem responseOf_eq_some_iff (type : Nat) (body : List Byte) (r : Response) :
    responseOf type body = some r ↔ SpellsResponse type body r := by
  have hone (k : Byte) : body.length = 1 ∧ body[0]?.getD 0#8 = k ↔ body = [k] := by
    match body with
    | [] | [_] | _ :: _ :: _ => simp
  simp only [responseOf]
  split
  · rcases r with k | ⟨n, request⟩ | _ | request | n <;> simp [SpellsResponse, hone]
  · rcases body with _ | ⟨b, rest⟩
    · rcases r with k | ⟨n, request⟩ | _ | request | n <;> simp [SpellsResponse]
    · simp only [List.length_cons, Nat.le_add_left, if_true, List.getD_cons_zero, List.drop_succ_cons, List.drop_zero]
      rcases r with k | ⟨n, request⟩ | _ | request | n
      · split <;> simp [SpellsResponse]
      · simp only [SpellsResponse, List.head?_cons, List.tail_cons, Option.some_inj, true_and]
        rw [← requestPart_eq_some_iff, ← frameNumber_eq_some_iff]
        split <;> simp_all
      all_goals split <;> simp [SpellsResponse]
  · rcases r with k | ⟨n, request⟩ | _ | request | n <;> simp [SpellsResponse]
  · rcases r with k | ⟨n, request⟩ | _ | request | n <;> simp [SpellsResponse, requestPart_eq_some_iff]
  · rcases r with k | ⟨n, request⟩ | _ | request | n <;> simp [SpellsResponse, frameNumber_eq_some_iff, hone]
  · rcases r with k | ⟨n, request⟩ | _ | request | n <;> simp_all [SpellsResponse]

theorem receivedOutcome_response_iff (x : TermId) (frame : List Byte) (r : Response) :
    receivedOutcome (x.val + 1) frame = .response r ↔ IsResponse x frame r := by
  simp only [receivedOutcome, IsResponse]
  rw [← responseOf_eq_some_iff]
  split
  · next h =>
    obtain ⟨hlength, hlen, hcrc, haddr⟩ := h
    have hframe : frame.length = 4 + at8 frame 3 + 2 := by omega
    split
    · next r' hr' =>
      rw [hr', LineOutcome.response.injEq, Option.some_inj]
      exact ⟨fun h => ⟨hlen, hframe, haddr, hcrc.symm, h⟩, fun ⟨_, _, _, _, h⟩ => h⟩
    · next hnone => simp [hnone]
  · next h =>
    refine ⟨nofun, ?_⟩
    rintro ⟨hlen, hframe, haddr, hcrc, -⟩
    exact absurd ⟨by omega, hlen, hcrc.symm, haddr⟩ h

/-- A frame that is no valid response is a bad one. -/
theorem receivedOutcome_badFrame {x : TermId} {frame : List Byte} (h : ∀ r, ¬ IsResponse x frame r) :
    receivedOutcome (x.val + 1) frame = .badFrame := by
  have hnone (r : Response) : receivedOutcome (x.val + 1) frame ≠ .response r :=
    fun hr => h r ((receivedOutcome_response_iff x frame r).mp hr)
  simp only [receivedOutcome] at hnone ⊢
  split
  · next hvalid =>
    split
    · next r hr =>
      rw [if_pos hvalid, hr] at hnone
      exact absurd rfl (hnone r)
    · rfl
  · rfl

end Sys2Proof.Machine

namespace Sys2Proof.Machine

open Sys2Proof.Safety

/-! ## The transaction is no matter of its own outcome (R137) -/

/-- The transaction in flight replaced. -/
def withTransaction (T : Option Transaction) (s : State) : State := { s with line := { s.line with transaction := T } }

/-- An operation that neither reads nor changes the transaction in flight. -/
def IgnoresTransaction (f : State → State) : Prop := ∀ T s, f (withTransaction T s) = withTransaction T (f s)

theorem IgnoresTransaction.comp {f g : State → State} (hf : IgnoresTransaction f) (hg : IgnoresTransaction g) :
    IgnoresTransaction (fun s => f (g s)) := fun T s => (congrArg f (hg T s)).trans (hf T (g s))

theorem changeWatch_ignores (f : Nat → Nat) (n : Nat) : IgnoresTransaction (changeWatch f n) := by
  intro T s
  have hrecords : (withTransaction T s).records = s.records := rfl
  simp only [changeWatch, hrecords]
  split <;> rfl

theorem raiseWatch_ignores (record : Option Nat) : IgnoresTransaction (raiseWatch record) := by
  cases record with
  | none => exact fun _ _ => rfl
  | some n => exact changeWatch_ignores (· + 1) n

theorem lowerWatch_ignores (record : Option Nat) : IgnoresTransaction (lowerWatch record) := by
  cases record with
  | none => exact fun _ _ => rfl
  | some n => exact changeWatch_ignores (· - 1) n

theorem changeRow_ignores (x : TermId) (i : Fin 16) (item : Option Nat) : IgnoresTransaction (changeRow x i item) := by
  intro T s
  rw [changeRow_eq, changeRow_eq, ← raiseWatch_ignores, ← lowerWatch_ignores]
  rfl

theorem placeResult_ignores (x : TermId) (code : ResultCode) (row : Byte) :
    IgnoresTransaction (placeResult x code row) := fun _ _ => rfl

/-- A request taken up: a row changed, and the result placed. -/
theorem taken_ignores (x : TermId) (i : Fin 16) (item : Option Nat) (row : Byte) :
    IgnoresTransaction (fun s => placeResult x .accepted row (changeRow x i item s)) :=
  (placeResult_ignores x .accepted row).comp (changeRow_ignores x i item)

theorem applyAdd_ignores (x : TermId) (row : Nat) (symbol : SymbolCode) : IgnoresTransaction (applyAdd x row symbol) := by
  intro T s
  have hterm : (withTransaction T s).line.terminals[x] = s.line.terminals[x] := rfl
  have hdirectory : (withTransaction T s).directory = s.directory := rfl
  simp only [applyAdd, hterm, hdirectory]
  split
  · rfl
  · cases lookup s.directory symbol with
    | none => rfl
    | some n =>
      cases hnaming : rowNaming s.line.terminals[x] n with
      | some i => simp only [hnaming]; rfl
      | none =>
        cases hrow : rowForAdd s.line.terminals[x] row with
        | none => simp only [hnaming]; rfl
        | some i => simp only [hnaming]; exact taken_ignores x i (some n) _ T s

theorem applyDrop_ignores (x : TermId) (row : Byte) : IgnoresTransaction (applyDrop x row) := by
  intro T s
  have hterm : (withTransaction T s).line.terminals[x] = s.line.terminals[x] := rfl
  simp only [applyDrop, hterm]
  split
  · rfl
  · split
    · rfl
    · next i _ =>
      split
      · rfl
      · exact taken_ignores x i none _ T s

theorem applyRequest_ignores (x : TermId) (request : Option Request) : IgnoresTransaction (applyRequest x request) := by
  match request with
  | none => exact fun _ _ => rfl
  | some (.add row symbol) => exact applyAdd_ignores x row symbol
  | some (.drop row) => exact applyDrop_ignores x row

/-- The end of the transaction is told of the line that frees it, whichever transaction it was. -/
theorem lineSettled_withTransaction (x : TermId) (T : Option Transaction) (s : State) :
    lineSettled x (withTransaction T s) = lineSettled x s := rfl

/-- R137 steps 2 to 4, as the statements tell them. -/
theorem freeLine_applyWaiting (x : TermId) (s : State) : freeLine (applyWaiting x s) = lineSettled x s := by
  simp only [applyWaiting, lineSettled]
  cases (s.line.terminals[x]).enabled <;> cases (s.line.terminals[x]).resetPending <;> rfl

theorem endTransaction_eq {s : State} {tx : Transaction} (o : LineOutcome) (h : s.line.transaction = some tx) :
    endTransaction o s = lineSettled tx.terminal (applyOutcome tx.kind tx.terminal o s) := by
  rw [← freeLine_applyWaiting, endTransaction, h]

/-! ## The last character of a response (R136, R137) -/

theorem whenRunning_of_running {f : State → State} {s : State} (h : s.phase = .running) :
    whenRunning f s = .next (f s) := by rw [whenRunning, if_pos h]

section
variable {s : State} {tx : Transaction} {b : Byte}

/-- The transaction with one more character received. -/
def oneMore (tx : Transaction) (b : Byte) : Transaction :=
  { tx with received := tx.received ++ [b], timeout := some tx.responseTicks }

/-- A character taken into the response. -/
theorem takeCharacter_taken (htx : s.line.transaction = some tx) (hsending : tx.sending = false)
    (htaken : tx.received ≠ [] ∨ b = 0x01) : takeCharacter b s =
      if (tx.received ++ [b]).length = 4 ∧ 120 < b.toNat then
        endTransaction .badFrame (withTransaction (some (oneMore tx b)) s)
      else if responseWhole (tx.received ++ [b]) then
        endTransaction (receivedOutcome (tx.terminal.val + 1) (tx.received ++ [b]))
          (withTransaction (some (oneMore tx b)) s)
      else withTransaction (some (oneMore tx b)) s := by
  have hnot : ¬ (tx.received = [] ∧ b ≠ 0x01) := by tauto
  simp only [takeCharacter, htx]
  rw [if_neg (by rw [hsending]; nofun), if_neg hnot]
  rfl

theorem takeCharacter_ends {low : Byte} (h : ReceptionEnds s tx low) : takeCharacter low s
    = endTransaction (receivedOutcome (tx.terminal.val + 1) (tx.received ++ [low]))
      (withTransaction (some (oneMore tx low)) s) := by
  obtain ⟨-, htx, hsending, hlen, hends⟩ := h
  have hlength : (tx.received ++ [low]).length = tx.received.length + 1 := by simp
  have hwhole : responseWhole (tx.received ++ [low]) = true := by
    simp only [responseWhole, hlength, Bool.and_eq_true, decide_eq_true_eq, beq_iff_eq]
    omega
  have hne : tx.received ≠ [] := by rintro h; simp [h] at hlen
  rw [takeCharacter_taken htx hsending (.inl hne), if_neg (by omega), if_pos hwhole]

end

end Sys2Proof.Machine

namespace Sys2Proof.Machine

open Sys2Proof.Safety

/-! ## The outcome of a transaction, and what follows it (R137) -/

theorem miss_ignores (x : TermId) (after : TermState) : IgnoresTransaction (miss x after) := by
  intro T s
  have hterm : (withTransaction T s).line.terminals[x] = s.line.terminals[x] := rfl
  simp only [miss, hterm]
  split <;> rfl

theorem applyOutcome_ignores (kind : PrimaryKind) (x : TermId) (o : LineOutcome) :
    IgnoresTransaction (applyOutcome kind x o) := by
  intro T s
  have hterm : (withTransaction T s).line.terminals[x] = s.line.terminals[x] := rfl
  have hrequest (request : Option Request) (term : Terminal) :
      applyRequest x request ((withTransaction T s).setTerm x term)
        = withTransaction T (applyRequest x request (s.setTerm x term)) := applyRequest_ignores x request T (s.setTerm x term)
  have hmiss (after : TermState) : miss x after (withTransaction T s) = withTransaction T (miss x after s) :=
    miss_ignores x after T s
  cases kind with
  | activate =>
    simp only [applyOutcome, activateOutcome, hterm]
    split <;> rfl
  | screenInit =>
    simp only [applyOutcome, screenInitOutcome, hterm, hrequest, hmiss]
    split
    · split <;> rfl
    all_goals rfl
  | poll =>
    simp only [applyOutcome, pollOutcome, hterm, hrequest, hmiss]
    split <;> rfl
  | update =>
    simp only [applyOutcome, updateOutcome, hterm, hrequest, hmiss]
    split
    · split <;> rfl
    all_goals rfl
  | enquiry =>
    simp only [applyOutcome, enquiryOutcome, hterm, hmiss]
    split
    · split <;> rfl
    all_goals rfl

section
variable {s : State} {tx : Transaction} {low : Byte}

/-- The end of the transaction, after one more character. -/
theorem endTransaction_oneMore (o : LineOutcome) (b : Byte) :
    endTransaction o (withTransaction (some (oneMore tx b)) s)
      = lineSettled tx.terminal (applyOutcome tx.kind tx.terminal o s) := by
  rw [endTransaction_eq o (tx := oneMore tx b) rfl]
  exact (congrArg (lineSettled tx.terminal) (applyOutcome_ignores tx.kind tx.terminal o _ s)).trans
    (lineSettled_withTransaction _ _ _)

theorem exec_terminalResponse_ends (h : ReceptionEnds s tx low) : exec (.terminalResponse low) s
    = .next (lineSettled tx.terminal (applyOutcome tx.kind tx.terminal
      (receivedOutcome (tx.terminal.val + 1) (tx.received ++ [low])) s)) := by
  have hexec : exec (.terminalResponse low) s = whenRunning (takeCharacter low) s := rfl
  rw [hexec, whenRunning_of_running h.1, takeCharacter_ends h, endTransaction_oneMore]

/-- A valid response has its outcome (R136, R137). -/
theorem exec_terminalResponse_response {r : Response} (h : EndsWith s tx low r) : exec (.terminalResponse low) s
    = .next (lineSettled tx.terminal (applyOutcome tx.kind tx.terminal (.response r) s)) := by
  rw [exec_terminalResponse_ends h.1, (receivedOutcome_response_iff tx.terminal _ r).mpr h.2]

/-- A bad frame has its own (R136). -/
theorem exec_terminalResponse_bad (h : EndsBadly s tx low) : exec (.terminalResponse low) s
    = .next (lineSettled tx.terminal (applyOutcome tx.kind tx.terminal .badFrame s)) := by
  rw [exec_terminalResponse_ends h.1, receivedOutcome_badFrame h.2]

end

/-! ## The UPDATE acknowledged (R146, R161) -/

theorem acceptedUpdate_still (term : Terminal) : NothingInFlight (acceptedUpdate term) := settleAccepted_still term

theorem updateOutcome_ack {x : TermId} {n : BitVec 3} {s : State} (request : Option Request)
    (h : (s.line.terminals[x]).outstanding = some n) :
    updateOutcome x (.response (.ack n request)) s
      = applyRequest x request (withTerm x (acceptedUpdate s.line.terminals[x]) s) := by
  rw [updateOutcome, if_pos h.symm]
  rfl

/-- Settles O43: the response read, the UPDATE taken as accepted, and the line settled. -/
theorem updateIsAcknowledged : Obligations.UpdateIsAcknowledged := by
  unfold Obligations.UpdateIsAcknowledged
  intro s low tx number request x term settled h hkind hholds
  have hrow (i : Fin 16) : settled.rows[i] = { term.rows[i] with inFlight := 0 } := Vector.getElem_map ..
  refine ⟨?_, rfl, rfl, rfl, rfl, acceptedUpdate_still term, fun i => ?_, rfl, rfl⟩
  · rw [exec_terminalResponse_response h, hkind]
    exact congrArg (fun t => Host.Outcome.next (lineSettled x t)) (updateOutcome_ack request hholds)
  · rw [hrow]
    exact ⟨rfl, rfl⟩

/-! ## The other responses (R142 to R147) -/

/-- R159: the rows of a new screen, as the statement tells them. -/
theorem activateRows_eq (term : Terminal) : activateRows term = { term with
    statusInFlight := false, statusPending := true, rotation := 0,
    rows := term.rows.map (fun r => { r with
      pending := if r.record = none then 0 else allNames, inFlight := 0 }) } := by
  have hrow : activatedRow = fun r => { r with pending := if r.record = none then 0 else allNames, inFlight := 0 } := by
    funext r
    cases h : r.record <;> simp [activatedRow, h]
  rw [activateRows, hrow]
  rfl

/-- Settles O44: each response that fits its frame, by the frame. -/
theorem responsesAreTaken : Obligations.ResponsesAreTaken := by
  unfold Obligations.ResponsesAreTaken
  intro s low tx response x term becomes h
  have hbecomes {t : State} (ht : applyOutcome tx.kind x (.response response) s = t) : becomes t :=
    ht ▸ exec_terminalResponse_response h
  refine ⟨fun hkind hr => hbecomes ?_, fun request hkind hr => hbecomes ?_, fun request hkind hr => hbecomes ?_,
    fun hkind hr => hbecomes ?_, fun hkind hr => hbecomes ?_, fun n request hkind hr hn => hbecomes ?_,
    fun n hkind hr hn => hbecomes ?_, fun n hkind hr hn => hbecomes ?_⟩
  · rw [hkind, hr, applyOutcome, activateOutcome, if_pos rfl]
    rfl
  · rw [hkind, hr]
    have hbase : term.nextNumber - 1 = baseNumber s.line.terminals[x] := rfl
    rw [applyOutcome, screenInitOutcome, if_pos hbase, activateRows_eq]
    rfl
  · rw [hkind, hr]
    rfl
  · rw [hr]
    rcases hkind with hkind | hkind <;> rw [hkind] <;> rfl
  · rw [hkind, hr]
    rfl
  · rw [hkind, hr]
    exact if_neg (Ne.symm hn)
  · rw [hkind, hr]
    exact if_pos hn.symm
  · rw [hkind, hr]
    exact if_neg (Ne.symm hn)

/-! ## Failures (R148) -/

/-- What a failed transaction of a kind leaves, before the line is settled (R142 to R148). -/
def failedOutcome (kind : PrimaryKind) (x : TermId) (s : State) : State :=
  match kind with
  | .activate => withTerm x { s.line.terminals[x] with probeTimer := some (param s 17 * 1000) } s
  | .screenInit => missed x .activating s
  | .poll => missed x .active s
  | .update => missed x .recovery s
  | .enquiry => missed x .recovery s

/-- A timeout and a bad frame, whatever was sent. -/
theorem applyOutcome_failed (kind : PrimaryKind) (x : TermId) (s : State) :
    applyOutcome kind x .timeout s = failedOutcome kind x s ∧ applyOutcome kind x .badFrame s = failedOutcome kind x s := by
  cases kind with
  | activate =>
    rw [applyOutcome, applyOutcome, activateOutcome, activateOutcome, if_neg nofun, if_neg nofun]
    exact ⟨rfl, rfl⟩
  | screenInit => exact ⟨miss_eq x .activating s, miss_eq x .activating s⟩
  | poll => exact ⟨miss_eq x .active s, miss_eq x .active s⟩
  | update => exact ⟨miss_eq x .recovery s, miss_eq x .recovery s⟩
  | enquiry => exact ⟨miss_eq x .recovery s, miss_eq x .recovery s⟩

/-- A response that does not fit what was sent, by Table 8-2. -/
def Unfit (kind : PrimaryKind) (term : Terminal) : Response → Prop := fun r =>
  match kind, r with
  | .activate, .confirm n => n ≠ 1
  | .screenInit, .ack n _ => n ≠ term.nextNumber - 1
  | .screenInit, .busy => False
  | .poll, .idle _ => False
  | .poll, .busy => False
  | .update, .ack _ _ => False
  | .update, .busy => False
  | .enquiry, .number _ => False
  | _, _ => True

theorem applyOutcome_unfit {kind : PrimaryKind} {x : TermId} {r : Response} {s : State}
    (h : Unfit kind s.line.terminals[x] r) : applyOutcome kind x (.response r) s = failedOutcome kind x s := by
  cases kind with
  | activate =>
    refine if_neg ?_
    rintro ⟨rfl⟩
    exact h rfl
  | screenInit =>
    cases r with
    | ack n request => exact (if_neg h).trans (miss_eq x .activating s)
    | busy => exact h.elim
    | confirm n => exact miss_eq x .activating s
    | idle request => exact miss_eq x .activating s
    | number n => exact miss_eq x .activating s
  | poll =>
    cases r with
    | idle request => exact h.elim
    | busy => exact h.elim
    | confirm n => exact miss_eq x .active s
    | ack n request => exact miss_eq x .active s
    | number n => exact miss_eq x .active s
  | update =>
    cases r with
    | ack n request => exact h.elim
    | busy => exact h.elim
    | confirm n => exact miss_eq x .recovery s
    | idle request => exact miss_eq x .recovery s
    | number n => exact miss_eq x .recovery s
  | enquiry =>
    cases r with
    | number n => exact h.elim
    | confirm n => exact miss_eq x .recovery s
    | ack n request => exact miss_eq x .recovery s
    | busy => exact miss_eq x .recovery s
    | idle request => exact miss_eq x .recovery s

/-- Settles O46: every failure has the outcome of `failedOutcome`. -/
theorem failuresAreMisses : Obligations.FailuresAreMisses := by
  unfold Obligations.FailuresAreMisses
  intro s tx x term after fails unfit hphase htx
  have hafter : after = failedOutcome tx.kind x s := by
    simp only [after]
    cases tx.kind <;> rfl
  obtain ⟨htimeout, hbad⟩ := applyOutcome_failed tx.kind x s
  refine ⟨fun k hk => ?_, fun low h => ?_, fun low r h hr => ?_, fun b hsending hlength hb => ?_⟩
  · have hexec : exec .responseTimeout s = whenRunning responseExpire s := rfl
    have hexpire : responseExpire s
        = endTransaction (if tx.received = [] then .timeout else .badFrame) s := by
      rw [responseExpire, htx]
      exact if_pos (by rw [hk]; rfl)
    show exec .responseTimeout s = _
    rw [hexec, whenRunning_of_running hphase, hexpire, endTransaction_eq _ htx, hafter]
    split
    · rw [htimeout]
    · rw [hbad]
  · exact (exec_terminalResponse_bad h).trans (by rw [hbad, hafter])
  · have hunfit : Unfit tx.kind term r := hr
    exact (exec_terminalResponse_response h).trans (by rw [applyOutcome_unfit hunfit, hafter])
  · have hexec : exec (.terminalCharacterReceived b) s = whenRunning (takeCharacter b) s := rfl
    have hne : tx.received ≠ [] := by
      rintro hnil
      rw [hnil] at hlength
      cases hlength
    show exec (.terminalCharacterReceived b) s = _
    rw [hexec, whenRunning_of_running hphase, takeCharacter_taken htx hsending (.inl hne),
      if_pos ⟨by simp [hlength], hb⟩, endTransaction_oneMore, hbad, hafter]

end Sys2Proof.Machine

namespace Sys2Proof.Machine

open Sys2Proof.Safety

/-! ## The primary frame on the line (R135, R178) -/

/-- Character i of a frame takes the bit times from 10i on. -/
theorem characters_getD {x : Byte} {k : Nat} (hk : k < 10) : ∀ {frame : List Byte} {i : Nat}, frame[i]? = some x →
    (frame.flatMap characterBits).getD (10 * i + k) marking = (characterBits x).getD k marking
  | [], _, h => by cases h
  | b :: rest, 0, h => by
    obtain rfl := Option.some.inj h
    have hlength : k < (characterBits b).length := hk
    rw [List.flatMap_cons, Nat.mul_zero, Nat.zero_add, List.getD_append _ _ _ _ hlength]
  | b :: rest, i + 1, h => by
    have hlength : (characterBits b).length = 10 := rfl
    have hplace : 10 * (i + 1) + k - (characterBits b).length = 10 * i + k := by omega
    rw [List.flatMap_cons, List.getD_append_right _ _ _ _ (by omega), hplace]
    exact characters_getD hk (frame := rest) h

section
variable {s : State} {tx : Transaction}

/-- What the line carries while a frame is sent. -/
theorem transmitData_of_sending (hphase : s.phase = .running) (htx : s.line.transaction = some tx)
    (hsending : tx.sending = true) :
    lineDirectionActive s = true ∧ ∀ k, transmitData s k = (tx.frame.flatMap characterBits).getD k marking := by
  have hactive : lineDirectionActive s = true := by simp [lineDirectionActive, hphase, htx, hsending]
  refine ⟨hactive, fun k => ?_⟩
  rw [transmitData, if_pos hactive, htx]
  rfl

/-- It rests at marking when nothing is sent. -/
theorem transmitData_of_rest (h : ∀ tx, s.line.transaction = some tx → tx.sending = false) :
    lineDirectionActive s = false ∧ ∀ k, transmitData s k = true := by
  have hrest : lineDirectionActive s = false := by
    cases htx : s.line.transaction with
    | none => simp [lineDirectionActive, htx]
    | some tx => simp [lineDirectionActive, htx, h tx htx]
  exact ⟨hrest, fun k => if_neg (by rw [hrest]; nofun)⟩

theorem frameSent_of_sending (htx : s.line.transaction = some tx) (hsending : tx.sending = true) :
    frameSent s = { s with line := { s.line with transaction := some { tx with
      sending := false, responseTicks := param s 16, timeout := some (param s 16) } } } := by
  rw [frameSent, htx]
  exact if_pos hsending

/-- A character is passed over while none is awaited, and before the SOH. -/
theorem takeCharacter_passed {b : Byte} (h : s.line.transaction = none
      ∨ ∃ tx, s.line.transaction = some tx ∧ (tx.sending = true ∨ (tx.received = [] ∧ b ≠ 0x01))) :
    takeCharacter b s = s := by
  obtain hnone | ⟨tx, htx, hpassed⟩ := h
  · simp only [takeCharacter, hnone]
  · simp only [takeCharacter, htx]
    by_cases hsending : tx.sending = true
    · rw [if_pos hsending]
    · rw [if_neg hsending, if_pos (hpassed.resolve_left hsending)]

/-- A character that ends nothing joins the response. -/
theorem takeCharacter_joins {b : Byte} (htx : s.line.transaction = some tx) (hsending : tx.sending = false)
    (htaken : tx.received ≠ [] ∨ b = 0x01) (hlen : tx.received.length = 3 → b.toNat ≤ 120)
    (hends : 4 ≤ tx.received.length + 1 → tx.received.length + 1 ≠ at8 (tx.received ++ [b]) 3 + 6) :
    takeCharacter b s = withTransaction (some (oneMore tx b)) s := by
  have hlength : (tx.received ++ [b]).length = tx.received.length + 1 := by simp
  have hpart : ¬ responseWhole (tx.received ++ [b]) = true := by
    simp only [responseWhole, hlength, Bool.and_eq_true, decide_eq_true_eq, beq_iff_eq, not_and]
    exact hends
  rw [takeCharacter_taken htx hsending htaken, if_neg (by omega), if_neg hpart]

end

/-- Settles O42: the frame bit by bit, its end, and each character by what it finds. -/
theorem charactersAreTaken : Obligations.CharactersAreTaken := by
  unfold Obligations.CharactersAreTaken
  intro s hphase
  have hexec {f : State → State} := whenRunning_of_running (f := f) hphase
  refine ⟨fun tx htx hsending => ?_, fun hrest => transmitData_of_rest fun tx htx => ?_, fun b hpassed => ?_,
    fun b => rfl, fun b tx htx hsending htaken hlen hends => ?_⟩
  · obtain ⟨hactive, hdata⟩ := transmitData_of_sending hphase htx hsending
    refine ⟨hactive, fun i x hx => ?_, hexec.trans (congrArg _ (frameSent_of_sending htx hsending))⟩
    obtain ⟨hstart, hbits, hstop⟩ := characterBits_getD x
    simp only [hdata]
    refine ⟨(characters_getD (Nat.succ_pos 9) hx).trans hstart,
      (characters_getD (by decide) hx).trans (hstop 9 le_rfl), fun j => ?_⟩
    rw [Nat.add_assoc]
    exact (characters_getD (by omega) hx).trans (hbits j)
  · obtain hnone | ⟨tx', htx', hsending⟩ := hrest
    · rw [hnone] at htx
      cases htx
    · obtain rfl := Option.some.inj (htx.symm.trans htx')
      exact hsending
  · exact hexec.trans (congrArg _ (takeCharacter_passed hpassed))
  · exact hexec.trans (congrArg _ (takeCharacter_joins htx hsending htaken hlen hends))

end Sys2Proof.Machine

namespace Sys2Proof.Machine

open Sys2Proof.Safety

/-! ## The terminal selected (R139) -/

theorem eligible_iff (term : Terminal) : eligible term = true ↔ MayBeServed term := by
  cases h : term.state <;> simp [eligible, MayBeServed, h]

theorem not_eligible_iff (term : Terminal) : eligible term = false ↔ ¬ MayBeServed term := by
  rw [← eligible_iff, Bool.not_eq_true]

/-- The first of the numbered things that meets a test. -/
theorem find?_finRange_eq_some_iff {n : Nat} {p : Fin n → Bool} {x : Fin n} :
    (List.finRange n).find? p = some x ↔ p x = true ∧ ∀ y, y < x → p y = false := by
  rw [← Fin.find?_eq_find?_finRange, Fin.find?_eq_some_iff]

/-- The terminal to serve next is the one that R139 selects. -/
theorem nextTerminal_eq_some_iff (y : TermId) (s : State) : nextTerminal s.line = some y ↔ Selected y s := by
  simp only [nextTerminal, Selected]
  split
  · next x hx =>
    obtain ⟨hholds, hbelow⟩ := find?_finRange_eq_some_iff.mp hx
    constructor
    · rintro ⟨rfl⟩
      exact .inl ⟨hholds, fun z hz => Option.not_isSome_iff_eq_none.mp (ne_true_of_eq_false (hbelow z hz))⟩
    · rintro (⟨hy, hfirst⟩ | ⟨hnone, -⟩)
      · have hxy : ¬ x < y := fun hlt => by rw [hfirst x hlt] at hholds; cases hholds
        have hyx : ¬ y < x := fun hlt => by rw [hbelow y hlt] at hy; cases hy
        exact congrArg some (le_antisymm (not_lt.mp hyx) (not_lt.mp hxy))
      · rw [hnone x] at hholds
        cases hholds
  · next hnone =>
    have hall (z : TermId) : (s.line.terminals[z]).outstanding = none :=
      Option.not_isSome_iff_eq_none.mp (List.find?_eq_none.mp hnone z (List.mem_finRange z))
    rw [List.find?_map, Option.map_eq_some_iff]
    constructor
    · rintro ⟨j, hj, rfl⟩
      obtain ⟨hserved, hbefore⟩ := find?_finRange_eq_some_iff.mp hj
      exact .inr ⟨hall, j, rfl, (eligible_iff _).mp hserved, fun i hi => (not_eligible_iff _).mp (hbefore i hi)⟩
    · rintro (⟨hholds, -⟩ | ⟨-, j, rfl, hserved, hbefore⟩)
      · rw [hall y] at hholds
        cases hholds
      · exact ⟨j, find?_finRange_eq_some_iff.mpr
          ⟨(eligible_iff _).mpr hserved, fun i hi => (not_eligible_iff _).mpr (hbefore i hi)⟩, rfl⟩

section
variable {s : State}

/-- No selection during a transaction or a night poll gap. -/
theorem select_of_busy (h : s.line.transaction ≠ none ∨ s.line.gap ≠ none) : select s = s := by
  refine if_neg fun hfree => ?_
  rw [Bool.and_eq_true, Option.isNone_iff_eq_none, Bool.not_eq_true'] at hfree
  obtain htx | hgap := h
  · exact htx hfree.1
  · exact hgap (Option.not_isSome_iff_eq_none.mp (ne_true_of_eq_false hfree.2))

theorem select_of_none (h : ∀ y : TermId, ¬ Selected y s) : select s = s := by
  have hnone : nextTerminal s.line = none :=
    Option.eq_none_iff_forall_ne_some.mpr fun y hy => h y ((nextTerminal_eq_some_iff y s).mp hy)
  rw [select, hnone]
  exact ite_self s

/-- A free line serves the terminal selected. -/
theorem select_of_selected {y : TermId} (htx : s.line.transaction = none) (hgap : s.line.gap = none)
    (h : Selected y s) : select s = serve y s := by
  rw [select, (nextTerminal_eq_some_iff y s).mpr h, htx, hgap]
  rfl

/-! ### The frame that a state calls for (Table 8-1) -/

theorem hasPending_iff (term : Terminal) : hasPending term = true ↔ SomethingPending term := by
  have hrows : term.rows.toList.any (fun r => decide (r.pending ≠ 0)) = true
      ↔ ∃ i : Fin 16, (term.rows[i]).pending ≠ 0 := by
    rw [List.any_eq_true]
    constructor
    · rintro ⟨r, hr, hpending⟩
      obtain ⟨i, hi, rfl⟩ := Vector.getElem_of_mem (Vector.mem_toList_iff.mp hr)
      exact ⟨⟨i, hi⟩, of_decide_eq_true hpending⟩
    · rintro ⟨i, hpending⟩
      exact ⟨_, Vector.mem_toList_iff.mpr (Vector.getElem_mem i.isLt), decide_eq_true hpending⟩
  simp only [hasPending, SomethingPending, Bool.or_eq_true, hrows, Option.isSome_iff_ne_none, or_assoc]

section
variable {y : TermId}

theorem serve_of_absent (h : (s.line.terminals[y]).state = .absent) : serve y s
    = begun y .activate 0x10 [] (withTerm y { s.line.terminals[y] with probeDue := false } s) := by
  simp only [serve, h]
  rfl

theorem serve_of_activating (h : (s.line.terminals[y]).state = .activating) : serve y s
    = begun y .screenInit 0x11 [((s.line.terminals[y]).nextNumber - 1).zeroExtend 8] s := by
  simp only [serve, h]
  rfl

theorem serve_of_idle (h : (s.line.terminals[y]).state = .active) (hidle : ¬ SomethingPending s.line.terminals[y]) :
    serve y s = begun y .poll 0x12 [] s := by
  rw [← hasPending_iff] at hidle
  simp only [serve, h, hidle]
  rfl

theorem serve_of_pending (h : (s.line.terminals[y]).state = .active) (hpending : SomethingPending s.line.terminals[y]) :
    serve y s = begun y .update 0x13 (composeUpdate s s.line.terminals[y]).body
      (withTerm y (afterUpdate s.line.terminals[y] (composeUpdate s s.line.terminals[y])) s) := by
  simp only [serve, h, (hasPending_iff _).mpr hpending]
  rfl

theorem serve_of_recovery (h : (s.line.terminals[y]).state = .recovery) : serve y s = begun y .enquiry 0x14 [] s := by
  simp only [serve, h]
  rfl

end

end

/-- Settles O47: the two expiries, and the selection with the frame by the state. -/
theorem lineSelects : Obligations.LineSelects := by
  unfold Obligations.LineSelects
  intro s
  refine ⟨fun hphase => ⟨fun x k hk => ?_, fun k hk => ?_⟩, select_of_busy, select_of_none, fun y htx hgap hy => ?_⟩
  · have hexpire : probeExpire x s
        = select (withTerm x { s.line.terminals[x] with probeTimer := none, probeDue := true } s) :=
      if_pos (by rw [hk]; rfl)
    exact (whenRunning_of_running hphase).trans (congrArg _ hexpire)
  · have hexpire : gapExpire s = select { s with line := { s.line with gap := none } } := if_pos (by rw [hk]; rfl)
    exact (whenRunning_of_running hphase).trans (congrArg _ hexpire)
  · rw [select_of_selected htx hgap hy]
    exact ⟨serve_of_absent, serve_of_activating, serve_of_idle, serve_of_recovery⟩

end Sys2Proof.Machine

namespace Sys2Proof.Machine

open Sys2Proof.Safety

/-! ## The items of an UPDATE (R34, R177, Table 11-10) -/

theorem tradingStateCode_eq (state : TradingState) : tradingStateCode state = tradingNumber state := by
  cases state <;> rfl

theorem tickCode_eq (tick : Tick) : tickCode tick = tickNumber tick := by
  cases tick <;> rfl

theorem sessionCode_eq (session : SessionState) : sessionCode session = sessionNumber session := by
  cases session <;> rfl

theorem feedStateCode_eq (state : FeedState) : feedStateCode state = feedNumber state := by
  cases state <;> rfl

theorem resultCode_eq (code : ResultCode) : resultCode code = resultNumber code := by
  cases code <;> rfl

/-- A mask holds a name where its bit is set. -/
theorem namesMeet_twoPow (names : NameSet) (k : Nat) : namesMeet names (BitVec.twoPow 12 k) = names.getLsbD k := by
  rw [namesMeet, BitVec.and_twoPow]
  cases h : names.getLsbD k with
  | false => simp
  | true =>
    have hk : k < 12 := BitVec.lt_of_getLsbD h
    have hbit : BitVec.twoPow 12 k ≠ 0#12 := fun h0 => by
      have hself : (BitVec.twoPow 12 k).getLsbD k = true := by simp [hk]
      rw [h0] at hself
      simp at hself
    simpa using hbit

/-- The value of a name that a mask holds. -/
theorem part_eq (names : NameSet) (k : Nat) {name : NameSet} (hname : name = BitVec.twoPow 12 k) (value : List Byte) :
    rowValues.part names name value = if names.getLsbD k then value else [] := by
  rw [rowValues.part, hname, namesMeet_twoPow]

/-- The values of a row item, in the order of the mask's bits. -/
theorem rowValues_eq (r : QuoteRecord) (names : NameSet) : rowValues r names
    = (([symbolCells r.symbol, [tradingNumber r.state], optionalPriceCells r.denom r.last,
      changeCells r, [tickNumber r.tick], optionalPriceCells r.denom r.high,
      optionalPriceCells r.denom r.low, volumeCells r.volume, optionalPriceCells r.denom r.bid,
      optionalPriceCells r.denom r.ask, [flagByte r.stale]] : List (List Byte)).zipIdx).flatMap
        (fun v => if names.getLsbD v.2 then v.1 else []) := by
  rw [rowValues, tradingStateCode_eq, tickCode_eq, part_eq names 0 (name := nameSymbol) rfl,
    part_eq names 1 (name := nameState) rfl, part_eq names 2 (name := nameLast) rfl,
    part_eq names 3 (name := nameChange) rfl, part_eq names 4 (name := nameTick) rfl,
    part_eq names 5 (name := nameHigh) rfl, part_eq names 6 (name := nameLow) rfl,
    part_eq names 7 (name := nameVolume) rfl, part_eq names 8 (name := nameBid) rfl,
    part_eq names 9 (name := nameAsk) rfl, part_eq names 10 (name := nameStale) rfl]
  simp only [List.zipIdx_cons, List.zipIdx_nil, List.flatMap_cons, List.flatMap_nil, List.append_nil, List.append_assoc,
    Nat.zero_add, Nat.reduceAdd]

theorem rowItem_eq_itemOf (s : State) (i : Fin 16) (row : Row) : rowItem s i row = itemOf s i row := by
  rw [rowItem, itemOf]
  cases row.record with
  | none => rfl
  | some n => exact congrArg _ (rowValues_eq _ _)

theorem updateHead_eq (s : State) (term : Terminal) : updateHead s term = itemsBeforeRows s term := by
  rw [updateHead, itemsBeforeRows, statusItem, sessionCode_eq, feedStateCode_eq]
  cases term.result with
  | none => rfl
  | some r => simp only [resultCode_eq]

theorem itemsBeforeRows_length (s : State) (term : Terminal) : (itemsBeforeRows s term).length ≤ 120 := by
  rw [itemsBeforeRows]
  cases term.statusPending <;> cases term.result <;> cases s.time.clockSet <;> simp [bytes2]

/-! ## The rows of an UPDATE (R160) -/

/-- A row taken into an UPDATE: what was pending is in flight. -/
def takenRow (r : Row) : Row := { r with pending := 0, inFlight := r.pending }

/-- The rows at some places changed. -/
def changeRowsAt (f : Fin 16 → Row → Row) (places : List (Fin 16)) (rows : Vector Row 16) : Vector Row 16 :=
  Vector.ofFn fun i => if i ∈ places then f i rows[i] else rows[i]

/-- Where the next composition begins: behind the last row taken. -/
def behind (taken : List (Fin 16)) (rotation : Fin 16) : Fin 16 :=
  match taken.getLast? with
  | some i => i + 1
  | none => rotation

theorem changeRowsAt_nil (f : Fin 16 → Row → Row) (rows : Vector Row 16) : changeRowsAt f [] rows = rows := by
  ext i hi
  simp [changeRowsAt]

/-- One row changed, and then those at other places. -/
theorem changeRowsAt_cons (f : Fin 16 → Row → Row) {i : Fin 16} {places : List (Fin 16)} (hi : i ∉ places)
    (rows : Vector Row 16) : changeRowsAt f places (rows.set i (f i rows[i])) = changeRowsAt f (i :: places) rows := by
  apply Vector.ext
  intro j hj
  simp only [changeRowsAt, Vector.getElem_ofFn, List.mem_cons]
  by_cases hji : (⟨j, hj⟩ : Fin 16) = i
  · subst hji
    simp [hi]
  · have hne : i.val ≠ j := fun h => hji (Fin.ext h.symm)
    simp [hji, Vector.getElem_set_ne _ _ hne]

theorem behind_cons (i : Fin 16) (taken : List (Fin 16)) (rotation : Fin 16) :
    behind (i :: taken) rotation = behind taken (i + 1) := by
  cases taken with
  | nil => rfl
  | cons j rest => rw [behind, behind, List.getLast?_cons_cons, List.getLast?_cons]

/-- A row with nothing pending is passed over. -/
theorem composeRow_idle {s : State} {c : Composition} {i : Fin 16} (h : (c.rows[i]).pending = 0) : composeRow s c i = c :=
  if_pos (by rw [h]; simp)

/-- A row with something pending is taken where it has room. -/
theorem composeRow_pending (s : State) {c : Composition} {i : Fin 16} (hopen : c.full = false) (hroom : ¬ 4 ≤ c.taken)
    (h : (c.rows[i]).pending ≠ 0) : composeRow s c i
      = if 120 < c.body.length + (itemOf s i c.rows[i]).length then { c with full := true }
        else
          { rows := c.rows.set i (takenRow c.rows[i]), body := c.body ++ itemOf s i c.rows[i], taken := c.taken + 1,
            rotation := i + 1, full := false } := by
  refine (if_neg ?_).trans ?_
  · simp [hopen, hroom]
    exact h
  · simp only [rowItem_eq_itemOf]
    rfl

/-- A composition that takes no more rows. -/
theorem foldl_composeRow_closed (s : State) {c : Composition} (h : c.full = true ∨ 4 ≤ c.taken) (l : List (Fin 16)) :
    l.foldl (composeRow s) c = c := by
  have hone (i : Fin 16) : composeRow s c i = c := by
    refine if_pos ?_
    rcases h with h | h <;> simp [h]
  induction l with
  | nil => rfl
  | cons i rest ih => rw [List.foldl_cons, hone, ih]

/-- What a composition takes from the rows of a list, which still stand as they did when it began: the first `m` of
those with something pending, until four are taken, none is left, or the next has no room. -/
structure RowsComposed (s : State) (rows : Vector Row 16) (waiting : List (Fin 16)) (c t : Composition) (m : Nat) : Prop where
  le : m ≤ waiting.length
  taken : t.taken = c.taken + m
  body : t.body = c.body ++ (waiting.take m).flatMap fun i => itemOf s i rows[i]
  moved : t.rows = changeRowsAt (fun _ => takenRow) (waiting.take m) c.rows
  rotation : t.rotation = behind (waiting.take m) c.rotation
  four : t.taken ≤ 4
  room : t.body.length ≤ 120
  stops : t.taken = 4 ∨ m = waiting.length
    ∨ ∃ i, waiting[m]? = some i ∧ 120 < t.body.length + (itemOf s i rows[i]).length

theorem rowsComposed_none {s : State} {rows : Vector Row 16} {waiting : List (Fin 16)} {c t : Composition}
    (htaken : t.taken = c.taken) (hbody : t.body = c.body) (hrows : t.rows = c.rows) (hrotation : t.rotation = c.rotation)
    (hfour : c.taken ≤ 4) (hroom : c.body.length ≤ 120)
    (hstops : c.taken = 4 ∨ waiting = []
      ∨ ∃ i, waiting[0]? = some i ∧ 120 < c.body.length + (itemOf s i rows[i]).length) :
    RowsComposed s rows waiting c t 0 where
  le := Nat.zero_le _
  taken := htaken
  body := by simp [hbody]
  moved := by rw [List.take_zero, changeRowsAt_nil, hrows]
  rotation := hrotation
  four := htaken ▸ hfour
  room := hbody ▸ hroom
  stops := by
    rw [htaken, hbody]
    refine hstops.imp_right (Or.imp_left ?_)
    rintro rfl
    rfl

/-- By the list of rows: each is passed over, closes the composition, or is taken. -/
theorem rowsComposed_foldl (s : State) (rows : Vector Row 16) : ∀ (l : List (Fin 16)) (c : Composition), l.Nodup →
    (∀ i ∈ l, c.rows[i] = rows[i]) → c.taken ≤ 4 → c.body.length ≤ 120 → c.full = false →
    ∃ m, RowsComposed s rows (l.filter fun i => (rows[i]).pending ≠ 0) c (l.foldl (composeRow s) c) m
  | [], c, _, _, hfour, hroom, _ => ⟨0, rowsComposed_none rfl rfl rfl rfl hfour hroom (.inr (.inl rfl))⟩
  | i :: rest, c, hnodup, hrows, hfour, hroom, hopen => by
    obtain ⟨hi, hrest⟩ := List.nodup_cons.mp hnodup
    have hrow : c.rows[i] = rows[i] := hrows i List.mem_cons_self
    by_cases hclosed : 4 ≤ c.taken
    · rw [foldl_composeRow_closed s (.inr hclosed)]
      exact ⟨0, rowsComposed_none rfl rfl rfl rfl hfour hroom (.inl (le_antisymm hfour hclosed))⟩
    rw [List.foldl_cons]
    by_cases hpending : (rows[i]).pending = 0
    · rw [composeRow_idle (by rw [hrow, hpending]), List.filter_cons_of_neg (by simpa using hpending)]
      exact rowsComposed_foldl s rows rest c hrest (fun j hj => hrows j (List.mem_cons_of_mem i hj)) hfour hroom hopen
    have hone := composeRow_pending s hopen hclosed (i := i) (by rw [hrow]; exact hpending)
    rw [hrow] at hone
    rw [List.filter_cons_of_pos (by simpa using hpending)]
    by_cases hfits : 120 < c.body.length + (itemOf s i rows[i]).length
    · rw [hone, if_pos hfits, foldl_composeRow_closed s (.inl rfl)]
      exact ⟨0, rowsComposed_none rfl rfl rfl rfl hfour hroom (.inr (.inr ⟨i, rfl, hfits⟩))⟩
    · rw [if_neg hfits] at hone
      have hothers (j : Fin 16) (hj : j ∈ rest) : (composeRow s c i).rows[j] = rows[j] := by
        have hne : i.val ≠ j.val := fun h => hi (Fin.ext h ▸ hj)
        rw [hone]
        exact (Vector.getElem_set_ne i.isLt j.isLt hne).trans (hrows j (List.mem_cons_of_mem i hj))
      obtain ⟨m, h⟩ := rowsComposed_foldl s rows rest (composeRow s c i) hrest hothers
        (by rw [hone]; exact Nat.lt_of_not_le hclosed) (by rw [hone, List.length_append]; omega) (by rw [hone])
      refine ⟨m + 1, ?_⟩
      have htaken : (composeRow s c i).taken = c.taken + 1 := by rw [hone]
      have hbody : (composeRow s c i).body = c.body ++ itemOf s i rows[i] := by rw [hone]
      have hmoved : (composeRow s c i).rows = c.rows.set i (takenRow c.rows[i]) := by rw [hone, hrow]
      have hrotation : (composeRow s c i).rotation = i + 1 := by rw [hone]
      have hfresh : i ∉ (rest.filter fun j => (rows[j]).pending ≠ 0).take m :=
        fun hmem => hi (List.mem_of_mem_filter (List.mem_of_mem_take hmem))
      exact {
        le := Nat.succ_le_succ h.le
        taken := by rw [h.taken, htaken, Nat.add_assoc, Nat.add_comm 1]
        body := by rw [h.body, hbody, List.take_succ_cons, List.flatMap_cons, List.append_assoc]
        moved := by rw [h.moved, hmoved, List.take_succ_cons, changeRowsAt_cons (fun _ => takenRow) hfresh]
        rotation := by rw [h.rotation, hrotation, List.take_succ_cons, behind_cons]
        four := h.four
        room := h.room
        stops := h.stops.imp_right (Or.imp_left (congrArg Nat.succ)) }

/-- What a composition gives, of all rows in their order from the rotation on. -/
theorem composeUpdate_composed (s : State) (term : Terminal) : ∃ m, RowsComposed s term.rows
    (((List.finRange 16).map fun i => term.rotation + i).filter fun i => (term.rows[i]).pending ≠ 0)
    { rows := term.rows, body := itemsBeforeRows s term, taken := 0, rotation := term.rotation, full := false }
    (composeUpdate s term) m := by
  have hnodup : (rowOrder term.rotation).Nodup :=
    (List.nodup_finRange 16).map fun _ _ h => add_left_cancel h
  have hcomposed := rowsComposed_foldl s term.rows (rowOrder term.rotation)
    { rows := term.rows, body := itemsBeforeRows s term, taken := 0, rotation := term.rotation, full := false }
    hnodup (fun _ _ => rfl) (Nat.zero_le 4) (itemsBeforeRows_length s term) rfl
  rw [composeUpdate, updateHead_eq]
  exact hcomposed

/-- Settles O48: the composition row by row, and the terminal after it. -/
theorem updateIsComposed : Obligations.UpdateIsComposed := by
  unfold Obligations.UpdateIsComposed
  intro s y term waiting item htx hgap hy hstate hpending
  obtain ⟨m, h⟩ := composeUpdate_composed s term
  have htaken : (composeUpdate s term).taken = m := h.taken.trans (Nat.zero_add m)
  refine ⟨m, (composeUpdate s term).body, htaken ▸ h.four, h.le, h.body, h.room, htaken ▸ h.stops, ?_⟩
  rw [select_of_selected htx hgap hy, serve_of_pending hstate hpending]
  have hafter : afterUpdate term (composeUpdate s term) = { term with
      rows := changeRowsAt (fun _ => takenRow) (waiting.take m) term.rows, statusPending := false, statusInFlight := term.statusPending,
      result := none, outstanding := some term.nextNumber, rotation := behind (waiting.take m) term.rotation } := by
    rw [afterUpdate, h.moved, h.rotation]
  rw [hafter]
  rfl

end Sys2Proof.Machine

namespace Sys2Proof.Machine

open Sys2Proof.Safety

/-! ## The values of a TERMINAL entry (R164) -/

/-- The word of a row in a TERMINAL entry. -/
def rowWord (y : List Byte) (i : Fin 16) : Nat := at16 y (2 + 2 * i.val)

/-- The item that the entry gives a row. -/
def rowItemAt (y : List Byte) (i : Fin 16) : Option Nat := if rowWord y i = 0xFFFF then none else some (rowWord y i)

/-- Whether an entry fails by its own values. -/
def TerminalEntryFails (y : List Byte) : Prop :=
  1 < at8 y 0 ∨ 1 < at8 y 1 ∨ (∃ i, rowWord y i ≠ 0xFFFF ∧ 511 < rowWord y i)
    ∨ ∃ i j, i ≠ j ∧ rowWord y i = rowWord y j ∧ rowWord y i ≠ 0xFFFF

/-- A row item read: refused, or the item that the entry gives the row. -/
theorem rowItemOf_eq (y : List Byte) (i : Fin 16) : rowItemOf (rowWord y i)
    = if rowWord y i ≠ 0xFFFF ∧ 511 < rowWord y i then none else some (rowItemAt y i) := by
  rw [rowItemOf, rowItemAt]
  by_cases hnone : rowWord y i = 0xFFFF
  · simp [hnone]
  · by_cases hlarge : 511 < rowWord y i
    · simp [hnone, hlarge]
    · simp [hnone, hlarge, Nat.le_of_not_lt hlarge]

/-- Readings of a list's entries, one of which may be refused. -/
theorem mapM_eq_ite {α β : Type} {f : α → Option β} {bad : α → Prop} [DecidablePred bad] {g : α → β}
    (h : ∀ a, f a = if bad a then none else some (g a)) (l : List α) :
    l.mapM f = if ∃ a ∈ l, bad a then none else some (l.map g) := by
  induction l with
  | nil => simp
  | cons a rest ih =>
    rw [List.mapM_cons, h, ih]
    by_cases ha : bad a
    · simp [ha]
    · by_cases hrest : ∃ b ∈ rest, bad b
      · simp [ha, hrest]
      · simp [ha, hrest]

/-- The row items of an entry. -/
theorem rowItems_eq (y : List Byte) : (List.range 16).mapM (fun i => rowItemOf (at16 y (2 + 2 * i)))
    = if ∃ i, rowWord y i ≠ 0xFFFF ∧ 511 < rowWord y i then none else some ((List.finRange 16).map (rowItemAt y)) := by
  have hread := mapM_eq_ite (rowItemOf_eq y) (List.finRange 16)
  simp only [List.mem_finRange, true_and] at hread
  rw [← hread, ← List.map_coe_finRange_eq_range, List.mapM_map]
  rfl

/-- The item that two rows share. -/
theorem rowItemAt_eq_some_iff {y : List Byte} {i : Fin 16} {n : Nat} :
    rowItemAt y i = some n ↔ rowWord y i ≠ 0xFFFF ∧ rowWord y i = n := by
  rw [rowItemAt]
  split <;> simp [*]

/-- No record stands in two rows. -/
theorem rowItems_nodup_iff (y : List Byte) : (((List.finRange 16).map (rowItemAt y)).filterMap id).Nodup
    ↔ ¬ ∃ i j, i ≠ j ∧ rowWord y i = rowWord y j ∧ rowWord y i ≠ 0xFFFF := by
  have hshare (i j : Fin 16) : (∀ n, rowItemAt y i = some n → ∀ m, rowItemAt y j = some m → n ≠ m)
      ↔ (rowWord y i = rowWord y j → rowWord y i = 0xFFFF) := by
    simp only [rowItemAt_eq_some_iff]
    grind
  rw [List.filterMap_map, Function.id_comp, List.Nodup, List.pairwise_filterMap]
  simp only [hshare]
  constructor
  · rintro hpairs ⟨i, j, hne, hsame, hitem⟩
    have hsymm : Std.Symm fun i j => rowWord y i = rowWord y j → rowWord y i = 0xFFFF :=
      ⟨fun _ _ h hsame => hsame.trans (h hsame.symm)⟩
    exact hitem (hpairs.forall (List.mem_finRange i) (List.mem_finRange j) hne hsame)
  · intro hnone
    exact (List.nodup_finRange 16).pairwise_of_forall_ne fun i _ j _ hne hsame =>
      not_not.mp fun hitem => hnone ⟨i, j, hne, hsame, hitem⟩

/-- The entry read: none where it fails by its own values. -/
theorem terminalEntry_eq (y : List Byte) : terminalEntry y
    = if at8 y 0 ≤ 1 ∧ at8 y 1 ≤ 1 ∧ (¬ ∃ i, rowWord y i ≠ 0xFFFF ∧ 511 < rowWord y i)
        ∧ ¬ ∃ i j, i ≠ j ∧ rowWord y i = rowWord y j ∧ rowWord y i ≠ 0xFFFF then
      some { enabled := decide (at8 y 0 = 1), lock := decide (at8 y 1 = 1), rows := (List.finRange 16).map (rowItemAt y) }
      else none := by
  rw [terminalEntry, rowItems_eq]
  by_cases hlarge : ∃ i, rowWord y i ≠ 0xFFFF ∧ 511 < rowWord y i
  · rw [if_pos hlarge, if_neg fun h => h.2.2.1 hlarge]
  · rw [if_neg hlarge]
    simp only [rowItems_nodup_iff, hlarge, not_false_eq_true, true_and]
    rfl

theorem terminalEntry_of_fails {y : List Byte} (h : TerminalEntryFails y) : terminalEntry y = none := by
  rw [terminalEntry_eq, if_neg]
  rintro ⟨henabled, hlock, hitems, hpairs⟩
  rcases h with h | h | h | h
  · exact absurd henabled (Nat.not_le.mpr h)
  · exact absurd hlock (Nat.not_le.mpr h)
  · exact hitems h
  · exact hpairs h

theorem terminalEntry_of_not_fails {y : List Byte} (h : ¬ TerminalEntryFails y) : terminalEntry y
    = some { enabled := decide (at8 y 0 = 1), lock := decide (at8 y 1 = 1), rows := (List.finRange 16).map (rowItemAt y) } := by
  obtain ⟨henabled, hlock, hitems, hpairs⟩ := by simpa only [TerminalEntryFails, not_or] using h
  rw [terminalEntry_eq, if_pos ⟨Nat.le_of_not_lt henabled, Nat.le_of_not_lt hlock, hitems, hpairs⟩]

/-! ## The rows of a TERMINAL entry (R156, R164) -/

theorem changeWatch_watch (f : Nat → Nat) (n m : Nat) (s : State) :
    (tableGet (changeWatch f n s).records m).map (fun r => { r with watch := 0 })
      = (tableGet s.records m).map (fun r => { r with watch := 0 }) := by
  rw [changeWatch]
  cases hn : tableGet s.records n with
  | none => rfl
  | some r =>
    simp only [State.setRecords, tableGet_tableSet]
    split
    next h => rw [h, hn]; rfl
    next => rfl

theorem raiseWatch_watches (item : Option Nat) (s : State) : OnlyWatchChanges s (raiseWatch item s) := fun m =>
  match item with
  | none => rfl
  | some n => changeWatch_watch (· + 1) n m s

theorem lowerWatch_watches (item : Option Nat) (s : State) : OnlyWatchChanges s (lowerWatch item s) := fun m =>
  match item with
  | none => rfl
  | some n => changeWatch_watch (· - 1) n m s

/-- A row changed, at the records. -/
theorem changeRow_watches (x : TermId) (i : Fin 16) (item : Option Nat) (s : State) :
    OnlyWatchChanges s (changeRow x i item s) := fun m => by
  rw [changeRow_eq]
  exact (raiseWatch_watches item _ m).trans (lowerWatch_watches _ _ m)

theorem loadedRow_same {item : Option Nat} {row : Row} (h : row.record = item) : loadedRow item row = row := if_pos h

theorem loadedRow_other {item : Option Nat} {row : Row} (h : row.record ≠ item) : loadedRow item row = rowOfItem item :=
  (if_neg h).trans (by cases item <;> rfl)

theorem withTerm_line_self (x : TermId) (s : State) : (withTerm x s.line.terminals[x] s).line = s.line := by
  simp [withTerm]

/-- What the items of a TERMINAL entry for some of the rows do to a state. -/
structure RowsLoaded (x : TermId) (item : Fin 16 → Option Nat) (places : List (Fin 16)) (s t : State) : Prop where
  frame : t = { s with records := t.records, line := t.line }
  line : t.line = (withTerm x { s.line.terminals[x] with
    rows := changeRowsAt (fun i => loadedRow (item i)) places (s.line.terminals[x]).rows } s).line
  watches : OnlyWatchChanges s t

theorem rowsLoaded_one (x : TermId) (item : Fin 16 → Option Nat) (i : Fin 16) (s : State) :
    RowsLoaded x item [i] s (applyTerminalEntry.loadRow x (i, item i) s) := by
  have hrows (term : Terminal) : changeRowsAt (fun i => loadedRow (item i)) [i] term.rows
      = term.rows.set i (loadedRow (item i) term.rows[i]) := by
    rw [← changeRowsAt_cons _ List.not_mem_nil, changeRowsAt_nil]
  by_cases hsame : ((s.line.terminals[x]).rows[i]).record = item i
  · have hkeeps : applyTerminalEntry.loadRow x (i, item i) s = s := if_pos hsame
    rw [hkeeps]
    refine ⟨rfl, ?_, fun _ => rfl⟩
    have hself : (s.line.terminals[x]).rows.set i (s.line.terminals[x]).rows[i] = (s.line.terminals[x]).rows :=
      Vector.set_getElem_self _
    rw [hrows, loadedRow_same hsame, hself]
    exact (withTerm_line_self x s).symm
  · have hchanges : applyTerminalEntry.loadRow x (i, item i) s = changeRow x i (item i) s := if_neg hsame
    rw [hchanges]
    refine ⟨changeRow_frame x i (item i) s, ?_, changeRow_watches x i (item i) s⟩
    rw [changeRow_line, hrows, loadedRow_other hsame]
    rfl

theorem rowsLoaded_foldl (x : TermId) (item : Fin 16 → Option Nat) : ∀ (places : List (Fin 16)), places.Nodup → ∀ s : State,
    RowsLoaded x item places s (places.foldl (fun v i => applyTerminalEntry.loadRow x (i, item i) v) s)
  | [], _, s => ⟨rfl, by rw [changeRowsAt_nil]; exact (withTerm_line_self x s).symm, fun _ => rfl⟩
  | i :: rest, hnodup, s => by
    obtain ⟨hi, hrest⟩ := List.nodup_cons.mp hnodup
    have hone := rowsLoaded_one x item i s
    have hothers := rowsLoaded_foldl x item rest hrest (applyTerminalEntry.loadRow x (i, item i) s)
    refine ⟨?_, ?_, fun n => (hothers.watches n).trans (hone.watches n)⟩
    · have hframe := hothers.frame
      rw [hone.frame] at hframe
      rw [List.foldl_cons, hone.frame]
      exact hframe
    · rw [List.foldl_cons, hothers.line, ← changeRowsAt_cons _ hi]
      have hterm : (applyTerminalEntry.loadRow x (i, item i) s).line.terminals[x] = { s.line.terminals[x] with
          rows := (s.line.terminals[x]).rows.set i (loadedRow (item i) (s.line.terminals[x]).rows[i]) } := by
        rw [hone.line, ← changeRowsAt_cons _ List.not_mem_nil, changeRowsAt_nil]
        exact setTerm_same x _ s
      rw [hterm]
      simp only [withTerm, hone.line, Vector.set_set]

/-! ## The enabled flag (R151) -/

theorem setEnabled_frame (x : TermId) (enabled : Bool) (s : State) :
    setEnabled x enabled s = { s with line := (setEnabled x enabled s).line } := by
  rw [setEnabled]
  split
  · rfl
  split
  · split
    · rw [select_frame]; rfl
    · rfl
  split <;> rfl

/-- An enabled flag that goes with the terminal's own, at the terminal alone. -/
theorem setEnabled_withTerm (x : TermId) (enabled : Bool) (term : Terminal) (s : State) :
    setEnabled x enabled (withTerm x term s)
      = if term.enabled = enabled then withTerm x { term with enabled := enabled } s
        else if enabled then
          if term.state = .disabled then select (withTerm x (enabledTerm { term with enabled := enabled }) s)
          else withTerm x { term with enabled := enabled } s
        else if inTransaction s x then withTerm x { term with enabled := enabled } s
        else withTerm x (disabledTerm { term with enabled := enabled }) s := by
  change setEnabled x enabled (s.setTerm x term) = _
  simp only [setEnabled, setTerm_same, setTerm_setTerm]
  rfl

/-! ## A TERMINAL entry (R151, R164) -/

/-- What a TERMINAL entry stores before its enabled flag is looked at: the lock flag and the rows. -/
def storedTerm (y : List Byte) (term : Terminal) : Terminal :=
  { term with lock := decide (at8 y 1 = 1), rows := Vector.ofFn fun i => loadedRow (rowItemAt y i) term.rows[i] }

/-- Every record that an entry names is DEFINED. -/
theorem rowItems_defined_iff (y : List Byte) (u : State) :
    (((List.finRange 16).map (rowItemAt y)).filterMap id).all (fun n => (tableGet u.records n).isSome) = true
      ↔ ∀ i n, rowItemAt y i = some n → (tableGet u.records n).isSome = true := by
  rw [List.filterMap_map, Function.id_comp, List.all_eq_true]
  constructor
  · exact fun h i n hitem => h n (List.mem_filterMap.mpr ⟨i, List.mem_finRange i, hitem⟩)
  · intro h n hn
    obtain ⟨i, _, hitem⟩ := List.mem_filterMap.mp hn
    exact h i n hitem

/-- The lock flag and the rows of an entry, stored one after the other. -/
theorem storedTerm_loads (x : TermId) (y : List Byte) (u : State) : ∃ records,
    OnlyWatchChanges u { u with records := records }
      ∧ ((List.finRange 16).zip ((List.finRange 16).map (rowItemAt y))).foldl
          (fun v item => applyTerminalEntry.loadRow x item v)
          (u.setTerm x { u.line.terminals[x] with lock := decide (at8 y 1 = 1) })
        = withTerm x (storedTerm y u.line.terminals[x]) { u with records := records } := by
  have hpairs : (List.finRange 16).zip ((List.finRange 16).map (rowItemAt y))
      = (List.finRange 16).map fun i => (i, rowItemAt y i) := by
    rw [← List.zip_map', List.map_id']
  rw [hpairs, List.foldl_map]
  have hloaded := rowsLoaded_foldl x (rowItemAt y) (List.finRange 16) (List.nodup_finRange 16)
    (u.setTerm x { u.line.terminals[x] with lock := decide (at8 y 1 = 1) })
  generalize List.foldl _ _ (List.finRange 16) = t at hloaded ⊢
  refine ⟨t.records, hloaded.watches, hloaded.frame.trans ?_⟩
  rw [hloaded.line, setTerm_same]
  simp [withTerm, storedTerm, changeRowsAt, State.setTerm, State.setLine]

/-- An entry refused by its own values, or for a record that is EMPTY. -/
theorem applyTerminalTable_refused {x : TermId} {y : List Byte} {u : State}
    (h : TerminalEntryFails y ∨ ∃ i n, rowItemAt y i = some n ∧ tableGet u.records n = none) :
    applyTerminalTable x.val y u = none := by
  refine (dif_pos x.isLt).trans ?_
  by_cases hfails : TerminalEntryFails y
  · rw [applyTerminalEntry, terminalEntry_of_fails hfails]
  · obtain ⟨i, n, hitem, hempty⟩ := h.resolve_left hfails
    simp only [applyTerminalEntry, terminalEntry_of_not_fails hfails]
    refine if_neg fun hall => ?_
    have hdefined := (rowItems_defined_iff y u).mp hall i n hitem
    rw [hempty] at hdefined
    cases hdefined

/-- An entry accepted: the lock flag and the rows, and then the enabled flag. -/
theorem applyTerminalTable_accepted (x : TermId) {y : List Byte} {u : State} (hfails : ¬ TerminalEntryFails y)
    (hdefined : ∀ i n, rowItemAt y i = some n → (tableGet u.records n).isSome = true) : ∃ records,
    OnlyWatchChanges u { u with records := records }
      ∧ applyTerminalTable x.val y u = some { u with
        records := records,
        line := (setEnabled x (decide (at8 y 0 = 1))
          (withTerm x (storedTerm y u.line.terminals[x]) { u with records := records })).line } := by
  obtain ⟨records, hwatches, hloads⟩ := storedTerm_loads x y u
  refine ⟨records, hwatches, (dif_pos x.isLt).trans ?_⟩
  simp only [applyTerminalEntry, terminalEntry_of_not_fails hfails]
  rw [if_pos ((rowItems_defined_iff y u).mpr hdefined)]
  rw [hloads, setEnabled_frame]
  rfl

/-- Settles O23: the entry read, its rows one after the other, and the cases of the enabled flag. -/
theorem loadTerminalReplaces : Obligations.LoadTerminalReplaces := by
  unfold Obligations.LoadTerminalReplaces
  intro s e rest x u term y word item fails enabled lock hhead hload hone
  refine ⟨fun hfails hdefined => ?_, fun hrefused =>
    whenRunning_takeLoad_refused hhead hload hone x.isLt (applyTerminalTable_refused hrefused)⟩
  obtain ⟨records, hwatches, happly⟩ := applyTerminalTable_accepted (x := x) hfails hdefined
  refine ⟨_, whenRunning_takeLoad_accepted hhead hload hone x.isLt happly rfl rfl rfl, ?_, hwatches,
    ⟨rfl, rfl, rfl, rfl, rfl, rfl⟩, rfl, rfl, rfl, rfl, rfl, rfl, rfl⟩
  have hset := setEnabled_withTerm x enabled (storedTerm y term) { u with records := records }
  refine ⟨fun hkept => ?_, fun hon hwas hoff => ?_, fun hon hwas hruns => ?_, fun hoff hwas htx => ?_,
    fun hoff hwas htx => ?_⟩
  · exact (congrArg State.line (hset.trans (if_pos hkept.symm)) :)
  all_goals
    have hother : ¬ (storedTerm y term).enabled = enabled := fun h => by
      have hstored : term.enabled = enabled := h
      simp_all
    rw [if_neg hother] at hset
  · exact (congrArg State.line ((hset.trans (if_pos hon)).trans (if_pos hoff)) :)
  · exact (congrArg State.line ((hset.trans (if_pos hon)).trans (if_neg hruns)) :)
  · exact (congrArg State.line ((hset.trans (if_neg (Bool.eq_false_iff.mp hoff))).trans (if_pos htx)) :)
  · exact (congrArg State.line ((hset.trans (if_neg (Bool.eq_false_iff.mp hoff))).trans (if_neg (Bool.eq_false_iff.mp htx))) :)

end Sys2Proof.Machine

namespace Sys2Proof.Machine

open Sys2Proof.Safety

/-! ## A row changed, and the watch counts (R155, R156) -/

/-- What an item adds to the watch count of record m. -/
def itemCount (item : Option Nat) (m : Nat) : Nat := if item = some m then 1 else 0

theorem itemCount_self (m : Nat) : itemCount (some m) m = 1 := if_pos rfl

theorem itemCount_none (m : Nat) : itemCount none m = 0 := if_neg nofun

theorem itemCount_other {item : Option Nat} {m : Nat} (h : item ≠ some m) : itemCount item m = 0 := if_neg h

theorem tableGet_changeWatch (f : Nat → Nat) (n m : Nat) (s : State) : tableGet (changeWatch f n s).records m
    = (tableGet s.records m).map fun r => if m = n then { r with watch := f r.watch } else r := by
  rw [changeWatch]
  cases hn : tableGet s.records n with
  | none =>
    by_cases hm : m = n
    · rw [hm, hn]; rfl
    · simp [hm]
  | some r =>
    simp only [setRecords_records, tableGet_tableSet]
    by_cases hm : m = n
    · rw [hm, hn]; simp
    · simp [hm]

theorem tableGet_raiseWatch (item : Option Nat) (m : Nat) (s : State) : tableGet (raiseWatch item s).records m
    = (tableGet s.records m).map fun r => { r with watch := r.watch + itemCount item m } := by
  cases item with
  | none => simp [raiseWatch, itemCount]
  | some n =>
    rw [raiseWatch, tableGet_changeWatch]
    by_cases hm : m = n
    · simp [hm, itemCount]
    · simp [hm, itemCount, Ne.symm hm]

theorem tableGet_lowerWatch (item : Option Nat) (m : Nat) (s : State) : tableGet (lowerWatch item s).records m
    = (tableGet s.records m).map fun r => { r with watch := r.watch - itemCount item m } := by
  cases item with
  | none => simp [lowerWatch, itemCount]
  | some n =>
    rw [lowerWatch, tableGet_changeWatch]
    by_cases hm : m = n
    · simp [hm, itemCount]
    · simp [hm, itemCount, Ne.symm hm]

/-- A row changed, at each record: the count of what the row held falls, and that of what it comes to hold rises. -/
theorem tableGet_changeRow (x : TermId) (i : Fin 16) (item : Option Nat) (m : Nat) (s : State) :
    tableGet (changeRow x i item s).records m = (tableGet s.records m).map fun r => { r with
      watch := r.watch - itemCount ((s.line.terminals[x]).rows[i]).record m + itemCount item m } := by
  rw [changeRow_eq, tableGet_raiseWatch, tableGet_lowerWatch, Option.map_map]
  rfl

/-- A row changed and a result placed, told whole: the terminal, the records that no item names, and record n. -/
theorem taken_whole (x : TermId) (i : Fin 16) (item : Option Nat) (carried : Byte) (s : State) (n : Nat)
    (hothers : ∀ m, m ≠ n → ((s.line.terminals[x]).rows[i]).record ≠ some m ∧ item ≠ some m) :
    let t := placeResult x .accepted carried (changeRow x i item s)
    (t.line = (withTerm x { s.line.terminals[x] with
          rows := (s.line.terminals[x]).rows.set i (rowOfItem item),
          result := some { code := .accepted, row := carried } } s).line
        ∧ t = { s with records := t.records, line := t.line })
      ∧ KeepsOtherRecords n s t
      ∧ tableGet t.records n = (tableGet s.records n).map fun r => { r with
        watch := r.watch - itemCount ((s.line.terminals[x]).rows[i]).record n + itemCount item n } := by
  have hline := changeRow_line x i item s
  refine ⟨⟨?_, ?_⟩, fun m hm => ?_, tableGet_changeRow x i item n s⟩
  · simp [placeResult, hline, State.setTerm, State.setLine, withTerm]
  · rw [placeResult, State.setTerm, State.setLine, changeRow_frame x i item s]
  · obtain ⟨hold, hnew⟩ := hothers m hm
    refine (tableGet_changeRow x i item m s).trans ?_
    rw [itemCount_other hold, itemCount_other hnew]
    exact Option.map_id' ..

/-! ## The rows that a request looks for (R162, R163) -/

theorem rowNaming_eq_some_iff {term : Terminal} {n : Nat} {i : Fin 16} : rowNaming term n = some i
    ↔ (term.rows[i]).record = some n ∧ ∀ j, j < i → (term.rows[j]).record ≠ some n := by
  simp only [rowNaming, find?_finRange_eq_some_iff, decide_eq_true_eq, decide_eq_false_iff_not, ne_eq]

theorem rowNaming_eq_none_iff {term : Terminal} {n : Nat} :
    rowNaming term n = none ↔ ∀ i : Fin 16, (term.rows[i]).record ≠ some n := by
  simp [rowNaming]

/-- The row that an ADD takes is EMPTY: the named one, or for row 0 the lowest. -/
theorem rowForAdd_eq_some_iff {term : Terminal} {row : Nat} {i : Fin 16} : rowForAdd term row = some i
    ↔ (term.rows[i]).record = none
      ∧ (row = i.val + 1 ∨ (row = 0 ∧ ∀ j, j < i → (term.rows[j]).record ≠ none)) := by
  rw [rowForAdd]
  split
  next hzero =>
    subst hzero
    simp [find?_finRange_eq_some_iff, Option.isSome_iff_ne_none]
  next hnamed =>
    have hother (j : Fin 16) (hj : j < i) : row = i.val + 1 → j.val + 1 ≠ row := by omega
    simp only [find?_finRange_eq_some_iff, Bool.and_eq_true, decide_eq_true_eq, Option.isNone_iff_eq_none,
      Bool.and_eq_false_iff, decide_eq_false_iff_not, hnamed, false_and, or_false]
    constructor
    · rintro ⟨⟨hrow, hempty⟩, -⟩
      exact ⟨hempty, hrow.symm⟩
    · rintro ⟨hempty, hrow⟩
      exact ⟨⟨hrow.symm, hempty⟩, fun j hj => .inl (hother j hj hrow)⟩

theorem rowForAdd_eq_none_iff {term : Terminal} {row : Nat} : rowForAdd term row = none
    ↔ ∀ i : Fin 16, row = 0 ∨ row = i.val + 1 → (term.rows[i]).record ≠ none := by
  rw [rowForAdd]
  split
  next hzero => simp [hzero]
  next hnamed => simp [hnamed, eq_comm (a := row)]

/-- The row that a DROP names. -/
theorem rowNumber_eq_iff {i : Fin 16} {row : Byte} : rowNumber i = row ↔ row.toNat = i.val + 1 := by
  have hi := i.isLt
  rw [← BitVec.toNat_inj, rowNumber, byteOf, BitVec.toNat_ofNat, Nat.mod_eq_of_lt (by omega), eq_comm]

theorem rowDropped_eq_some {i : Fin 16} {row : Byte} (h : row.toNat = i.val + 1) :
    (List.finRange 16).find? (fun j => rowNumber j = row) = some i := by
  refine find?_of_unique (List.mem_finRange i) (decide_eq_true (rowNumber_eq_iff.mpr h)) fun j _ hj => ?_
  have hj' := rowNumber_eq_iff.mp (of_decide_eq_true hj)
  exact Fin.ext (by omega)

theorem rowDropped_eq_none {row : Byte} (h : row = 0 ∨ 16 < row.toNat) :
    (List.finRange 16).find? (fun j => rowNumber j = row) = none := by
  refine List.find?_eq_none.mpr fun j _ hj => ?_
  have hrow := rowNumber_eq_iff.mp (of_decide_eq_true hj)
  have hj := j.isLt
  rcases h with rfl | hlarge
  · exact absurd hrow nofun
  · omega

/-! ## A request applied, case by case (R162, R163) -/

section
variable {x : TermId} {s : State}

theorem applyAdd_locked (row : Nat) (c : SymbolCode) (h : (s.line.terminals[x]).lock = true) :
    applyAdd x row c s = placeResult x .locked (byteOf row) s := if_pos h

theorem applyAdd_unknown (row : Nat) {c : SymbolCode} (hlock : (s.line.terminals[x]).lock = false)
    (h : lookup s.directory c = none) : applyAdd x row c s = placeResult x .unknown (byteOf row) s := by
  simp only [applyAdd, hlock, h]
  rfl

/-- An ADD of a symbol that the directory holds, on a terminal that is not locked. -/
theorem applyAdd_known (row : Nat) {c : SymbolCode} {n : Nat} (hlock : (s.line.terminals[x]).lock = false)
    (h : lookup s.directory c = some n) : applyAdd x row c s
      = match rowNaming s.line.terminals[x] n, rowForAdd s.line.terminals[x] row with
        | some i, _ => placeResult x .duplicate (rowNumber i) s
        | none, none => placeResult x .full (byteOf row) s
        | none, some i => placeResult x .accepted (rowNumber i) (changeRow x i (some n) s) := by
  simp only [applyAdd, hlock, h]
  cases rowNaming s.line.terminals[x] n <;> cases rowForAdd s.line.terminals[x] row <;> rfl

theorem applyDrop_locked (row : Byte) (h : (s.line.terminals[x]).lock = true) :
    applyDrop x row s = placeResult x .locked row s := if_pos h

theorem applyDrop_badRow {row : Byte} (hlock : (s.line.terminals[x]).lock = false) (h : row = 0 ∨ 16 < row.toNat) :
    applyDrop x row s = placeResult x .badRow row s := by
  simp only [applyDrop, hlock, rowDropped_eq_none h]
  rfl

/-- A DROP of one of the 16 rows, on a terminal that is not locked. -/
theorem applyDrop_named {row : Byte} {i : Fin 16} (hlock : (s.line.terminals[x]).lock = false)
    (h : row.toNat = i.val + 1) : applyDrop x row s
      = if ((s.line.terminals[x]).rows[i]).record = none then placeResult x .emptyRow row s
        else placeResult x .accepted row (changeRow x i none s) := by
  simp only [applyDrop, hlock, rowDropped_eq_some h, Option.isNone_iff_eq_none]
  rfl

end

/-- Settles O45: the cases of R162 and of R163 in their order, each told by the row it finds. -/
theorem requestsAreApplied : Obligations.RequestsAreApplied := by
  unfold Obligations.RequestsAreApplied
  intro s x term answers takes
  refine ⟨fun row c _ => ⟨applyAdd_locked row c, applyAdd_unknown row, fun n hlock hknown => ?_⟩,
    fun row => ⟨applyDrop_locked row, applyDrop_badRow, fun i hlock hrow => ?_⟩⟩
  · have hadd := applyAdd_known (x := x) row hlock hknown
    refine ⟨fun i hnamed hbefore => ?_, fun hunnamed => ⟨fun hfull => ?_, fun i hempty hplace => ?_⟩⟩
    · rw [rowNaming_eq_some_iff.mpr ⟨hnamed, hbefore⟩] at hadd
      exact hadd
    · rw [rowNaming_eq_none_iff.mpr hunnamed, rowForAdd_eq_none_iff.mpr hfull] at hadd
      exact hadd
    · rw [rowNaming_eq_none_iff.mpr hunnamed, rowForAdd_eq_some_iff.mpr ⟨hempty, hplace⟩] at hadd
      have htaken := taken_whole x i (some n) (rowNumber i) s n fun m hm =>
        ⟨by rw [hempty]; nofun, fun hitem => hm (Option.some.inj hitem).symm⟩
      rw [hempty, itemCount_self, itemCount_none] at htaken
      change applyRequest x (some (.add row c)) s = _ at hadd
      rw [hadd]
      exact htaken
  · have hdrop := applyDrop_named (x := x) hlock hrow
    refine ⟨fun hempty => hdrop.trans (if_pos hempty), fun n hnamed => ?_⟩
    have htaken := taken_whole x i none row s n fun m hm =>
      ⟨fun hold => hm (Option.some.inj (hold.symm.trans hnamed)), nofun⟩
    rw [hnamed, itemCount_self, itemCount_none] at htaken
    change applyRequest x (some (.drop row)) s = _ at hdrop
    rw [hdrop, if_neg (by rw [hnamed]; nofun)]
    exact htaken

end Sys2Proof.Machine

namespace Sys2Proof.Machine

open Sys2Proof.Safety

/-! ## The rows that name a record, and its watch count, as sums (R156) -/

/-- The watch count of record n: 0 while it is EMPTY. -/
def watchCount (records : Table QuoteRecord) (n : Nat) : Nat := ((tableGet records n).map QuoteRecord.watch).getD 0

/-- The rows of a line that name record n. -/
def lineNaming (l : TerminalLine) (n : Nat) : Nat :=
  ∑ x : TermId, rowsNaming l.terminals[x] n

theorem watchCount_of_some {records : Table QuoteRecord} {n : Nat} {r : QuoteRecord} (h : tableGet records n = some r) :
    watchCount records n = r.watch := by rw [watchCount, h]; rfl

theorem watchCount_of_none {records : Table QuoteRecord} {n : Nat} (h : tableGet records n = none) :
    watchCount records n = 0 := by rw [watchCount, h]; rfl

theorem watchCount_tableSet (records : Table QuoteRecord) (n m : Nat) (r : QuoteRecord) :
    watchCount (tableSet records n r) m = if m = n then r.watch else watchCount records m := by
  simp only [watchCount, tableGet_tableSet]
  split <;> rfl

theorem sum_map_toList {α : Type} {k : Nat} (f : α → Nat) (v : Vector α k) :
    (v.toList.map f).sum = ∑ i : Fin k, f v[i] := by
  have hlist : v.toList = List.ofFn fun i : Fin k => v[i] := by
    rw [← Vector.toList_ofFn]
    simp
  rw [hlist, List.map_ofFn, List.sum_ofFn]
  rfl

theorem countP_eq_sum_map {α : Type} (p : α → Bool) (l : List α) :
    l.countP p = (l.map fun a => if p a then 1 else 0).sum := by
  induction l with
  | nil => rfl
  | cons a rest ih => rw [List.countP_cons, ih, List.map_cons, List.sum_cons, Nat.add_comm]

theorem rowsNaming_eq (term : Terminal) (n : Nat) :
    rowsNaming term n = ∑ i : Fin 16, itemCount (term.rows[i]).record n := by
  rw [rowsNaming, countP_eq_sum_map, sum_map_toList]
  simp only [beq_iff_eq, itemCount]

theorem allRowsNaming_eq (s : State) (n : Nat) : allRowsNaming s n = lineNaming s.line n := by
  rw [allRowsNaming, sum_map_toList, lineNaming]

/-- R156, as one equation. -/
theorem watchExact_iff (s : State) : WatchExact s ↔ ∀ n, watchCount s.records n = lineNaming s.line n := by
  simp only [WatchExact, allRowsNaming_eq, ← forall_and]
  refine forall_congr' fun n => ?_
  cases h : tableGet s.records n with
  | none => simp [watchCount_of_none h, eq_comm]
  | some r => simp [watchCount_of_some h]

/-- Two sums that differ in one term. -/
theorem sum_add_of_eq_off {ι : Type} [Fintype ι] [DecidableEq ι] {f g : ι → Nat} {i : ι} (h : ∀ j, j ≠ i → g j = f j) :
    ∑ j, g j + f i = ∑ j, f j + g i := by
  rw [← Finset.add_sum_erase _ g (Finset.mem_univ i), ← Finset.add_sum_erase _ f (Finset.mem_univ i),
    Finset.sum_congr rfl fun j hj => h j (Finset.ne_of_mem_erase hj)]
  ring

/-- One row replaced, at the terminal's rows that name a record. -/
theorem rowsNaming_setRow (term : Terminal) (i : Fin 16) (row : Row) (n : Nat) :
    rowsNaming { term with rows := term.rows.set i row } n + itemCount (term.rows[i]).record n
      = rowsNaming term n + itemCount row.record n := by
  rw [rowsNaming_eq, rowsNaming_eq]
  have hothers (j : Fin 16) (hj : j ≠ i) : (term.rows.set i row)[j] = term.rows[j] :=
    Vector.getElem_set_ne _ _ fun h => hj (Fin.ext h.symm)
  have hrow : (term.rows.set i row)[i] = row := Vector.getElem_set_self _
  have hsum := sum_add_of_eq_off (i := i) (f := fun j : Fin 16 => itemCount (term.rows[j]).record n)
    (g := fun j : Fin 16 => itemCount ((term.rows.set i row)[j]).record n) fun j hj => by rw [hothers j hj]
  rw [hrow] at hsum
  exact hsum

/-- One terminal replaced, at the line's rows that name a record. -/
theorem lineNaming_setTerm (x : TermId) (term : Terminal) (s : State) (n : Nat) :
    lineNaming (s.setTerm x term).line n + rowsNaming s.line.terminals[x] n
      = lineNaming s.line n + rowsNaming term n := by
  have hsum := sum_add_of_eq_off (i := x) (f := fun y : TermId => rowsNaming s.line.terminals[y] n)
    (g := fun y : TermId => rowsNaming (s.setTerm x term).line.terminals[y] n) fun y hy => by rw [setTerm_other hy]
  rw [setTerm_same] at hsum
  exact hsum

theorem rowOfItem_record (item : Option Nat) : (rowOfItem item).record = item := by cases item <;> rfl

/-- A row changed, at the line's rows that name a record. -/
theorem lineNaming_changeRow (x : TermId) (i : Fin 16) (item : Option Nat) (s : State) (n : Nat) :
    lineNaming (changeRow x i item s).line n + itemCount ((s.line.terminals[x]).rows[i]).record n
      = lineNaming s.line n + itemCount item n := by
  have hterm := rowsNaming_setRow s.line.terminals[x] i (rowOfItem item) n
  have hline := lineNaming_setTerm x { s.line.terminals[x] with
    rows := (s.line.terminals[x]).rows.set i (rowOfItem item) } s n
  rw [rowOfItem_record] at hterm
  rw [changeRow_line]
  dsimp only at hterm hline ⊢
  omega

/-- A row changed, at the watch counts, where the row comes to name a DEFINED record or none. -/
theorem watchCount_changeRow {x : TermId} {i : Fin 16} {item : Option Nat} {s : State}
    (hdefined : ∀ n, item = some n → (tableGet s.records n).isSome = true) (n : Nat) :
    watchCount (changeRow x i item s).records n
      = watchCount s.records n - itemCount ((s.line.terminals[x]).rows[i]).record n + itemCount item n := by
  rw [watchCount, tableGet_changeRow]
  cases hn : tableGet s.records n with
  | some r => rw [watchCount_of_some hn]; rfl
  | none =>
    have hitem : item ≠ some n := fun heq => by
      have hsome := hdefined n heq
      rw [hn] at hsome
      cases hsome
    rw [watchCount_of_none hn, itemCount_other hitem, Nat.zero_sub]
    rfl

/-- R156 is kept by a row that comes to hold another item, of a DEFINED record or none. -/
theorem watchExact_changeRow {x : TermId} {i : Fin 16} {item : Option Nat} {s : State}
    (hother : ((s.line.terminals[x]).rows[i]).record ≠ item)
    (hdefined : ∀ n, item = some n → (tableGet s.records n).isSome = true) (h : WatchExact s) :
    WatchExact (changeRow x i item s) := by
  rw [watchExact_iff] at h ⊢
  intro n
  have hline := lineNaming_changeRow x i item s n
  rw [watchCount_changeRow hdefined, h n]
  by_cases hnew : item = some n
  · rw [itemCount_other (hnew ▸ hother)] at hline ⊢
    omega
  · rw [itemCount_other hnew] at hline ⊢
    omega

end Sys2Proof.Machine

namespace Sys2Proof.Machine

open Sys2Proof.Safety

/-! ## Rows that stand: what they name and their form are kept (R155) -/

/-- A row that goes on naming what it names, its sets still of the form that fits it. -/
structure RowStands (a b : Row) : Prop where
  record : b.record = a.record
  form : RowForm a → RowForm b

namespace RowStands

variable {a b c : Row}

theorem refl (a : Row) : RowStands a a := ⟨rfl, id⟩

theorem trans (h : RowStands a b) (h' : RowStands b c) : RowStands a c := ⟨h'.record.trans h.record, h'.form ∘ h.form⟩

end RowStands

/-- A terminal whose rows stand. -/
def TermStands (a b : Terminal) : Prop := ∀ i : Fin 16, RowStands a.rows[i] b.rows[i]

/-- A line whose rows stand. -/
def LineStands (l l' : TerminalLine) : Prop := ∀ x : TermId, TermStands l.terminals[x] l'.terminals[x]

namespace TermStands

variable {a b c : Terminal}

theorem of_rows (h : b.rows = a.rows) : TermStands a b := fun i => by
  rw [h]
  exact .refl _

theorem refl (a : Terminal) : TermStands a a := of_rows rfl

theorem trans (h : TermStands a b) (h' : TermStands b c) : TermStands a c := fun i => (h i).trans (h' i)

/-- Every row changed alike. -/
theorem map {f : Row → Row} (h : ∀ r, RowStands r (f r)) (hrows : b.rows = a.rows.map f) : TermStands a b := fun i => by
  have hi : (a.rows.map f)[i] = f a.rows[i] := Vector.getElem_map ..
  rw [hrows, hi]
  exact h _

theorem rowsNaming_same (h : TermStands a b) (n : Nat) : rowsNaming b n = rowsNaming a n := by
  rw [rowsNaming_eq, rowsNaming_eq]
  exact Finset.sum_congr rfl fun i _ => by rw [(h i).record]

end TermStands

namespace LineStands

variable {l l' l'' : TerminalLine}

theorem of_terminals (h : l'.terminals = l.terminals) : LineStands l l' := fun x => by
  rw [h]
  exact .refl _

theorem of_eq (h : l' = l) : LineStands l l' := of_terminals (congrArg _ h)

theorem refl (l : TerminalLine) : LineStands l l := of_terminals rfl

theorem trans (h : LineStands l l') (h' : LineStands l' l'') : LineStands l l'' := fun x => (h x).trans (h' x)

/-- Every terminal changed alike. -/
theorem map {f : Terminal → Terminal} (h : ∀ t, TermStands t (f t)) (hterms : l'.terminals = l.terminals.map f) :
    LineStands l l' := fun x => by
  have hx : (l.terminals.map f)[x] = f l.terminals[x] := Vector.getElem_map ..
  rw [hterms, hx]
  exact h _

/-- One terminal replaced. -/
theorem setTerm {x : TermId} {term : Terminal} {s : State} (h : TermStands s.line.terminals[x] term) :
    LineStands s.line (s.setTerm x term).line := fun y => by
  by_cases hy : y = x
  · rw [hy, setTerm_same]
    exact h
  · rw [setTerm_other hy]
    exact .refl _

theorem lineNaming_same (h : LineStands l l') (n : Nat) : lineNaming l' n = lineNaming l n :=
  Finset.sum_congr rfl fun x _ => (h x).rowsNaming_same n

end LineStands

/-! ## The sets of a row -/

/-- A set of names without CLEAR. -/
def WithoutClear (names : NameSet) : Prop := names &&& nameClear = 0

theorem withoutClear_zero : WithoutClear 0 := rfl

theorem withoutClear_allNames : WithoutClear allNames := rfl

theorem withoutClear_or {a b : NameSet} (ha : WithoutClear a) (hb : WithoutClear b) : WithoutClear (a ||| b) := by
  rw [WithoutClear, BitVec.and_comm, BitVec.and_or_distrib_left, BitVec.and_comm, ha, BitVec.and_comm, hb]
  rfl

theorem withoutClear_and (a : NameSet) {b : NameSet} (hb : WithoutClear b) : WithoutClear (a &&& b) := by
  rw [WithoutClear, BitVec.and_assoc, hb]
  exact BitVec.and_zero

theorem withoutClear_nameIf (condition : Bool) {name : NameSet} (h : WithoutClear name) :
    WithoutClear (nameIf condition name) := by
  cases condition with
  | false => exact withoutClear_zero
  | true => exact h

theorem withoutClear_differingNames (r r' : QuoteRecord) : WithoutClear (differingNames r r') := by
  unfold differingNames
  iterate 8 refine withoutClear_or ?_ (withoutClear_nameIf _ rfl)
  exact withoutClear_nameIf _ rfl

theorem withoutClear_tradeNames (condition : Condition) (r r' : QuoteRecord) :
    WithoutClear (tradeNames condition r r') :=
  withoutClear_or (withoutClear_and _ rfl)
    (withoutClear_nameIf _ (withoutClear_or (withoutClear_or rfl rfl) (withoutClear_and _ rfl)))

theorem withoutClear_quoteNames (r r' : QuoteRecord) : WithoutClear (quoteNames r r') := withoutClear_and _ rfl

theorem withoutClear_recapNames (r r' : QuoteRecord) : WithoutClear (recapNames r r') :=
  withoutClear_or (withoutClear_or (withoutClear_differingNames r r') (withoutClear_nameIf _ rfl))
    (withoutClear_nameIf _ rfl)

theorem withoutClear_staticNames (r r' : QuoteRecord) : WithoutClear (staticNames r r') :=
  withoutClear_or (withoutClear_or (withoutClear_nameIf _ rfl) (withoutClear_and _ rfl)) (withoutClear_nameIf _ rfl)

/-- The sets that fit a row: names without CLEAR where it names a record, and CLEAR or nothing where it is EMPTY. -/
def SetFits (record : Option Nat) (names : NameSet) : Prop :=
  match record with
  | some _ => WithoutClear names
  | none => names = 0 ∨ names = nameClear

theorem rowForm_iff (r : Row) : RowForm r ↔ SetFits r.record r.pending ∧ SetFits r.record r.inFlight := by
  obtain ⟨record, pending, inFlight⟩ := r
  cases record <;> simp [RowForm, SetFits, WithoutClear]

theorem setFits_zero (record : Option Nat) : SetFits record 0 :=
  match record with
  | some _ => rfl
  | none => .inl rfl

theorem setFits_or {record : Option Nat} {a b : NameSet} (ha : SetFits record a) (hb : SetFits record b) :
    SetFits record (a ||| b) := by
  cases record with
  | some n => exact withoutClear_or ha hb
  | none =>
    rcases ha with rfl | rfl
    · have hzero : (0 : NameSet) ||| b = b := BitVec.zero_or
      rw [hzero]
      exact hb
    · rcases hb with rfl | rfl
      · exact .inr rfl
      · exact .inr rfl

/-- A row whose sets are made anew, of sets that fit it. -/
theorem rowStands_of_fits {r : Row} {pending inFlight : NameSet}
    (h : SetFits r.record r.pending → SetFits r.record r.inFlight →
      SetFits r.record pending ∧ SetFits r.record inFlight) :
    RowStands r { r with pending := pending, inFlight := inFlight } :=
  ⟨rfl, fun hr => (rowForm_iff _).mpr (h ((rowForm_iff r).mp hr).1 ((rowForm_iff r).mp hr).2)⟩

/-- Names gained by the rows of some records (R157). -/
theorem rowGains_stands {names : NameSet} (h : WithoutClear names) (p : Nat → Bool) (r : Row) :
    RowStands r (rowGains names p r) := by
  obtain ⟨record, pending, inFlight⟩ := r
  cases record with
  | none => exact .refl _
  | some n =>
    rw [rowGains]
    split
    · exact rowStands_of_fits fun hp hf => ⟨withoutClear_or hp h, hf⟩
    · exact .refl _

theorem rowForm_rowOfItem (item : Option Nat) : RowForm (rowOfItem item) := by
  rw [rowForm_iff]
  cases item with
  | none => exact ⟨.inr rfl, .inl rfl⟩
  | some n => exact ⟨withoutClear_allNames, withoutClear_zero⟩

/-! ### What the controller does to the sets of a terminal (R148, R159, R161) -/

theorem clearSets_stands (t : Terminal) : TermStands t (clearSets t) :=
  .map (fun _ => rowStands_of_fits fun _ _ => ⟨setFits_zero _, setFits_zero _⟩) rfl

theorem settleAccepted_stands (t : Terminal) : TermStands t (settleAccepted t) :=
  .map (fun _ => rowStands_of_fits fun hp _ => ⟨hp, setFits_zero _⟩) rfl

theorem settleRefused_stands (t : Terminal) : TermStands t (settleRefused t) :=
  .map (fun _ => rowStands_of_fits fun hp hf => ⟨setFits_or hp hf, setFits_zero _⟩) rfl

theorem activateRows_stands (t : Terminal) : TermStands t (activateRows t) := by
  refine .map (fun r => rowStands_of_fits fun _ _ => ⟨?_, setFits_zero _⟩) rfl
  cases r.record with
  | some n => exact withoutClear_allNames
  | none => exact .inl rfl

/-- A row examined goes in flight, or stays (R160). -/
theorem composeRow_stands (s : State) (c : Composition) (i j : Fin 16) :
    RowStands c.rows[j] (composeRow s c i).rows[j] := by
  have htaken : RowStands c.rows[i] (takenRow c.rows[i]) := rowStands_of_fits fun hp _ => ⟨setFits_zero _, hp⟩
  simp only [composeRow]
  split
  · exact .refl _
  · split
    · exact .refl _
    · by_cases hij : i = j
      · subst hij
        have hrow : (c.rows.set i (takenRow c.rows[i]))[i] = takenRow c.rows[i] := Vector.getElem_set_self _
        change RowStands c.rows[i] (c.rows.set i (takenRow c.rows[i]))[i]
        rw [hrow]
        exact htaken
      · have hrow : (c.rows.set i (takenRow c.rows[i]))[j] = c.rows[j] :=
          Vector.getElem_set_ne _ _ fun h => hij (Fin.ext h)
        change RowStands c.rows[j] (c.rows.set i (takenRow c.rows[i]))[j]
        rw [hrow]
        exact .refl _

theorem composeUpdate_stands (s : State) (t : Terminal) : TermStands t (afterUpdate t (composeUpdate s t)) := by
  have hall (places : List (Fin 16)) : ∀ (c : Composition) (j : Fin 16),
      RowStands c.rows[j] (places.foldl (composeRow s) c).rows[j] := by
    induction places with
    | nil => exact fun c j => .refl _
    | cons i rest ih => exact fun c j => (composeRow_stands s c i j).trans (ih _ j)
  exact hall (rowOrder t.rotation)
    { rows := t.rows, body := updateHead s t, taken := 0, rotation := t.rotation, full := false }

end Sys2Proof.Machine

namespace Sys2Proof.Machine

open Sys2Proof.Safety

/-! ## States whose rows and watch counts stand (R155, R156) -/

/-- The rows stand, and every watch count. -/
structure RowsStand (s t : State) : Prop where
  line : LineStands s.line t.line
  counts : ∀ n, watchCount t.records n = watchCount s.records n

theorem records_of_view {s t : State} (h : t.recordView = s.recordView) : t.records = s.records :=
  congrArg RecordView.records h

namespace RowsStand

variable {s t u : State}

theorem of_line (hview : t.recordView = s.recordView) (h : LineStands s.line t.line) : RowsStand s t :=
  ⟨h, fun n => by rw [records_of_view hview]⟩

theorem of_records (hline : t.line = s.line) (h : ∀ n, watchCount t.records n = watchCount s.records n) :
    RowsStand s t := ⟨.of_eq hline, h⟩

theorem of_same (hview : t.recordView = s.recordView) (hline : t.line = s.line) : RowsStand s t :=
  of_line hview (.of_eq hline)

theorem refl (s : State) : RowsStand s s := of_same rfl rfl

theorem trans (h : RowsStand s t) (h' : RowsStand t u) : RowsStand s u :=
  ⟨h.line.trans h'.line, fun n => (h'.counts n).trans (h.counts n)⟩

/-- And then what touches neither. -/
theorem same (h : RowsStand s t) (hview : u.recordView = t.recordView) (hline : u.line = t.line) : RowsStand s u :=
  h.trans (of_same hview hline)

/-- The same, from a state with the same rows and records. -/
theorem after (hview : t.recordView = s.recordView) (hline : t.line = s.line) (h : RowsStand t u) : RowsStand s u :=
  (of_same hview hline).trans h

/-- One terminal replaced. -/
theorem setTerm {x : TermId} {term : Terminal} (h : TermStands s.line.terminals[x] term) :
    RowsStand s (s.setTerm x term) := of_line rfl (.setTerm h)

/-- Operations taken one after the other from a list. -/
theorem foldl {α : Type} {f : State → α → State} (h : ∀ s a, RowsStand s (f s a)) :
    ∀ (l : List α) (s : State), RowsStand s (l.foldl f s)
  | [], s => refl s
  | a :: rest, s => (h s a).trans (foldl h rest _)

end RowsStand

section
variable (s : State)

/-! ### Hand-offs (R12, R150, R157) -/

theorem statusLinesPending_rowsStand : RowsStand s (statusLinesPending s) := by
  refine .of_line (recordView_statusLinesPending s) (.map (fun t => ?_) rfl)
  split
  · exact .of_rows rfl
  · exact .refl t

theorem handNames_rowsStand (n : Nat) {names : NameSet} (h : WithoutClear names) :
    RowsStand s (handNames n names s) := by
  refine .of_line (recordView_handNames s n names) ?_
  rw [handNames_frame, lineWithNames_eq]
  exact .map (fun t => .map (rowGains_stands h _) rfl) rfl

/-- A record made anew with the watch count that it has. -/
theorem updateRecord_rowsStand {n : Nat} {r : QuoteRecord} {names : NameSet} (hwatch : r.watch = watchCount s.records n)
    (hnames : WithoutClear names) : RowsStand s (updateRecord n r names s) := by
  refine .trans (t := s.setRecords (tableSet s.records n r)) ?_ (handNames_rowsStand _ n hnames)
  refine .of_records rfl fun m => ?_
  rw [setRecords_records, watchCount_tableSet]
  split
  next hm => rw [hm, hwatch]
  next => rfl

/-- A DEFINED record updated. -/
theorem updateDefined_rowsStand {n : Nat} {r r' : QuoteRecord} {names : NameSet} (hget : tableGet s.records n = some r)
    (hwatch : r'.watch = r.watch) (hnames : WithoutClear names) : RowsStand s (updateRecord n r' names s) :=
  updateRecord_rowsStand s (hwatch.trans (watchCount_of_some hget).symm) hnames

/-! ### Market data (R13 to R22) -/

theorem tradedRecord_watch (q : TradeItems) (r : QuoteRecord) : (tradedRecord q r).watch = r.watch := by
  rw [tradedRecord]
  split <;> rfl

theorem recappedRecord_watch (lost : Bool) (q : RecapItems) (r : QuoteRecord) :
    (recappedRecord lost q r).watch = r.watch := by
  simp only [recappedRecord, adjustRange]
  split <;> rfl

theorem markAllStale_rowsStand : RowsStand s (markAllStale s) := by
  refine .foldl (fun v n => ?_) _ s
  simp only [markStale]
  split
  · next r hr =>
    split
    · exact .refl v
    · exact updateDefined_rowsStand v hr rfl rfl
  · exact .refl v

theorem afterGap_rowsStand (e : IntakeEntry) : RowsStand s (afterGap e s) := by
  rw [afterGap]
  split
  · exact markAllStale_rowsStand s
  · exact .refl s

theorem applyTrade_rowsStand (q : TradeItems) : RowsStand s (applyTrade q s) := by
  simp only [applyTrade]
  split
  · exact .refl s
  · split
    · exact .refl s
    · next r hr =>
      have hupdate := updateDefined_rowsStand s hr (tradedRecord_watch q r)
        (withoutClear_tradeNames q.condition r (tradedRecord q r))
      split
      · exact hupdate.same (recordView_offerPrint _ _) (offerPrint_line _ _)
      · exact hupdate

theorem applyQuote_rowsStand (q : QuoteItems) : RowsStand s (applyQuote q s) := by
  simp only [applyQuote]
  split
  · exact .refl s
  · split
    · exact .refl s
    · next r hr => exact updateDefined_rowsStand s hr rfl (withoutClear_quoteNames _ _)

theorem applySymbolState_rowsStand (q : SymbolStateItems) : RowsStand s (applySymbolState q s) := by
  simp only [applySymbolState]
  split
  · exact .refl s
  · split
    · exact .refl s
    · next r hr =>
      have hupdate := updateDefined_rowsStand s (r' := { r with state := stateAfter q.halt r })
        (names := nameState) hr rfl rfl
      split
      · exact .refl s
      · split
        · exact hupdate
        · exact hupdate.same (recordView_offerText _ _ _) (offerText_line _ _ _)

theorem applyRecap_rowsStand (q : RecapItems) : RowsStand s (applyRecap q s) := by
  simp only [applyRecap]
  split
  · exact .refl s
  · split
    · exact .refl s
    · next r hr => exact updateDefined_rowsStand s hr (recappedRecord_watch _ q r) (withoutClear_recapNames _ _)

theorem recordsDayReset_rowsStand : RowsStand s (recordsDayReset s) := by
  refine .foldl (fun v n => ?_) _ s
  simp only [dayResetOne]
  split
  · next r hr => exact updateDefined_rowsStand v hr rfl withoutClear_allNames
  · exact .refl v

/-! ### The ticker (R114, R120 to R131) -/

theorem handLevel_rowsStand : RowsStand s (handLevel s) :=
  .after (recordView_markStatus s) (markStatus_line s) (statusLinesPending_rowsStand _)

theorem updateLevel_rowsStand (late : Nat) : RowsStand s (updateLevel late s) := by
  simp only [updateLevel]
  split
  · exact .refl s
  · refine .trans (.after (by rfl) (by rfl) (handLevel_rowsStand _)) (.of_same ?_ (offerText_line _ _ _))
    exact recordView_offerText _ _ _

theorem stopTicker_rowsStand : RowsStand s (stopTicker s) := by
  simp only [stopTicker]
  split
  · exact .of_same rfl rfl
  · exact .after (by rfl) (by rfl) (handLevel_rowsStand _)

theorem tickerDayReset_rowsStand : RowsStand s (tickerDayReset s) := by
  simp only [tickerDayReset]
  split
  · exact .of_same rfl rfl
  · exact .after (by rfl) (by rfl) (handLevel_rowsStand _)

theorem setTapeFields_counts (p : Print) (n : Nat) :
    watchCount (setTapeFields p s).records n = watchCount s.records n := by
  rw [setTapeFields]
  split
  · rfl
  · next r hr =>
    rw [setRecords_records, watchCount_tableSet]
    split
    next hn => rw [hn, watchCount_of_some (tableGet_of_matchingRecord hr)]
    next => rfl

theorem printComposed_rowsStand (p : Print) : RowsStand s (printComposed p s) := by
  refine .of_records (printComposed_line s p) fun n => ?_
  rw [← records_of_view (recordView_condense s p)]
  simp only [printComposed, beginText, onTicker, setTicker_records]
  exact setTapeFields_counts (condense p s).2 (condense p s).1 n

end

/-- A run of the composition, round by round (R120). -/
theorem compose_rowsStand : ∀ (k : Nat) (s : State), RowsStand s (compose k s).2
  | 0, s => .refl s
  | k + 1, s => by
    simp only [compose]
    split
    · exact .refl s
    · exact .of_same rfl rfl
    · next rest _ =>
      have hlevel (late : Nat) : RowsStand s (updateLevel late (setQueue rest s)) :=
        .after (by rfl) (by rfl) (updateLevel_rowsStand (setQueue rest s) late)
      split
      · exact ((hlevel _).same (recordView_countOmitted _ 1) (countOmitted_line _ 1)).trans (compose_rowsStand k _)
      · exact (hlevel _).trans (printComposed_rowsStand _ _)

section
variable (s : State)

theorem compositionStep_rowsStand : RowsStand s (compositionStep s) := by
  have h := compose_rowsStand (s.ticker.queue.length + 1) s
  rw [compositionStep]
  split
  · next v heq =>
    rw [heq] at h
    exact h
  · next v heq =>
    rw [heq] at h
    have hblank : RowsStand s (emitBlank v) := h.same rfl rfl
    split
    · exact hblank.trans (stopTicker_rowsStand _)
    · exact hblank

theorem stepExpire_rowsStand : RowsStand s (stepExpire s) := by
  have hrestart (v : State) : (restartStep v).line = v.line := by
    rw [restartStep]
    split <;> rfl
  rw [stepExpire]
  split
  · refine .same (t := emitStep s) ?_ (recordView_restartStep _) (hrestart _)
    simp only [emitStep]
    split
    · exact .of_same rfl rfl
    · split
      · exact .of_same rfl rfl
      · exact compositionStep_rowsStand s
  · exact .refl s

/-! ### Clock and feed line (R42, R52, R60) -/

theorem minuteChange_rowsStand : RowsStand s (minuteChange s) :=
  .after (recordView_markClocks s) (markClocks_line s) (statusLinesPending_rowsStand _)

theorem applyClock_rowsStand (q : TimeOfDay) : RowsStand s (applyClock q s) := by
  simp only [applyClock]
  split
  · exact .after (by rfl) (by rfl) (minuteChange_rowsStand _)
  · exact .of_same rfl rfl

theorem secondExpire_rowsStand : RowsStand s (secondExpire s) := by
  simp only [secondExpire]
  split
  · exact .after (by rfl) (by rfl) (minuteChange_rowsStand _)
  · exact .of_same rfl rfl

theorem handFeedState_rowsStand (new : FeedState) : RowsStand s (handFeedState new s) := by
  have h : RowsStand s (statusLinesPending (markStatus s)) := handLevel_rowsStand s
  simp only [handFeedState]
  split
  · exact h.same (recordView_offerText _ _ _) (offerText_line _ _ _)
  · exact h

/-- A change of the feed receiver. -/
theorem setFeed_rowsStand (x : Feed) : RowsStand s (s.setFeed x) := .of_records rfl fun _ => rfl

theorem silenceExpire_rowsStand : RowsStand s (silenceExpire s) := by
  simp only [silenceExpire]
  split
  · refine .trans ?_ (handFeedState_rowsStand _ _)
    have hlost (x : Feed) : RowsStand s (markAllStale (raiseAlert .feedLost (s.setFeed x))) :=
      (setFeed_rowsStand s x).trans (.after (by rfl) (by rfl) (markAllStale_rowsStand _))
    exact hlost _
  · exact .refl s

theorem arrivalSeen_rowsStand : RowsStand s (arrivalSeen s) := by
  simp only [arrivalSeen, setFeedState]
  split
  · exact setFeed_rowsStand s _
  · exact .trans (t := (s.setFeed _).setFeed _) (setFeed_rowsStand s _) (handFeedState_rowsStand _ _)

theorem arrive_rowsStand (body : List Byte) : RowsStand s (arrive body s) := by
  simp only [arrive]
  split
  · exact arrivalSeen_rowsStand s
  · next t ht =>
    have hchecked := (arrivalSeen_rowsStand s).same (sequenceChecked_keeps ht) (sequenceChecked_line ht)
    split
    · exact hchecked.same (offerIntake_keeps _ _) (offerIntake_line _ _)
    · exact hchecked

theorem settleReception_rowsStand (r : Receiver × RxEvent) : RowsStand s (settleReception r s) := by
  simp only [settleReception]
  split
  · exact setFeed_rowsStand s _
  · exact .trans (setFeed_rowsStand s _) (arrive_rowsStand _ _)

theorem feedBits_rowsStand (bits : List Bool) : RowsStand s (feedBits bits s) :=
  .foldl (fun v _ => settleReception_rowsStand v _) bits s

theorem takeLastByte_rowsStand (low : Byte) : RowsStand s (takeLastByte low s) := by
  simp only [takeLastByte]
  split
  · exact settleReception_rowsStand s _
  · exact feedBits_rowsStand s _

end

end Sys2Proof.Machine

namespace Sys2Proof.Machine

open Sys2Proof.Safety

section
variable (s : State)

/-! ## The terminal line, at the rows and the watch counts (R137 to R153) -/

theorem beginTransaction_stands (x : TermId) (kind : PrimaryKind) (body : List Byte) :
    LineStands s.line (beginTransaction x kind body s).line := .of_terminals rfl

/-- The selected terminal served (Table 8-1). -/
theorem serve_stands (x : TermId) : LineStands s.line (serve x s).line := by
  simp only [serve]
  split
  · exact .refl _
  · refine .trans ?_ (beginTransaction_stands _ _ _ _)
    exact .setTerm (.of_rows rfl)
  · exact beginTransaction_stands _ _ _ _
  · split
    · refine .trans ?_ (beginTransaction_stands _ _ _ _)
      exact .setTerm (composeUpdate_stands s _)
    · exact beginTransaction_stands _ _ _ _
  · exact beginTransaction_stands _ _ _ _

theorem select_rowsStand : RowsStand s (select s) := by
  refine .of_line (recordView_select s) ?_
  rw [select]
  split
  · split
    · exact serve_stands s _
    · exact .refl _
  · exact .refl _

theorem selects_rowsStand {s t : State} (h : RowsStand s t) : RowsStand s (select t) := h.trans (select_rowsStand t)

/-- The line with its transaction and its gap changed. -/
theorem setLine_rowsStand {l : TerminalLine} (h : l.terminals = s.line.terminals) : RowsStand s (s.setLine l) :=
  .of_line rfl (.of_terminals h)

theorem lineSession_rowsStand (old : SessionState) : RowsStand s (lineSession old s) := by
  have hstatus := statusLinesPending_rowsStand s
  simp only [lineSession]
  split
  · exact selects_rowsStand (hstatus.trans (setLine_rowsStand _ rfl))
  · exact hstatus

theorem dayReset_rowsStand : RowsStand s (dayReset s) :=
  ((recordsDayReset_rowsStand s).trans (tickerDayReset_rowsStand _)).same (recordView_markAllSlots _)
    (markAllSlots_line _)

theorem applySession_rowsStand (code : SessionCode) : RowsStand s (applySession code s) := by
  have hhanded (new : SessionState) :
      RowsStand s (handSession s.time.session new (s.setTime { s.time with session := new })) := by
    refine .after ?_ ?_ (lineSession_rowsStand _ _)
    · rw [recordView_tickerSession, recordView_markStatus]
      rfl
    · rw [tickerSession_line, markStatus_line]
      rfl
  simp only [applySession]
  split
  · exact .refl s
  · split
    · exact .refl s
    · split
      · exact (hhanded _).trans (dayReset_rowsStand _)
      · exact hhanded _

theorem disabledTerm_stands (t : Terminal) : TermStands t (disabledTerm t) := clearSets_stands t

theorem resetTerm_stands (t : Terminal) : TermStands t (resetTerm t) := clearSets_stands t

theorem setEnabled_rowsStand (x : TermId) (enabled : Bool) : RowsStand s (setEnabled x enabled s) := by
  have hflag : RowsStand s (s.setTerm x { s.line.terminals[x] with enabled := enabled }) := .setTerm (.of_rows rfl)
  simp only [setEnabled]
  split
  · exact hflag
  · split
    · split
      · exact selects_rowsStand (.setTerm (.of_rows rfl))
      · exact hflag
    · split
      · exact hflag
      · exact .setTerm (clearSets_stands _)

theorem terminalResetAt_rowsStand (x : TermId) : RowsStand s (terminalResetAt x s) := by
  simp only [terminalResetAt]
  split
  · exact .refl s
  · split
    · exact .setTerm (.of_rows rfl)
    · exact selects_rowsStand (.setTerm (resetTerm_stands _))

theorem loseTerminal_rowsStand (x : TermId) : RowsStand s (loseTerminal x s) := by
  refine .same ?_ (recordView_raiseAlert _ _) (raiseAlert_line _ _)
  exact .setTerm (clearSets_stands _)

theorem miss_rowsStand (x : TermId) (after : TermState) : RowsStand s (miss x after s) := by
  simp only [miss]
  split
  · refine .trans ?_ (loseTerminal_rowsStand _ x)
    exact .setTerm (.of_rows rfl)
  · exact .setTerm (.of_rows rfl)

theorem activateOutcome_rowsStand (x : TermId) (o : LineOutcome) : RowsStand s (activateOutcome x o s) := by
  simp only [activateOutcome]
  split
  · exact .setTerm (.of_rows rfl)
  · exact .setTerm (.of_rows rfl)

theorem enquiryOutcome_rowsStand (x : TermId) (o : LineOutcome) : RowsStand s (enquiryOutcome x o s) := by
  simp only [enquiryOutcome]
  split
  · split
    · exact .setTerm (settleAccepted_stands _)
    · exact .setTerm (settleRefused_stands _)
  all_goals exact miss_rowsStand s x _

theorem applyWaiting_rowsStand (x : TermId) : RowsStand s (applyWaiting x s) := by
  simp only [applyWaiting]
  split
  · exact .setTerm (disabledTerm_stands _)
  · split
    · exact .setTerm (resetTerm_stands _)
    · exact .refl s

theorem freeLine_rowsStand : RowsStand s (freeLine s) := by
  simp only [freeLine]
  split
  · exact setLine_rowsStand s rfl
  · exact selects_rowsStand (setLine_rowsStand s rfl)

theorem frameSent_rowsStand : RowsStand s (frameSent s) := by
  simp only [frameSent]
  split
  · split
    · exact setLine_rowsStand s rfl
    · exact .refl s
  · exact .refl s

theorem probeExpire_rowsStand (x : TermId) : RowsStand s (probeExpire x s) := by
  simp only [probeExpire]
  split
  · exact selects_rowsStand (.setTerm (.of_rows rfl))
  · exact .refl s

theorem gapExpire_rowsStand : RowsStand s (gapExpire s) := by
  simp only [gapExpire]
  split
  · exact selects_rowsStand (setLine_rowsStand s rfl)
  · exact .refl s

/-! ## Resets and the tick (R57, R175) -/

theorem warmTerminal_stands (t : Terminal) : TermStands t (warmTerminal t) := clearSets_stands t

theorem warmState_rowsStand (straps : BitVec 6) : RowsStand s (warmState straps s) := by
  refine ⟨.map warmTerminal_stands rfl, fun n => ?_⟩
  have hget : tableGet (warmState straps s).records n = _ := tableGet_warmRecords s.records n
  rw [watchCount, hget, Option.map_map]
  rfl

theorem applyWarm_rowsStand (straps : BitVec 6) (body : List Byte) : RowsStand s (applyWarm straps body s) := by
  have hwoken := (warmState_rowsStand s straps).same (recordView_wakeChains _) (wakeChains_line _)
  refine (hwoken.trans (select_rowsStand _)).same ?_ ?_
  · rw [applyWarm, recordView_raiseAlert, recordView_replyTo]
  · rw [applyWarm, raiseAlert_line, replyTo_line]

theorem pinTaken_rowsStand : RowsStand s (pinTaken s) := .of_line (recordView_pinTaken s) (.of_terminals rfl)

theorem tickedOnce_rowsStand : RowsStand s (tickedOnce s) := by
  refine .of_line rfl (.map (fun t => ?_) rfl)
  exact .of_rows rfl

end

/-! ## Table entries other than SYMBOL and TERMINAL (R167) -/

/-- A definition finds no watch count, and brings none (R8). -/
theorem defineRecord_rowsStand {n : Nat} {s : State} (q : SymbolEntry) (hempty : tableGet s.records n = none) :
    RowsStand s (defineRecord n q s) := by
  refine .trans ?_ (updateRecord_rowsStand _ ?_ withoutClear_allNames)
  · exact .of_records rfl fun _ => rfl
  · exact (watchCount_of_none hempty).symm

/-- The entries of the tables that the watch manager does not read. -/
theorem otherTables_rowsStand {table : LoadTable} (hsymbol : table ≠ .symbol) (hterminal : table ≠ .terminal)
    {s₀ : State} {n : Nat} {x : List Byte} {s t : State} (h : table.apply s₀ n x s = some t) : RowsStand s t := by
  cases table with
  | symbol => exact absurd rfl hsymbol
  | terminal => exact absurd rfl hterminal
  | param =>
    simp only [LoadTable.apply, applyParamEntry] at h
    split at h
    · cases h
    · obtain rfl := Option.some.inj h
      split
      · exact .of_same (windowLoaded_keeps _) (windowLoaded_line _)
      · exact .of_same rfl rfl
  | slot => exact .of_same (applySlotTable_keeps h) (applySlotTable_line h)
  | chain =>
    refine .of_same (applyChainTable_keeps h) ?_
    simp only [LoadTable.apply, applyChainTable] at h
    split at h
    · obtain rfl := Option.some.inj h
      rw [applyChainEntry, wakeChain_line]
      rfl
    · cases h
  | module =>
    refine .of_same (applyModuleTable_keeps h) ?_
    simp only [LoadTable.apply, applyModuleTable] at h
    split at h
    · obtain rfl := Option.some.inj h
      rw [applyModuleEntry, wakeChain_line]
      rfl
    · cases h

end Sys2Proof.Machine

namespace Sys2Proof.Machine

open Sys2Proof.Safety

/-! ## The two laws, kept from one state to another (R155, R156) -/

/-- R155, of one terminal. -/
structure TermFormed (t : Terminal) : Prop where
  form : ∀ i : Fin 16, RowForm t.rows[i]
  once : ∀ (i j : Fin 16) (n : Nat), (t.rows[i]).record = some n → (t.rows[j]).record = some n → i = j

theorem rowsFormed_iff (s : State) : RowsFormed s ↔ ∀ x : TermId, TermFormed s.line.terminals[x] :=
  forall_congr' fun _ => ⟨fun ⟨hform, honce⟩ => ⟨hform, honce⟩, fun ⟨hform, honce⟩ => ⟨hform, honce⟩⟩

/-- Rows that keep their form, and that name no record but what they named. -/
theorem TermFormed.of_rows {a b : Terminal} (hform : ∀ i : Fin 16, RowForm a.rows[i] → RowForm b.rows[i])
    (hnames : ∀ (i : Fin 16) (n : Nat), (b.rows[i]).record = some n → (a.rows[i]).record = some n) (h : TermFormed a) :
    TermFormed b :=
  ⟨fun i => hform i (h.form i), fun i j n hi hj => h.once i j n (hnames i n hi) (hnames j n hj)⟩

/-- One terminal replaced. -/
theorem rowsFormed_setTerm {x : TermId} {term : Terminal} {s : State} (hterm : TermFormed term) (h : RowsFormed s) :
    RowsFormed (s.setTerm x term) := by
  rw [rowsFormed_iff] at h ⊢
  intro y
  by_cases hy : y = x
  · rw [hy, setTerm_same]
    exact hterm
  · rw [setTerm_other hy]
    exact h y

/-- What is kept of R155, and of R156 where the directory is exact. -/
structure WatchKept (s t : State) : Prop where
  formed : RowsFormed s → RowsFormed t
  exact : DirectoryExact s → WatchExact s → WatchExact t

theorem RowsStand.formed {s t : State} (h : RowsStand s t) (hs : RowsFormed s) : RowsFormed t := by
  rw [rowsFormed_iff] at hs ⊢
  exact fun x => (hs x).of_rows (fun i => (h.line x i).form) fun i n hi => (h.line x i).record.symm.trans hi

theorem RowsStand.watchExact {s t : State} (h : RowsStand s t) (hs : WatchExact s) : WatchExact t := by
  rw [watchExact_iff] at hs ⊢
  exact fun n => (h.counts n).trans ((hs n).trans (h.line.lineNaming_same n).symm)

theorem RowsStand.kept {s t : State} (h : RowsStand s t) : WatchKept s t := ⟨h.formed, fun _ => h.watchExact⟩

theorem directoryExact_of_moves {s t : State} (h : RecordMoves s t) (hs : DirectoryExact s) : DirectoryExact t :=
  h.keeps (P := RecordView.Exact) (fun _ _ hmove => hmove.exact) hs

namespace WatchKept

variable {s t u : State}

theorem refl (s : State) : WatchKept s s := (RowsStand.refl s).kept

/-- And then rows that stand. -/
theorem stands (h : WatchKept s t) (h' : RowsStand t u) : WatchKept s u :=
  ⟨fun hs => h'.formed (h.formed hs), fun hd hs => h'.watchExact (h.exact hd hs)⟩

theorem trans (h : WatchKept s t) (hmoves : RecordMoves s t) (h' : WatchKept t u) : WatchKept s u :=
  ⟨fun hs => h'.formed (h.formed hs), fun hd hs => h'.exact (directoryExact_of_moves hmoves hd) (h.exact hd hs)⟩

end WatchKept

/-! ## A row that comes to hold another item (R155, R156) -/

theorem rowsFormed_changeRow {x : TermId} {i : Fin 16} {item : Option Nat} {s : State}
    (hnew : ∀ n, item = some n → ∀ j : Fin 16, ((s.line.terminals[x]).rows[j]).record ≠ some n) (h : RowsFormed s) :
    RowsFormed (changeRow x i item s) := by
  have hx := (rowsFormed_iff s).mp h x
  have hrow (j : Fin 16) : ((s.line.terminals[x]).rows.set i (rowOfItem item))[j]
      = if i = j then rowOfItem item else (s.line.terminals[x]).rows[j] := by
    simp only [Fin.getElem_fin, Vector.getElem_set, Fin.ext_iff]
  have hterm : TermFormed { s.line.terminals[x] with rows := (s.line.terminals[x]).rows.set i (rowOfItem item) } := by
    refine ⟨fun j => ?_, fun j k n hj hk => ?_⟩
    · rw [hrow]
      split
      · exact rowForm_rowOfItem item
      · exact hx.form j
    · rw [hrow] at hj hk
      split at hj
      next hij =>
        rw [rowOfItem_record] at hj
        split at hk
        next hik => exact hij.symm.trans hik
        next => exact absurd hk (hnew n hj k)
      next =>
        split at hk
        next =>
          rw [rowOfItem_record] at hk
          exact absurd hj (hnew n hk j)
        next => exact hx.once j k n hj hk
  have hset := rowsFormed_setTerm (x := x) hterm h
  rw [RowsFormed, changeRow_line]
  exact hset

/-! ## Requests and the end of a transaction (R137, R162, R163) -/

theorem placeResult_rowsStand (x : TermId) (code : ResultCode) (row : Byte) (s : State) :
    RowsStand s (placeResult x code row s) := .setTerm (.of_rows rfl)

theorem defined_of_lookup {s : State} {c : SymbolCode} {n : Nat} (h : DirectoryExact s)
    (hn : lookup s.directory c = some n) : (tableGet s.records n).isSome = true := by
  obtain ⟨r, hr, -⟩ := (h.2 c n).mp (mem_of_lookup hn)
  rw [hr]
  rfl

theorem applyAdd_watchKept (x : TermId) (row : Nat) (c : SymbolCode) (s : State) :
    WatchKept s (applyAdd x row c s) := by
  have answered (code : ResultCode) (row : Byte) := (placeResult_rowsStand x code row s).kept
  simp only [applyAdd]
  split
  next locked => exact answered _ _
  next unlocked =>
    split
    next unknown => exact answered _ _
    next n known =>
      split
      next i named => exact answered _ _
      next unnamed =>
        split
        next full => exact answered _ _
        next i free =>
          have hempty := (rowForAdd_eq_some_iff.mp free).1
          have hunnamed := rowNaming_eq_none_iff.mp unnamed
          refine WatchKept.stands ⟨rowsFormed_changeRow ?_, fun hd => watchExact_changeRow ?_ ?_⟩
            (placeResult_rowsStand ..)
          · rintro _ ⟨⟩
            exact hunnamed
          · rw [hempty]
            nofun
          · rintro _ ⟨⟩
            exact defined_of_lookup hd known

theorem applyDrop_watchKept (x : TermId) (row : Byte) (s : State) : WatchKept s (applyDrop x row s) := by
  have answered (code : ResultCode) (row : Byte) := (placeResult_rowsStand x code row s).kept
  simp only [applyDrop]
  split
  next locked => exact answered _ _
  next unlocked =>
    split
    next badRow => exact answered _ _
    next i known =>
      split
      next empty => exact answered _ _
      next holds =>
        rw [Option.isNone_iff_eq_none] at holds
        refine WatchKept.stands ⟨rowsFormed_changeRow ?_, fun _ => watchExact_changeRow holds ?_⟩
          (placeResult_rowsStand ..)
        · nofun
        · nofun

theorem applyRequest_watchKept (x : TermId) (request : Option Request) (s : State) :
    WatchKept s (applyRequest x request s) :=
  match request with
  | none => .refl s
  | some (.add row c) => applyAdd_watchKept x row c s
  | some (.drop row) => applyDrop_watchKept x row s

/-- The terminal replaced, and its request handed on. -/
theorem requested_watchKept {x : TermId} (request : Option Request) {term : Terminal} {s : State}
    (h : TermStands s.line.terminals[x] term) : WatchKept s (applyRequest x request (s.setTerm x term)) :=
  (RowsStand.setTerm h).kept.trans (.of_eq rfl) (applyRequest_watchKept x request _)

theorem applyOutcome_watchKept (kind : PrimaryKind) (x : TermId) (o : LineOutcome) (s : State) :
    WatchKept s (applyOutcome kind x o s) := by
  have hmiss (after : TermState) := (miss_rowsStand s x after).kept
  have hset {term : Terminal} (h : TermStands s.line.terminals[x] term) : WatchKept s (s.setTerm x term) :=
    (RowsStand.setTerm h).kept
  cases kind with
  | activate => exact (activateOutcome_rowsStand s x o).kept
  | enquiry => exact (enquiryOutcome_rowsStand s x o).kept
  | screenInit =>
    simp only [applyOutcome, screenInitOutcome]
    split
    · split
      · exact requested_watchKept _ (activateRows_stands _)
      · exact hmiss _
    · exact .refl s
    all_goals exact hmiss _
  | poll =>
    simp only [applyOutcome, pollOutcome]
    split
    · exact requested_watchKept _ (.of_rows rfl)
    · exact .refl s
    all_goals exact hmiss _
  | update =>
    simp only [applyOutcome, updateOutcome]
    split
    · split
      · exact requested_watchKept _ (settleAccepted_stands _)
      · exact hset (.of_rows rfl)
    · exact hset (settleRefused_stands _)
    all_goals exact hmiss _

theorem endTransaction_watchKept (o : LineOutcome) (s : State) : WatchKept s (endTransaction o s) := by
  rw [endTransaction]
  split
  · exact .refl s
  · next tx _ =>
    exact (applyOutcome_watchKept tx.kind tx.terminal o s).stands
      ((applyWaiting_rowsStand _ _).trans (freeLine_rowsStand _))

theorem takeCharacter_watchKept (b : Byte) (s : State) : WatchKept s (takeCharacter b s) := by
  have taken {l : TerminalLine} (h : l.terminals = s.line.terminals) := (setLine_rowsStand s h).kept
  have ended {l : TerminalLine} (o : LineOutcome) (h : l.terminals = s.line.terminals) :
      WatchKept s (endTransaction o (s.setLine l)) := (taken h).trans (.of_eq rfl) (endTransaction_watchKept o _)
  simp only [takeCharacter]
  split
  · exact .refl s
  · split
    · exact .refl s
    · split
      · exact .refl s
      · split
        · exact ended _ rfl
        · split
          · exact ended _ rfl
          · exact taken rfl

theorem responseExpire_watchKept (s : State) : WatchKept s (responseExpire s) := by
  rw [responseExpire]
  split
  · split
    · exact endTransaction_watchKept _ s
    · exact .refl s
  · exact .refl s

end Sys2Proof.Machine

namespace Sys2Proof.Machine

open Sys2Proof.Safety

/-! ## A deletion and a rename (R9, R10, R158) -/

theorem lineWithDeletion_row (n : Nat) (l : TerminalLine) (x : TermId) (i : Fin 16) :
    ((lineWithDeletion n l).terminals[x]).rows[i]
      = if ((l.terminals[x]).rows[i]).record = some n then clearedRow else (l.terminals[x]).rows[i] := by
  simp only [lineWithDeletion, Fin.getElem_fin, Vector.getElem_map]
  rfl

/-- After a deletion no row names the record, and every other record is named as it was. -/
theorem lineNaming_lineWithDeletion (n m : Nat) (l : TerminalLine) :
    lineNaming (lineWithDeletion n l) m = if m = n then 0 else lineNaming l m := by
  have hrow (x : TermId) (i : Fin 16) : itemCount (((lineWithDeletion n l).terminals[x]).rows[i]).record m
      = if m = n then 0 else itemCount ((l.terminals[x]).rows[i]).record m := by
    rw [lineWithDeletion_row]
    by_cases hnamed : ((l.terminals[x]).rows[i]).record = some n
    · rw [if_pos hnamed, hnamed]
      by_cases hm : m = n
      · rw [if_pos hm]; rfl
      · rw [if_neg hm, itemCount_other fun h => hm (Option.some.inj h).symm]; rfl
    · rw [if_neg hnamed]
      by_cases hm : m = n
      · rw [if_pos hm, hm, itemCount_other hnamed]
      · rw [if_neg hm]
  simp only [lineNaming, rowsNaming_eq, hrow]
  split
  · simp
  · rfl

/-- A record of watch count 0, EMPTY or newly defined, with the rows that named it EMPTY. -/
theorem deletion_watchKept {n : Nat} {s t : State} (hline : t.line = lineWithDeletion n s.line)
    (hcounts : ∀ m, watchCount t.records m = if m = n then 0 else watchCount s.records m) : WatchKept s t := by
  refine ⟨fun hs => ?_, fun _ hs => ?_⟩
  · rw [rowsFormed_iff] at hs ⊢
    intro x
    rw [hline]
    refine (hs x).of_rows (fun i hi => ?_) fun i m hi => ?_
    · rw [lineWithDeletion_row]
      split
      · exact rowForm_rowOfItem none
      · exact hi
    · rw [lineWithDeletion_row] at hi
      split at hi
      · cases hi
      · exact hi
  · rw [watchExact_iff] at hs ⊢
    intro m
    rw [hcounts, hline, lineNaming_lineWithDeletion, hs m]

theorem deleteRecord_watchKept (n : Nat) (c : SymbolCode) (s : State) : WatchKept s (deleteRecord n c s) := by
  refine deletion_watchKept (n := n) ?_ fun m => ?_
  · rw [deleteRecord, handDeletion_frame]
    rfl
  · rw [deleteRecord_records, watchCount, tableGet_tableErase]
    split <;> rfl

theorem renameRecord_watchKept (n : Nat) (c : SymbolCode) (q : SymbolEntry) (s : State) :
    WatchKept s (renameRecord n c q s) := by
  have hdeleted (directory : List (SymbolCode × Nat)) : WatchKept s (handDeletion n
      ((s.setDirectory directory).setRecords (tableSet s.records n (definedRecord (feedLost s) q)))) := by
    refine deletion_watchKept (n := n) ?_ fun m => ?_
    · rw [handDeletion_frame]
      rfl
    · rw [records_of_view (t := handDeletion _ _) (recordView_handDeletion _ _), setRecords_records,
        watchCount_tableSet]
      rfl
  exact (hdeleted _).stands (handNames_rowsStand _ n withoutClear_allNames)

theorem applySymbolEntry_watchKept {n : Nat} {x : List Byte} {s t : State} (h : applySymbolEntry n x s = some t) :
    WatchKept s t := by
  rcases applySymbolEntry_cases h with rfl | ⟨q, -, -, ⟨-, hempty, rfl⟩ | ⟨r, hr, ⟨-, rfl⟩ | rfl | ⟨-, -, rfl⟩⟩⟩
  · exact .refl _
  · exact (defineRecord_rowsStand q hempty).kept
  · exact deleteRecord_watchKept n _ s
  · have hwatch : (staticRecord q r).watch = r.watch := rfl
    exact (updateDefined_rowsStand s hr hwatch (withoutClear_staticNames _ _)).kept
  · exact renameRecord_watchKept n _ q s

/-! ## A TERMINAL entry (R164) -/

/-- An entry taken: its checks, and what is done. -/
theorem applyTerminalTable_inv {k : Nat} {y : List Byte} {s t : State} (h : applyTerminalTable k y s = some t) :
    ∃ x : TermId, ¬ TerminalEntryFails y ∧ (∀ i n, rowItemAt y i = some n → (tableGet s.records n).isSome = true)
      ∧ t = setEnabled x (decide (at8 y 0 = 1))
        (((List.finRange 16).zip ((List.finRange 16).map (rowItemAt y))).foldl
          (fun v item => applyTerminalEntry.loadRow x item v)
          (s.setTerm x { s.line.terminals[x] with lock := decide (at8 y 1 = 1) })) := by
  simp only [applyTerminalTable] at h
  split at h
  · next hk =>
    have hfails : ¬ TerminalEntryFails y := fun hfails => by
      rw [applyTerminalEntry, terminalEntry_of_fails hfails] at h
      cases h
    simp only [applyTerminalEntry, terminalEntry_of_not_fails hfails] at h
    split at h
    · next hdefined => exact ⟨⟨k, hk⟩, hfails, (rowItems_defined_iff y s).mp hdefined, (Option.some.inj h).symm⟩
    · cases h
  · cases h

/-- The rows of an entry that passes its checks are formed. -/
theorem termFormed_storedTerm {y : List Byte} {term : Terminal} (hfails : ¬ TerminalEntryFails y)
    (h : TermFormed term) : TermFormed (storedTerm y term) := by
  have hrow (i : Fin 16) : (storedTerm y term).rows[i] = loadedRow (rowItemAt y i) term.rows[i] := by
    simp [storedTerm]
  have hitem (i : Fin 16) : ((storedTerm y term).rows[i]).record = rowItemAt y i := by
    rw [hrow]
    by_cases hsame : (term.rows[i]).record = rowItemAt y i
    · rw [loadedRow_same hsame, hsame]
    · rw [loadedRow_other hsame, rowOfItem_record]
  refine ⟨fun i => ?_, fun i j n hi hj => ?_⟩
  · rw [hrow]
    by_cases hsame : (term.rows[i]).record = rowItemAt y i
    · rw [loadedRow_same hsame]
      exact h.form i
    · rw [loadedRow_other hsame]
      exact rowForm_rowOfItem _
  · rw [hitem, rowItemAt_eq_some_iff] at hi hj
    by_contra hne
    exact hfails (.inr (.inr (.inr ⟨i, j, hne, hi.2.trans hj.2.symm, hi.1⟩)))

/-- Rows of DEFINED records stored one after the other keep the watch counts exact. -/
theorem watchExact_loadRows (x : TermId) : ∀ (items : List (Fin 16 × Option Nat)) (s : State),
    (∀ item ∈ items, ∀ n, item.2 = some n → (tableGet s.records n).isSome = true) → WatchExact s →
    WatchExact (items.foldl (fun v item => applyTerminalEntry.loadRow x item v) s)
  | [], _, _, h => h
  | item :: rest, s, hdefined, h => by
    rw [List.forall_mem_cons] at hdefined
    obtain ⟨hitem, hrest⟩ := hdefined
    rw [List.foldl_cons, applyTerminalEntry.loadRow]
    split
    · exact watchExact_loadRows x rest s hrest h
    · next hother =>
      refine watchExact_loadRows x rest _ (fun item' hmem n hn => ?_) (watchExact_changeRow hother hitem h)
      rw [tableGet_changeRow, Option.isSome_map]
      exact hrest item' hmem n hn

theorem zip_map_self {α β : Type} (f : α → β) (l : List α) : l.zip (l.map f) = l.map fun a => (a, f a) := by
  rw [← List.zip_map', List.map_id']

theorem applyTerminalTable_watchKept {k : Nat} {y : List Byte} {s t : State} (h : applyTerminalTable k y s = some t) :
    WatchKept s t := by
  obtain ⟨x, hfails, hdefined, ht⟩ := applyTerminalTable_inv h
  rw [ht]
  have hlock : RowsStand s (s.setTerm x { s.line.terminals[x] with lock := decide (at8 y 1 = 1) }) :=
    .setTerm (.of_rows rfl)
  refine WatchKept.stands ⟨fun hs => ?_, fun _ hs => ?_⟩ (setEnabled_rowsStand _ x _)
  · obtain ⟨records, -, hloads⟩ := storedTerm_loads x y s
    rw [hloads]
    exact rowsFormed_setTerm (termFormed_storedTerm hfails ((rowsFormed_iff s).mp hs x)) hs
  · rw [zip_map_self]
    refine watchExact_loadRows x _ _ (fun item hmem n hn => ?_) (hlock.watchExact hs)
    rw [List.mem_map] at hmem
    obtain ⟨i, -, rfl⟩ := hmem
    exact hdefined i n hn

end Sys2Proof.Machine

namespace Sys2Proof.Machine

open Sys2Proof.Safety

/-! ## The head of the intake queue and LOAD (R50, R167) -/

theorem takeHead_rowsStand {step : FrameStep} {apply : List Byte → State → State}
    (h : ∀ body s, RowsStand s (apply body s)) (s : State) : RowsStand s (takeHead step apply s) := by
  simp only [takeHead]
  split
  · exact .refl s
  · next e rest _ =>
    split
    · exact ((afterGap_rowsStand s e).trans (h e.body _)).same rfl rfl
    · exact .refl s

theorem applyItems_rowsStand {α : Type} {items : List Byte → Option α} {apply : α → State → State}
    (h : ∀ s x, RowsStand s (apply x s)) (body : List Byte) (s : State) :
    RowsStand s (applyItems items apply body s) := by
  simp only [applyItems]
  split
  · exact h s _
  · exact .refl s

theorem applyControl_rowsStand {length : Nat} {act : List Byte → State → Option State}
    (h : ∀ p s t, act p s = some t → RowsStand s t) (body : List Byte) (s : State) :
    RowsStand s (applyControl length act body s) := by
  have hreply (v : State) (answer : List Byte) : RowsStand v (replyTo body answer v) :=
    .of_same (recordView_replyTo v body answer) (replyTo_line v body answer)
  simp only [applyControl]
  split
  · exact hreply s _
  · split
    · next t ht => exact (h _ s t ht).trans (hreply t _)
    · exact hreply s _

/-- Whatever the owner of a loadable table does with an entry. -/
theorem loadTable_watchKept (table : LoadTable) {s₀ : State} {n : Nat} {x : List Byte} {s t : State}
    (h : table.apply s₀ n x s = some t) : WatchKept s t := by
  by_cases hsymbol : table = .symbol
  · subst hsymbol
    exact applySymbolEntry_watchKept h
  · by_cases hterminal : table = .terminal
    · subst hterminal
      exact applyTerminalTable_watchKept h
    · exact (otherTables_rowsStand hsymbol hterminal h).kept

theorem takeLoad_watchKept (table : LoadTable) (s : State) :
    WatchKept s (takeLoad table.step table.size table.entrySize (table.apply s) s) := by
  rcases takeLoad_cases table.step table.size table.entrySize (table.apply s) s with
    hsame | ⟨e, rest, u, v, -, -, hu, hv, hend⟩
  · rw [hsame]
    exact .refl s
  · have hmarked : RowsStand s u ∧ RecordMoves s u := by
      rw [hu]
      split
      · exact ⟨afterGap_rowsStand s e, afterGap_moves e s⟩
      · exact ⟨.refl s, .refl s⟩
    have hentry : WatchKept u v := by
      rcases hv with rfl | ⟨n, x, hx⟩
      · exact .refl _
      · exact loadTable_watchKept table hx
    have hdone : WatchKept s v := hmarked.1.kept.trans hmarked.2 hentry
    rcases hend with ⟨answer, ht⟩ | ⟨done, ht, -⟩
    · rw [ht]
      exact hdone.stands (.same (.of_same rfl rfl) (recordView_loadEnds _ _ _) (loadEnds_line _ _ _))
    · rw [ht]
      exact hdone.stands (.of_same rfl rfl)

/-! ## Cold resets (R174) -/

/-- A part with its records EMPTY and its line cold. -/
theorem cold_watchKept {s t : State} (hrecords : t.records = []) (hline : t.line = coldLine) : WatchKept s t := by
  have hrow (x : TermId) (i : Fin 16) : (t.line.terminals[x]).rows[i] = coldRow := by
    rw [hline, coldLine_getElem, coldTerminal_row]
  refine ⟨fun _ => (rowsFormed_iff t).mpr fun x => ⟨fun i => ?_, fun i j n hi => ?_⟩, fun _ _ => ?_⟩
  · rw [hrow, rowForm_iff]
    exact ⟨.inl rfl, .inl rfl⟩
  · rw [hrow] at hi
    cases hi
  · rw [watchExact_iff]
    intro n
    simp only [hrecords, lineNaming, rowsNaming_eq, hrow]
    exact (Finset.sum_eq_zero fun x _ => Finset.sum_eq_zero fun i _ => rfl).symm

/-! ## Every command and every tick -/

section
variable {s t : State}

/-- A command that acts in operation alone. -/
theorem whenRunning_watchKept {f : State → State} (h : ∀ s, WatchKept s (f s)) (ht : whenRunning f s = .next t) :
    WatchKept s t := by
  simp only [whenRunning, Host.Outcome.next.injEq] at ht
  subst ht
  split
  · exact h s
  · exact .refl s

/-- A command under which the rows stand. -/
theorem whenRunning_rowsStand {f : State → State} (h : ∀ s, RowsStand s (f s)) (ht : whenRunning f s = .next t) :
    WatchKept s t := whenRunning_watchKept (fun s => (h s).kept) ht

/-- A market data frame under which the rows stand. -/
theorem whenRunning_items_rowsStand {α : Type} {step : FrameStep} {items : List Byte → Option α}
    {apply : α → State → State} (h : ∀ s x, RowsStand s (apply x s))
    (ht : whenRunning (takeHead step (applyItems items apply)) s = .next t) : WatchKept s t :=
  whenRunning_rowsStand (takeHead_rowsStand (applyItems_rowsStand h)) ht

/-- A command that touches neither the records nor the terminal line. -/
theorem whenRunning_same {f : State → State} (hview : ∀ s, (f s).recordView = s.recordView)
    (hline : ∀ s, (f s).line = s.line) (ht : whenRunning f s = .next t) : WatchKept s t :=
  whenRunning_rowsStand (fun s => .of_same (hview s) (hline s)) ht

/-- A command that acts in one phase alone. -/
theorem ite_watchKept {p : Prop} [Decidable p] {u v : State}
    (ht : Host.Outcome.next (if p then u else v) = (.next t : Answer)) (hu : WatchKept s u) (hv : WatchKept s v) :
    WatchKept s t := by
  obtain rfl := Host.Outcome.next.inj ht
  split
  · exact hu
  · exact hv

/-- The command that takes the next entry of a LOAD. -/
theorem exec_load_watchKept (table : LoadTable) (h : exec table.command s = .next t) : WatchKept s t := by
  rw [exec_load] at h
  simp only [whenRunning, Host.Outcome.next.injEq] at h
  subst h
  split
  · exact takeLoad_watchKept table s
  · exact .refl s

/-- Every command keeps R155 and R156. -/
theorem exec_watchKept (c : Instr) (h : exec c s = .next t) : WatchKept s t := by
  cases c
  case feedFrameReceived low => exact whenRunning_rowsStand (fun s => takeLastByte_rowsStand s low) h
  case feedByteReceived unit => exact whenRunning_rowsStand (fun s => feedBits_rowsStand s _) h
  case silenceTimerExpiry => exact whenRunning_rowsStand silenceExpire_rowsStand h
  case trade => exact whenRunning_items_rowsStand applyTrade_rowsStand h
  case quote => exact whenRunning_items_rowsStand applyQuote_rowsStand h
  case symbolState => exact whenRunning_items_rowsStand applySymbolState_rowsStand h
  case recap => exact whenRunning_items_rowsStand applyRecap_rowsStand h
  case clock => exact whenRunning_items_rowsStand applyClock_rowsStand h
  case session => exact whenRunning_items_rowsStand applySession_rowsStand h
  case bulletinPush =>
    exact whenRunning_items_rowsStand (fun s b => .of_same (applyPush_keeps b s) (applyPush_line s b)) h
  case bulletinPop => exact whenRunning_items_rowsStand (fun s b => .of_same (applyPop_keeps b s) (applyPop_line s b)) h
  case bulletinClear =>
    exact whenRunning_items_rowsStand (fun s b => .of_same (applyClear_keeps b s) (applyClear_line s b)) h
  case loadParam => exact exec_load_watchKept .param h
  case loadSymbol => exact exec_load_watchKept .symbol h
  case loadSlot => exact exec_load_watchKept .slot h
  case loadChain => exact exec_load_watchKept .chain h
  case loadModule => exact exec_load_watchKept .module h
  case loadTerminal => exact exec_load_watchKept .terminal h
  case read =>
    exact whenRunning_rowsStand
      (takeHead_rowsStand fun body s => .of_same (applyRead_keeps body s) (applyRead_line s body)) h
  case report =>
    exact whenRunning_rowsStand
      (takeHead_rowsStand fun body s => .of_same (applyReport_keeps body s) (applyReport_line s body)) h
  case clearAlerts =>
    refine whenRunning_rowsStand (takeHead_rowsStand (applyControl_rowsStand ?_)) h
    rintro p u v ⟨rfl⟩
    exact .of_same (clearAlertsNamed_keeps _ u) (clearAlertsNamed_line u _)
  case setMask =>
    refine whenRunning_rowsStand (takeHead_rowsStand (applyControl_rowsStand ?_)) h
    rintro p u v ⟨rfl⟩
    exact .of_same rfl rfl
  case chainReset =>
    refine whenRunning_rowsStand (takeHead_rowsStand (applyControl_rowsStand fun p u v hv => ?_)) h
    obtain ⟨c, -, rfl⟩ := Option.map_eq_some_iff.mp hv
    exact .of_same (recordView_chainResetAt u c) (chainResetAt_line u c)
  case terminalReset =>
    refine whenRunning_rowsStand (takeHead_rowsStand (applyControl_rowsStand fun p u v hv => ?_)) h
    obtain ⟨x, -, rfl⟩ := Option.map_eq_some_iff.mp hv
    exact terminalResetAt_rowsStand u x
  case tickerFlush =>
    refine whenRunning_rowsStand (takeHead_rowsStand (applyControl_rowsStand ?_)) h
    rintro p u v ⟨rfl⟩
    exact .of_same (tickerFlushAt_keeps u) (tickerFlushAt_line u)
  case resetCold =>
    refine whenRunning_watchKept (fun s => ?_) h
    simp only [takeHead]
    split
    · exact .refl s
    · split
      · exact cold_watchKept rfl rfl
      · exact .refl s
  case resetWarm straps =>
    exact whenRunning_rowsStand (takeHead_rowsStand fun body s => applyWarm_rowsStand s straps body) h
  case powerOn =>
    obtain rfl := Host.Outcome.next.inj h
    exact cold_watchKept rfl rfl
  case resetPinAssert => exact ite_watchKept h (.refl s) (pinTaken_rowsStand s).kept
  case resetPinRelease => exact ite_watchKept h (cold_watchKept rfl rfl) (.refl s)
  case initEnd straps sense => exact ite_watchKept h (cold_watchKept rfl rfl) (.refl s)
  case secondPhaseExpiry => exact whenRunning_rowsStand secondExpire_rowsStand h
  case keepaliveExpiry c => exact whenRunning_same (keepaliveExpire_keeps c) (keepaliveExpire_line · c) h
  case shiftCompletion c returned =>
    exact whenRunning_same (recordView_shiftComplete · c _) (shiftComplete_line · c _) h
  case settleCompletion c => exact whenRunning_same (settleExpire_keeps c) (settleExpire_line · c) h
  case chainSenseChange c present =>
    refine whenRunning_rowsStand (f := fun s => if s.chains[c].senseLevel = present then s else senseChange c present s)
      (fun s => ?_) h
    split
    · exact .refl s
    · exact .of_same (recordView_senseChange s c present) (senseChange_line s c present)
  case pwmPeriodStart c => exact whenRunning_same (recordView_setChain · c _) (setChain_line · c _) h
  case flashClockHalfPeriod => exact whenRunning_same halfPeriodExpire_keeps halfPeriodExpire_line h
  case flashExpiry n => exact whenRunning_same (recordView_flashExpire · n) (flashExpire_line · n) h
  case bulletinDurationExpiry k place =>
    exact whenRunning_same (bulletinExpire_keeps k place) (bulletinExpire_line · k place) h
  case step => exact whenRunning_rowsStand stepExpire_rowsStand h
  case primaryFrameSent => exact whenRunning_rowsStand frameSent_rowsStand h
  case terminalResponse low => exact whenRunning_watchKept (takeCharacter_watchKept low) h
  case terminalCharacterReceived b => exact whenRunning_watchKept (takeCharacter_watchKept b) h
  case responseTimeout => exact whenRunning_watchKept responseExpire_watchKept h
  case probeTimerExpiry x => exact whenRunning_rowsStand (fun s => probeExpire_rowsStand s x) h
  case nightPollGapExpiry => exact whenRunning_rowsStand gapExpire_rowsStand h
  case returnTransmissionStart => exact whenRunning_same returnStart_keeps returnStart_line h
  case returnFrameSent => exact whenRunning_same returnSent_keeps returnSent_line h
  case refusedManagementFrame =>
    exact whenRunning_rowsStand
      (takeHead_rowsStand fun _ s => .of_same (recordView_replyTo s _ _) (replyTo_line s _ _)) h

end

/-- The expiries of a tick are commands (R58). -/
theorem foldl_expiryTaken_watchKept : ∀ (es : List Expiry) (s : State),
    WatchKept s (es.foldl expiryTaken s) ∧ RecordMoves s (es.foldl expiryTaken s)
  | [], s => ⟨.refl s, .refl s⟩
  | e :: rest, s => by
    have hone : WatchKept s (expiryTaken s e) ∧ RecordMoves s (expiryTaken s e) := by
      simp only [expiryTaken]
      split
      · split
        · next t ht => exact ⟨exec_watchKept e.2 ht, exec_moves e.2 ht⟩
        · exact ⟨.refl s, .refl s⟩
        · exact ⟨.refl s, .refl s⟩
      · exact ⟨.refl s, .refl s⟩
    obtain ⟨hkept, hmoves⟩ := foldl_expiryTaken_watchKept rest (expiryTaken s e)
    exact ⟨hone.1.trans hone.2 hkept, hone.2.trans hmoves⟩

/-- Settles O56: every command keeps both laws, and a tick as the commands of its expiries do. -/
theorem watchCountsStayExact : Obligations.WatchCountsStayExact := by
  unfold Obligations.WatchCountsStayExact
  intro s t ht
  suffices hkept : WatchKept s t from ⟨hkept.formed, hkept.exact⟩
  cases hpending : s.pending with
  | cons c rest =>
    rw [stepTakesTheFront.1 c rest s hpending] at ht
    have htaken : RowsStand s { s with pending := rest } := .of_same rfl rfl
    exact htaken.kept.trans (.of_eq rfl) (exec_watchKept c ht)
  | nil =>
    obtain ⟨hruns, hstands⟩ := tickCountsAndExpires s hpending
    by_cases hphase : s.phase = .running
    · obtain rfl := Host.Outcome.next.inj ((hruns hphase).symm.trans ht)
      obtain ⟨hkept, -⟩ := foldl_expiryTaken_watchKept _ (tickedOnce s)
      exact (tickedOnce_rowsStand s).kept.trans (.of_eq rfl) hkept
    · obtain rfl := Host.Outcome.next.inj ((hstands hphase).symm.trans ht)
      exact .refl s

end Sys2Proof.Machine
